-- ==== Sys2Proof/Word.lean ====
section
/-! DEFINITION. The words of Idith and the index types of its parts. -/

namespace Sys2Proof

abbrev Byte := BitVec 8
abbrev Half := BitVec 16
abbrev Word32 := BitVec 32
abbrev Word64 := BitVec 64

/-- Host partitions 0 to 3. -/
abbrev Part := Fin 4
/-- Races 0 to 15 (R14). -/
abbrev RaceId := Fin 16
/-- Clusters of a race (R14). -/
abbrev ClusterId := Fin 12
/-- Physical engines of a cluster (R37). -/
abbrev EngineId := Fin 17
/-- Millstone home slices (R14). -/
abbrev SliceId := Fin 32
/-- Lanes, and so the largest number of ports. -/
abbrev PortId := Fin 512
/-- General registers `g0` to `g15` and tags `t0` to `t15` (R44). -/
abbrev GReg := Fin 16

end Sys2Proof
end

