-- ==== Sys2Proof/Syntax.lean ====
section
/-! DEFINITION. The commands of the block: one constructor for each row of the table of operations and
events. Engine instructions carry the thread that executes them and the fields of R52 and R53; host
commands carry their descriptor (R460); happenings carry the unit they happen in, and what the outside
world brings (a frame's bytes, a measurement, an outcome decided outside the block). -/

namespace Sys2Proof

/-- A thread of an engine: race, cluster, physical engine, thread (R14, R37, R38). -/
structure ThreadId where
  race : RaceId
  cluster : ClusterId
  engine : EngineId
  thread : Fin 4
deriving DecidableEq, Repr

/-- A host command descriptor (R460): the ring it stands on, TAG, FLAGS, the 26 bytes marked 0, and the 32
operand bytes, all little-endian. Its OPCODE is the constructor that carries it. -/
structure HostCmd where
  part : Part
  ring : Fin 4
  tag : Word32
  flags : Byte
  rsv : BitVec 208
  ops : BitVec 256
deriving DecidableEq, Repr

/-- How much of a frame FRAME_RECEIVE brings: all of it, its first bytes, or its end. -/
inductive RxPart where
  | whole
  | begin
  | finish
deriving DecidableEq, Repr

/-- Who performs a register access: a host partition through BAR0, or the Eosta port (R454, R629). -/
inductive Master where
  | host (p : Part)
  | eosta
deriving DecidableEq, Repr

/-- A failure that a diagnostic detects, with where it lies (R560, R562). -/
inductive Failure where
  /-- The end-to-end CRC-32C of the frame in transmission at a port. -/
  | crc32c (port : PortId)
  /-- A residue check of an engine. -/
  | residue (race : RaceId) (cluster : ClusterId) (engine : EngineId)
  /-- Uncorrectable errors, by storage: a cell of a packet, a page of the frame in transmission at a port, the state of
  a thread, a word of the program store, a class entry or parse node, a TCAM rule, an exact-match entry, an LPM prefix,
  a flow record, a flow bucket, a word of a control store, and storage whose damage has no owner. -/
  | cell (pkt addr : Nat)
  | page (port : PortId) (addr : Nat)
  | thread (t : ThreadId)
  | program (addr : Nat)
  | classEntry (race : RaceId) (addr : Nat)
  | rule (race : RaceId) (rule : Nat)
  | emEntry (race : RaceId) (pos : Nat)
  | lpm (v6 : Bool) (table len : Nat) (addr : BitVec 128)
  | record (index : Nat)
  | bucket (slice : SliceId) (bucket : Nat)
  | controlStore (race : RaceId) (cluster : ClusterId) (uaddr : Nat)
  | noOwner (unit addr : Nat)
  /-- A corrected error. -/
  | corrected
deriving DecidableEq, Repr

inductive Instr where
  -- engine instructions (R52 to R79)
  | aluReg (t : ThreadId) (rd ra rb : GReg) (f : Bool) (fn : BitVec 5)
  | aluImm (t : ThreadId) (rd ra : GReg) (f : Bool) (fn : BitVec 5) (imm : BitVec 12)
  | aluLi (t : ThreadId) (rd : GReg) (imm : Half)
  | aluLih (t : ThreadId) (rd : GReg) (imm : Half)
  | ld (t : ThreadId) (rd : GReg) (space size : BitVec 2) (x : Bool) (ra : GReg) (off : Byte)
  | st (t : ThreadId) (rd : GReg) (space size : BitVec 2) (x : Bool) (ra : GReg) (off : Byte)
  | ext (t : ThreadId) (rd ra : GReg) (pos len1 : BitVec 6)
  | ins (t : ThreadId) (rd ra : GReg) (pos len1 : BitVec 6)
  | br (t : ThreadId) (cond : BitVec 4) (off : Half)
  | brLink (t : ThreadId) (rd : GReg) (off : Half)
  | brReg (t : ThreadId) (ra : GReg)
  | brRc (t : ThreadId) (tag : GReg) (code : BitVec 4) (sense : Bool) (off : Half)
  | csumAdj (t : ThreadId) (rd ra rb : GReg) (width : BitVec 2)
  | tstamp (t : ThreadId) (rd : GReg) (sel : BitVec 3) (off : Byte)
  | flowGet (t : ThreadId) (rd tag : GReg) (mask : Half)
  | flowAdd (t : ThreadId) (rd tag ra rb : GReg) (word : BitVec 4) (mode : BitVec 2)
  | flowCas (t : ThreadId) (rd tag ra rb : GReg) (word : BitVec 4) (u : Bool)
  | flowIns (t : ThreadId) (rd tag : GReg) (persist : Bool)
  | flowDel (t : ThreadId) (rd tag ra : GReg)
  | lkpEm (t : ThreadId) (rd tag ra rb : GReg) (type : BitVec 3) (learn : Bool)
  | lkpLpm (t : ThreadId) (rd tag ra : GReg) (v6 : Bool) (off : Byte)
  | hashCrc32c (t : ThreadId) (rd tag : GReg) (space : BitVec 2) (len off : Byte)
  | csumSum (t : ThreadId) (rd tag : GReg) (space : BitVec 2) (len off : Byte)
  | meter (t : ThreadId) (rd tag ra rb : GReg) (f c : Bool)
  | hashCrc32 (t : ThreadId) (rd tag : GReg) (space : BitVec 2) (len off : Byte)
  | hashH0 (t : ThreadId) (rd tag : GReg) (space : BitVec 2) (len off : Byte)
  | wait (t : ThreadId) (kind : BitVec 2) (n : BitVec 9)
  | delay (t : ThreadId) (unit : BitVec 2) (x : Bool) (ra : GReg) (count : Half)
  | yield (t : ThreadId)
  | ordrel (t : ThreadId)
  | emit (t : ThreadId) (q m : Bool) (ra : GReg)
  | drop (t : ThreadId) (reason : Byte)
  | trap (t : ThreadId) (ring : BitVec 6) (code : Byte)
  | recirc (t : ThreadId)
  -- engine happenings
  | interruptTaken (t : ThreadId) (ecc : Bool)
  | gateConditionTrue (t : ThreadId)
  | asyncComplete (t : ThreadId) (tag : GReg) (ecc : Bool)
  | flowOpApply (slice : SliceId)
  | missQueueRoom (slice : SliceId)
  | journalRoom (slice : SliceId)
  | emLookupApply (race : RaceId)
  | lpmLookupApply (race : RaceId)
  | meterApply
  | hashApply (race : RaceId) (cluster : ClusterId)
  -- the front end and the Hopper
  | frameReceive (port : PortId) (part : RxPart) (bytes : List Byte) (fcsOk : Bool) (preempt : Bool)
  | headerBytesArrive (port : PortId) (n : Nat)
  | cellRequest
  | noCellDrop
  | refRelease
  | hostTxRetry (part : Part)
  | parserAdmit (race : RaceId)
  | leatAdmit (race : RaceId)
  | heldPassEnqueue (race : RaceId)
  | taskDeal (race : RaceId)
  | dueTaskTake (race : RaceId) (cluster : ClusterId)
  | delayTick (race : RaceId) (unit : Fin 4)
  | delayEntryObtained (t : ThreadId)
  | dueTaskEnqueue (race : RaceId) (unit : Fin 4)
  | keepaliveFire (race : RaceId) (timer : Fin 4096)
  | reorderTimeout (race : RaceId)
  | budgetWatchdog (race : RaceId) (task : Nat)
  -- egress
  | tailraceEnqueue (race : RaceId)
  | multicastReplicate
  | spillWrite (queue : Nat)
  | portSelect (port : PortId)
  | frameTxDone (port : PortId)
  | gateEntryAdvance (port : PortId)
  | gateListSwitch (port : PortId)
  | pfcFrameReceived (port : PortId) (mask : Byte) (times : BitVec 128)
  | pfcPauseExpire (port : PortId) (prio : Fin 8)
  | pfcRefresh (port : PortId) (prio : Fin 8)
  | linkUp (port : PortId)
  | linkDown (port : PortId)
  | verifyResponse (port : PortId)
  | verifyTimeout (port : PortId)
  | modRead (m : Master) (octet : Fin 64)
  | modWrite (m : Master) (octet : Fin 64)
  | modTransactionDone (octet : Fin 64) (ok : Bool) (data : Word64)
  | modulePresenceChange (octet : Fin 64) (present : Bool)
  | moduleInt (octet : Fin 64) (level : Bool)
  -- tables
  | sweeperPassStart (slice : SliceId)
  | sweeperVisit (slice : SliceId)
  | agerPass (race : RaceId)
  | learnApply (race : RaceId)
  | holddownExpire (race : RaceId) (key : Word64) (type : BitVec 3)
  | walkTimeout (part : Part)
  | restampDone (table : Nat)
  | meterRefresh (meter : Nat)
  -- host commands (R466)
  | nop (c : HostCmd)
  | abort (c : HostCmd)
  | commit (c : HostCmd)
  | attest (c : HostCmd)
  | attestDone (part : Part) (ring : Fin 4) (tag : Word32)
  | search (c : HostCmd)
  | insert (c : HostCmd)
  | delete (c : HostCmd)
  | next (c : HostCmd)
  | flushPort (c : HostCmd)
  | lpmUpdate (c : HostCmd)
  | walkStart (c : HostCmd)
  | flowSearch (c : HostCmd)
  | flowInsert (c : HostCmd)
  | flowDelete (c : HostCmd)
  | flowNext (c : HostCmd)
  | flowFlushPort (c : HostCmd)
  | versionCommit (c : HostCmd)
  | versionChecksDone (part : Part) (ring : Fin 4) (tag : Word32)
  | versionActivate (part : Part) (ring : Fin 4) (tag : Word32)
  | versionStatus (c : HostCmd)
  | snapshot (c : HostCmd)
  | snapshotLatch
  | counterFreeze
  | counterUnfreeze
  | dumpCfg (c : HostCmd)
  | dumpDue (part : Part) (stream : Fin 2)
  | dumpComplete (part : Part) (stream : Fin 2)
  | evrFreeze (c : HostCmd)
  | evrThaw (c : HostCmd)
  | evrFreezeExpire
  | evrRead (c : HostCmd)
  | evrClearSec (c : HostCmd)
  | eventRecord
  | maintStart (c : HostCmd)
  | maintStop (c : HostCmd)
  | maintStatus (c : HostCmd)
  | maintAutoStart (activity : Fin 13)
  | maintEnd (activity : Fin 13) (ok : Bool)
  | patchLoad (c : HostCmd)
  | patchActivate (c : HostCmd)
  | patchClusterDrained (race : RaceId)
  | patchDrainTimeout (race : RaceId)
  | patchHeartbeatResult (race : RaceId) (failed : List EngineId)
  | bufAlloc (c : HostCmd)
  | bufFree (c : HostCmd)
  | modeReq (c : HostCmd)
  | blockReset (c : HostCmd)
  | islandQuiesced
  | quiesceTimeout
  | islandResumed
  | warmReset (c : HostCmd)
  -- resets, starts and modes
  | restartQuiesced
  | clocksValid
  | trimApplied (fails : BitVec 32)
  | bootComplete (slotA slotB : Bool)
  | vin12Rise
  | brownOut (rail : Option Byte)
  | powerFailWarning
  | commitEnd
  | rstNRelease (lowNs : Nat)
  | rstNLow100ms
  | windshaftWatchdog (pair : Fin 4)
  | lockstepMismatch (pair : Fin 4)
  | resonatorFail (which : Fin 2)
  | bothResonatorsFail
  | islandPllLostLock (island : Fin 107)
  | gtcSync (island : Fin 107) (drift : Int)
  | partitionReset (part : Part) (perst : Bool)
  | partitionResetClear (part : Part)
  | hostBuffersReturn (part : Part)
  -- doorbells and rings
  | cmdPiDoorbell (part : Part) (ring : Fin 4) (value : Word32)
  | cmdChDoorbell (part : Part) (ring : Fin 4) (value : Word32)
  | rxTailDoorbell (part : Part) (ring : Fin 64) (value : Word32)
  | txTailDoorbell (part : Part) (ring : Fin 64) (value : Word32)
  | txDescriptor (part : Part) (ring : Fin 64)
  | txWriteback (part : Part) (ring : Fin 64)
  | rxPacketWrite (part : Part) (ring : Fin 64)
  -- register writes and reads with behaviour of their own
  | stagedCommitGo (m : Master) (addr : Nat)
  | stagedCommitDiscard (m : Master) (addr : Nat)
  | gateCommit (m : Master) (part : Part) (value : Word32)
  | portCommit (m : Master) (part : Part) (value : Word32)
  | tcamWrite (m : Master) (part : Part) (value : Word32)
  | tcamVset (m : Master) (part : Part) (value : Word32)
  | tcamVclr (m : Master) (part : Part) (value : Word32)
  | tcamInvalidate (m : Master) (part : Part) (value : Word32)
  | taccRead (m : Master) (part : Part) (value : Word32)
  | taccWrite (m : Master) (part : Part) (value : Word32)
  | lbWdataWrite (m : Master) (part : Part) (hi : Bool) (value : Word32)
  | lbSvcWrite (m : Master) (svc : Fin 1024) (value : Word32)
  | ucsModeNextWrite (m : Master) (word : Fin 6) (value : Word32)
  | hstDsubWrite (m : Master) (part : Part) (hi : Bool) (value : Word32)
  | cntSelWrite (m : Master) (island : Fin 107) (sel : Fin 16) (value : Word32)
  | cntWinWrite (m : Master) (word : Fin 4) (value : Word32)
  | cntUserReadWrite (m : Master) (part : Part) (value : Word32)
  | lanemapWrite (m : Master) (port : PortId) (value : Word32)
  | ptpRateWrite (m : Master) (hi : Bool) (value : Word32)
  | ptpStepWrite (m : Master) (value : Word32)
  | ptpSetWrite (m : Master) (word : Fin 3) (value : Word32)
  | ptpChangeApply
  | ptpCaptureRead (m : Master)
  | ptpTsqPop (m : Master) (part : Part)
  | lowWordReadLatch (m : Master) (addr : Nat)
  | hstDenyRead (m : Master) (part : Part)
  | ptpPpsinRead (m : Master)
  | ptpTodRxRead (m : Master)
  | robStatusRead (m : Master) (race : RaceId)
  | portStatusRead (m : Master) (port : PortId)
  | registerWrite (m : Master) (addr : Nat) (value : Word32)
  -- time pins
  | ppsInEdge
  | ppsOutEdge
  | todTxMessage
  | todRxMessage (bytes : List Byte)
  | eecReferenceLoss
  | eecCfgWrite (m : Master) (value : Word32)
  -- firmware
  | fwWrite (m : Master) (slot : Bool)
  | fwSelect (m : Master) (slot : Bool)
  | fwActivate (m : Master) (slot : Bool)
  | fwOperationDone (result : Option Bool)
  -- safety, self-test and ageing
  | heartbeatRun (race : RaceId) (cluster : ClusterId) (engine : EngineId) (pass : Option Bool)
  | heartbeatCheck
  | selftestStart (race : RaceId) (cluster : ClusterId)
  | selftestDone (race : RaceId) (cluster : ClusterId) (seg : Byte) (pass : Option Bool)
  | tcamScan (race : RaceId) (rule : Nat) (shadowOk : Bool)
  | safetyReaction (failure : Option Failure)
  | ageingMeasure (islands : List (Nat × Nat × Nat × Nat)) (canaries : List (Nat × Nat))
  | safAliveTick
  | optimeTick
  | powerMonitorUpdate (vin iin pin tj : Half) (island : Fin 107)
  -- SMBus (R615, R616)
  | smbusMode
  | smbusLatch (write : Bool) (value : Half)
  | smbusMask (write : Bool) (value : Half)
  | smbusVin
  | smbusIin
  | smbusPin
  | smbusTjmax
  | smbusTalert (write : Bool) (value : Half)
  | smbusOphours
  | smbusPcyc
  | smbusPart
  | smbusAlertResponse
  -- the Eosta debug port
  | extest
  | idcode
  | samplePreload
  | clamp
  | highz
  | extestPulse
  | extestTrain
  | bypass
  | eaccRead (addr : Word32)
  | eaccWrite (addr : Word32) (value : Word32)
  | trstNLow
  | unlockChallenge
  | unlock
  | lock
  | programUserDigest
  | challengeExpire
  | lockoutExpire
  | apRead
  | apWrite
  | threadHalt
  | threadStep
  | threadResume
  | threadAbort
  | threadMstep
  | deviceHaltRequest
  | deviceResumeRequest
  | deviceHaltEnter
  | deviceHaltResume
  | debugWarmReset
  | debugBlockReset
  | debugTestEntry
  -- the rest
  | samplerVisit (queue : Nat)
  | journalRingWrite
  | eecLocked
  | perstNRelease (part : Part)
  | pcieLinkUp (part : Part)
deriving DecidableEq, Repr

end Sys2Proof
end

