-- ==== Sys2Proof/Config.lean ====
section
/-! DEFINITION. What one device fixes and the manual leaves open: free values, fuse contents, and the
cryptography the manual names but does not define. Opaque: nothing can prove a value of them. -/

namespace Sys2Proof

/-- Free values (log 7): the n-th value the manual leaves undefined in a run. -/
opaque Config.freeWord : Nat → Word64

/-- The 64-bit words of the device's fuses (R255, R295, R625): seeds, digests, identity (log 8). -/
opaque Config.fuse : Nat → Word64

/-- UCS_ROM_VERSION, fixed for a device (R92, R137; log 8). -/
opaque Config.romVersion : Word32

/-- Silicon revision, bits [31:28] of IDCODE (R622; log 8). -/
opaque Config.siliconRev : BitVec 4

/-- Tichevan's manufacturer identity, bits [11:1] of IDCODE (R622; log 8). -/
opaque Config.maker : BitVec 11

/-- Bytes of the vertical, pointer and nano ROM at their offsets of access space 5 (R629; log 8). -/
opaque Config.microRom : Nat → Byte

/-- The dispatch ROM: entry micro-address of an instruction, in the vertical (false) or the two-level image (true), by
index 32 * opcode + sub (R88, R90; log 8). -/
opaque Config.dispatchRom : Bool → Nat → Half

/-- What a unit gives for an operation, by UNIT, FUNC, MOD and IMM of its field and its two sources: the result, uZ
and uC. FUNC encodings are internal to the ROM (R96; log 8). -/
opaque Config.unitResult : Nat → Nat → Nat → Nat → Word64 → Word64 → Word64 × Bool × Bool

/-- What a reserved operand selector reads (R97; log 8). -/
opaque Config.reservedOperand : Nat → Word64

/-- Micro-address of the first word of a segment of a service routine, by image, ROUTINE and segment (R112; log 8), and
whether the routine holds a control-store word (R106). -/
opaque Config.segmentAddr : Bool → Nat → Nat → Half
opaque Config.serviceHolds : Bool → Nat → Nat → Bool

/-- The partial signature that a segment of the spare-engine self-test leaves in the result store (R114; log 8). -/
opaque Config.segmentSignature : Nat → Word64

/-- SHA-512 of a byte list, 64 bytes (named in R119, R469, R625, R626; log 9). -/
opaque Config.sha512 : List Byte → List Byte

/-- ECDSA P-521 verification with SHA-512: public key of 133 B, message, signature of 132 B (R626, R549; log 9). -/
opaque Config.ecdsaOk : List Byte → List Byte → List Byte → Bool

/-- The device's ECDSA P-521 signature of a message (R469; log 9). -/
opaque Config.deviceSign : List Byte → List Byte

/-- AES-256-GCM decryption of a patch bundle (R119, R122; log 9): the plaintext when the tag authenticates. -/
opaque Config.gcmOpen : List Byte → Option (List Byte)

/-- The set of the record cache that a record index falls in, for one slice (R233; log 13). -/
opaque Config.recordSet : Nat → Nat

/-- The two-choice instants the manual leaves to the device: RST_N pulses of 2 to 10 µs (R495). -/
opaque Config.shortPulseResets : Nat → Bool

/-- What the manifest at the front of a firmware slot says (R507), whose layout the manual does not give (log 9): its
SHA-512 digest, SECVER and RAISE, and whether it lists a patch bundle's digest. -/
opaque Config.manifestDigest : List Byte → List Byte
opaque Config.secver : List Byte → Nat
opaque Config.raise : List Byte → Bool
opaque Config.manifestLists : List Byte → List Byte → Bool

/-- The section of a bundle's plaintext for the vertical (false) or the two-level image (true), whose layout the manual
does not give (R119; log 9): match registers and patch RAM words by number. -/
opaque Config.patchSection : List Byte → Bool → Option (List (Nat × Word32) × List (Nat × BitVec 48))

/-- The factory trim copy (R505; log 12): core voltage in mV * 2048 + clock in MHz of an island. -/
opaque Config.factoryTrim : Nat → Nat

end Sys2Proof
end

