-- ==== Sys2Proof/Machine/State.lean ====
section
/-! DEFINITION. The state of the block as plain data, the reasons a step can stop, and the state after reset.
Maps are sorted lists of (key, value) that list no default value (see Machine/Ops.lean). -/

namespace Sys2Proof.Machine

open Sys2Proof

/-- A sparse map from numbers: keys strictly rising, no entry equal to the key's default. -/
abbrev SMap (α : Type) := List (Nat × α)

/-- A byte memory. -/
abbrev Mem := List Host.Cell

/-! ### Threads and tasks (R37 to R51, R103 to R113, R140 to R177) -/

/-- What a thread waits for (R104; `entry` is the wait of R152 for a delay-list entry). -/
inductive Gate where
  | dcLe (n : Nat)
  | hdr (n : Nat)
  | grant
  /-- Held at issue by the full miss queue of a slice (R236). -/
  | room (slice : Nat)
  | reply (tag : GReg)
  | tick
  | entry
deriving DecidableEq, Repr

/-- The thread state of R44, as `delay` saves it (R77). -/
structure Ctx where
  task : Nat := 0
  pkt : Nat := 0
  g : SMap Word64 := []
  pc : BitVec 15 := 0
  z : Bool := false
  n : Bool := false
  c : Bool := false
  v : Bool := false
  rc : SMap (BitVec 4) := []
  dc : BitVec 4 := 0
  /-- Stores into the header window; the other bytes are the frame's (R47). -/
  hdr : SMap (Option Byte) := []
  md : Mem := []
  fv : SMap Word64 := []
  ordrel : Bool := false
  prio : Nat := 0
  /-- Base of the image in the race's program bank, in bytes (R190). -/
  img : Nat := 0
  /-- `tstamp` requests of sel 4 and 5: (adds residence, offset). -/
  stamps : List (Bool × Nat) := []
  /-- GTC at which the pass was dispatched, with halted time added (R167). -/
  start : Nat := 0
  /-- A 16th operation was issued while 15 were outstanding: results and codes may be wrong (R69, R484 case 7). -/
  wrong : Bool := false
deriving DecidableEq, Repr

/-- Interrupts pending for a thread (R108). -/
structure Ints where
  ecc : Bool := false
  abort : Bool := false
  watchdog : Bool := false
  halt : Bool := false
  drain : Bool := false
deriving DecidableEq, Repr

/-- Why a thread is halted: DBG_THR_STAT.CAUSE (R642). -/
inductive HaltCause where
  | request
  | breakpoint (index : Nat)
  | watchpoint (index : Nat)
  | step
deriving DecidableEq, Repr

/-- A resume token of a service routine (R112). -/
structure Token where
  routine : Nat
  segment : Nat
  addr : Half
  ver : Half
deriving DecidableEq, Repr

/-- Where a thread stands within a micro-routine (R97, R98, R103): the micro-address of its current word, none at an
instruction boundary; its micro-link, u0 to u7 and micro-flags; whether its last word came from patch RAM (R116) and
whether a safe point follows that word (R107). -/
structure Micro where
  addr : Option Nat := none
  link : Nat := 0
  u : SMap Word64 := []
  uz : Bool := false
  uc : Bool := false
  patch : Bool := false
  safe : Bool := false
deriving DecidableEq, Repr

/-- One thread of an engine. `ctx = none` is a free thread (R142). -/
structure Thread where
  ctx : Option Ctx := none
  gate : Option Gate := none
  ints : Ints := {}
  halted : Option HaltCause := none
  haltAt : Nat := 0
  /-- A watchpoint was hit: halt at the next instruction boundary (R634). -/
  wpHit : Option Nat := none
  /-- A STEP is under way (R631). -/
  stepping : Bool := false
  /-- The next instruction runs though a breakpoint names it: the thread was resumed or stepped at it. -/
  bpPass : Bool := false
  mstep : Bool := false
  /-- Service routine running here, with its next segment (R114), and the GTC at which that segment began or goes on. -/
  svc : Option Token := none
  svcAt : Nat := 0
  micro : Micro := {}
deriving DecidableEq, Repr

/-- A finished asynchronous operation on its way to its thread (R66). -/
structure Completion where
  thread : Nat
  task : Nat
  tag : Nat
  rd : Nat
  res : Word64
  code : BitVec 4
  /-- Flow-view words to copy (R73). -/
  fv : List (Nat × Word64)
  ecc : Bool
  /-- Source number of a home slice or of the Weir, whose results reach a race in order (R15); 0 within the race. -/
  via : Nat := 0
deriving DecidableEq, Repr

/-- A started host command: what its completion needs (R461): its ring, TAG, OPCODE, position, and its IRQ flag. -/
structure CmdRef where
  part : Nat
  ring : Nat
  tag : Nat
  opcode : Nat
  slot : Nat
  irq : Bool
  /-- Resets of its partition before it started: the completion of an older one is discarded (R482). -/
  epoch : Nat := 0
deriving DecidableEq, Repr

/-- Where the completion of an operation goes. -/
inductive OpSrc where
  | posted (thread task : Nat)
  | thread (thread task tag rd : Nat)
  | host (c : CmdRef)
  | checkpoint
deriving DecidableEq, Repr

/-- An operation on its way to a home slice (R73, R280, R382). -/
inductive FlowKind where
  | get (mask : Half)
  /-- `pkts`: posted adds merged into this one (R226). -/
  | add (mode : BitVec 2) (word : Nat) (val : Word64) (pkts : Nat)
  | cas (word : Nat) (cmp new : Word64) (uncond : Bool)
  | ins (persist : Bool)
  | del
  | meter (bytes : Nat) (aware : Bool) (colour : Nat)
  /-- FLOW_SEARCH, with RESADDR, and FLOW_DELETE (R280). -/
  | search (byIndex : Bool) (res : Nat)
  | hostDel (byIndex : Bool)
  /-- A checkpoint read (R251). -/
  | ckpt
deriving DecidableEq, Repr

structure FlowOp where
  src : OpSrc
  kind : FlowKind
  /-- The flow view, or the key and record words of a host command. -/
  view : List Word64
  index : Word64
  dom : Nat
  part : Nat
deriving DecidableEq, Repr

/-- A lookup on its way to the race's exact-match table (R74, R189). -/
structure EmOp where
  src : OpSrc
  key : Word64
  type : Nat
  learn : Option Word64
  part : Nat
  dom : Nat
  port : Nat
  seen : Nat
deriving DecidableEq, Repr

structure LpmOp where
  src : OpSrc
  table : Nat
  v6 : Bool
  addr : BitVec 128
  part : Nat
deriving DecidableEq, Repr

structure MeterOp where
  src : OpSrc
  meter : Nat
  bytes : Nat
  aware : Bool
  colour : Nat
  part : Nat
deriving DecidableEq, Repr

inductive HashKind where
  | crc32c
  | crc32
  | csum
  | h0
deriving DecidableEq, Repr

structure HashOp where
  src : OpSrc
  kind : HashKind
  seed : Word64
  bytes : List Byte
deriving DecidableEq, Repr

/-- A task waiting for a thread (R140). -/
structure Task where
  ctx : Ctx
  /-- Cluster a resumed task is bound to. -/
  cluster : Nat := 0
deriving DecidableEq, Repr

/-- Kinds of delay-list entry (R150). -/
inductive DlyKind where
  | prog
  | expiry
  | timer (index : Nat)
deriving DecidableEq, Repr

/-- An entry of a delay list (R149). -/
structure Delayed where
  kind : DlyKind
  list : Nat
  due : Nat
  ctx : Ctx := {}
  cluster : Nat := 0
  seq : Nat := 0
  /-- A keepalive firing that waits (R154): the version slot current at its due time (R157, R199), and the PTP time then
  (R65). -/
  fired : Option (Nat × Nat × Nat) := none
  /-- Its domain. -/
  firedDom : Nat := 0
deriving DecidableEq, Repr

/-! ### Packets, descriptors and the reorder unit (R17, R163, R653) -/

inductive PktKind where
  | frame
  | hostTx (part ring : Nat)
  | keepalive (timer : Nat)
  | expiry
deriving DecidableEq, Repr

/-- A packet, from its admission to the Sluice to the release of its last reference. -/
structure Packet where
  kind : PktKind := .frame
  race : Nat := 0
  port : Nat := 0x1FF
  dom : Nat := 0
  slot : Nat := 0
  /-- The frame without FCS with which it entered its current pass. -/
  frame : List Byte := []
  /-- Bytes of the frame that have arrived (R47). -/
  arrived : Nat := 0
  /-- All of it has arrived and its checks are made (R411). -/
  ended : Bool := false
  bad : Bool := false
  late : Bool := false
  /-- The reorder slot is still held (R163). -/
  rob : Bool := false
  ordrel : Bool := false
  /-- GTC at the PCS (R199) and referred to the balls (R420), and the PTP time then. -/
  pcs : Nat := 0
  stamp : Nat := 0
  ptpS : Nat := 0
  ptpNs : Nat := 0
  /-- GTC of admission by the parser (R164). -/
  admitted : Nat := 0
  pass : Nat := 0
  carry : Mem := []
  /-- One-step stamp requests the packet carries (R428). -/
  stamps : List (Bool × Nat) := []
  cells : List Nat := []
  gen : Nat := 0
  owner : Nat := 0
  /-- Class and class pair the Sluice gave it (R324). -/
  cls : Nat := 0
  /-- Cells still awaited from the Hopper (R331). -/
  want : Nat := 0
deriving DecidableEq, Repr

/-- A descriptor of one copy of a packet on its way to a queue (R335, R362). -/
structure Desc where
  pkt : Nat := 0
  cell : Nat := 0
  gen : Nat := 0
  queue : Nat := 0
  /-- The frame this copy sends, without FCS (R49). -/
  frame : List Byte := []
  port : Nat := 0x1FF
  /-- Port at which the frame came in, if it did, and the Tailrace that counts for all its copies (R363). -/
  ingress : Option Nat := none
  tail : Nat := 0
  dom : Nat := 0
  part : Nat := 0
  colour : Nat := 0
  cls : Nat := 0
  stamp : Nat := 0
  stamps : List (Bool × Nat) := []
  /-- Two-step stamp identity asked for by a host transmit descriptor (R429, R473). -/
  twoStep : Option Nat := none
  at_ : Nat := 0
  /-- It joined an empty queue with nothing in the deep buffer (R19). -/
  cut : Bool := false
  /-- It goes to DRAM (R343), and the pages that hold its pieces (R344). -/
  toDram : Bool := false
  pages : List Nat := []
  /-- Offset and length of each piece in its page. -/
  spans : List (Nat × Nat) := []
  mirror : Bool := false
  /-- Transmit ring it came from, partition * 64 + ring, and the descriptor's position (R473). -/
  hostTx : Option (Nat × Nat) := none
  /-- Host buffers it reads, with their generations (R341, R349). -/
  hostBufs : List (Nat × Nat) := []
deriving DecidableEq, Repr

/-- A packet on its way to a receive ring (R471). -/
structure RxItem where
  part : Nat
  ring : Nat
  pkt : Nat
  cell : Nat
  gen : Nat
  frame : List Byte
  code : Nat
  kind : Nat
  md : Mem := []
  stamp : Nat := 0
  port : Nat := 0x1FF
  dom : Nat := 0
  late : Bool := false
deriving DecidableEq, Repr

/-- What leaves the reorder unit for one ended packet. -/
inductive Leaving where
  | toQueue (d : Desc)
  | toRing (r : RxItem)
deriving DecidableEq, Repr

/-- A reorder slot, in arrival order (R163). -/
structure RobSlot where
  port : Nat
  pkt : Nat
  at_ : Nat
  /-- What waits in the slot for the earlier packets of the port. -/
  out : Option (List Leaving) := none
deriving DecidableEq, Repr

/-! ### Time, memories, races, versions -/

/-- Clocks: the master GTC (R21), the island copies as offsets (R22), and the model's own counter of free
values (log 7). -/
structure Clk where
  gtc : Nat := 0
  run : Bool := false
  /-- Offset of each island's copy from the master, and the value below which a copy does not read, so that it never
  runs backwards. -/
  isl : SMap Int := []
  hold : SMap Nat := []
  free : Nat := 0
  /-- Counters are frozen (R537). -/
  frozen : Bool := false
deriving DecidableEq, Repr

/-- Byte memories: program store (16 banks of 512 KiB), stacked DRAM outside the structures the model holds
apart, raw on-chip SRAM and nonvolatile memory of R629, and the host memories DMA reaches (key p * 2^64 + a). -/
structure Mems where
  prog : Mem := []
  /-- Words of the program store with an uncorrectable error (R562). -/
  progBad : List Nat := []
  dram : Mem := []
  sram : Mem := []
  nvRaw : Mem := []
  host : Mem := []
deriving DecidableEq, Repr

/-- A deferred learn request (R291, R292). -/
structure Learn where
  key : Word64
  type : Nat
  data : Word64
  part : Nat
  dom : Nat
  port : Nat
  /-- Event order key (R25). -/
  ekey : Nat
deriving DecidableEq, Repr

/-- A key held down after a learn (R292). -/
structure HoldDown where
  part : Nat
  key : Word64
  type : Nat
  until_ : Nat
  /-- A contention of this hold-down period has been posted. -/
  posted : Bool := false
deriving DecidableEq, Repr

/-- A race: its front end, task scheduler, reorder unit and table queues. -/
structure Race where
  sluice : List Nat := []
  held : List Task := []
  ntq : List Task := []
  leat : List Nat := []
  /-- Last position dealt to, plus 1 (R144; log 21). -/
  rr : Nat := 0
  dly : List Delayed := []
  /-- Resumed tasks that left their list and wait for a thread (R143). -/
  due : List Delayed := []
  seq : Nat := 0
  pauseNtq : Bool := false
  pauseRob : Bool := false
  pauseLeat : Bool := false
  rob : List RobSlot := []
  robMax : Nat := 0
  /-- Copies and receive items that have left the reorder unit (R163), in order. -/
  switch : List Desc := []
  emq : List EmOp := []
  lpmq : List LpmOp := []
  learnq : List Learn := []
  hold : List HoldDown := []
  /-- Learns granted in the current second, and the second (R292). -/
  learnWin : List Nat := []
  relocV : Nat := 0
  /-- The GTC multiple of 1 s at which the last ager pass started (R293). -/
  ager : Nat := 0
deriving DecidableEq, Repr

/-- A cluster: its 8 ready lists (key: priority), hash queue, patch content (R88, R115, R117). -/
structure Cluster where
  ready : SMap (List Nat) := []
  hashq : List HashOp := []
  /-- Match registers and patch RAM words. -/
  matchReg : SMap Word32 := []
  patch : SMap (BitVec 48) := []
  /-- Dispatch stopped: being switched by an activation (R124) or a spare swap. -/
  drain : Bool := false
  /-- Engine whose dispatch a maintenance swap has stopped (R40). -/
  swapOut : Option Nat := none
  /-- The spare that failed its self-test or its heartbeat (R576). -/
  deadSpare : Option Nat := none
  /-- The self-test of the spare, ended by a drain, is to start again after it (R108). -/
  testAgain : Bool := false
  /-- GTC plus 1 of Windshaft's last self-test of it; 0: none (R576). -/
  testAt : Nat := 0
  /-- Micro-address of the control-store word found in error (R106), and by ROM micro-address the GTC plus 1 of the last
  error there. -/
  csFault : Option Nat := none
  romErr : SMap Nat := []
deriving DecidableEq, Repr

/-- A version slot (R198): 0 free, 1 pending, 2 current, 3 superseded. -/
structure VSlot where
  state : Nat := 0
  count : Nat := 0
  /-- Activation instant, and the instant that superseded it. -/
  t : Nat := 0
  sup : Nat := 0
deriving DecidableEq, Repr

/-- A VERSION_COMMIT under way (R202). -/
structure VCommit where
  ref : CmdRef
  dom : Nat
  slot : Nat
  at_ : Nat
  accepted : Nat
  checked : Bool := false
deriving DecidableEq, Repr

/-- A TCAM rule of one race (R188, R192). -/
structure Rule where
  valid : Bool := false
  value : BitVec 640 := 0
  mask : BitVec 640 := 0
  dom : Nat := 0
  vmask : Nat := 0
  act0 : Word32 := 0
  act1 : Word32 := 0
  /-- The rule's words differ from the shadow (R560). -/
  err : Bool := false
deriving DecidableEq, Repr

/-- An LPM prefix (R195). -/
structure Prefix where
  v6 : Bool
  table : Nat
  len : Nat
  addr : BitVec 128
  data : Word32
  part : Nat
  /-- Its word in the store has an uncorrectable error (R562). -/
  bad : Bool := false
deriving DecidableEq, Repr

/-- A word of race `race`'s bank of class entries and parse nodes, by register address, found in error at GTC `at_`
(R562). -/
structure BadWord where
  race : Nat
  addr : Nat
  at_ : Nat
deriving DecidableEq, Repr

/-- Class tables, rules and versions (R188 to R204). -/
structure Cls where
  tcam : SMap Rule := []
  lpm : List Prefix := []
  vers : SMap VSlot := []
  commits : List VCommit := []
  bad : List BadWord := []
deriving DecidableEq, Repr

/-- A bundle's plaintext for one image: 64 match registers and patch words (R119). -/
structure PatchSection where
  match_ : SMap Word32 := []
  words : SMap (BitVec 48) := []
deriving DecidableEq, Repr

/-- A patch bundle as Windshaft holds it (R119, R122). -/
structure Bundle where
  version : Word32 := 0
  rom : Word32 := 0
  digest : List Byte := []
  /-- The bundle as it lies in its slot, header and ciphertext (R119). -/
  raw : List Byte := []
  vertical : Option PatchSection := none
  twoLevel : Option PatchSection := none
deriving DecidableEq, Repr

/-- A patch activation under way (R124): who asked, the phase of each race. -/
structure Activation where
  ref : CmdRef
  revert : Bool
  /-- Race → (cluster being switched, switched with its heartbeat due). -/
  at_ : SMap (Nat × Bool) := []
  /-- Race → GTC at which the draining began. -/
  since : SMap Nat := []
  /-- Going back after a failed heartbeat of cluster k (R127). -/
  failing : Option Nat := none
  aborted : Bool := false
  /-- Clusters switched, in order, with the version and the set they held. -/
  done : List (Nat × Word32 × PatchSection) := []
  /-- ABORTs that wait for its end (R129, R481). -/
  aborters : List CmdRef := []
deriving DecidableEq, Repr

/-- Microcode control (R119 to R131). Slots 0 and 1 of the nonvolatile store. -/
structure Ucs where
  slot0 : Option Bundle := none
  slot1 : Option Bundle := none
  cur : Nat := 0
  staged : Option Bundle := none
  act : Option Activation := none
  /-- A bundle has been staged since the last completed activation (R128). -/
  stagedSince : Bool := false
  /-- The stored image choice fails its CRC-32 (R94). -/
  modeBad : Bool := false
deriving DecidableEq, Repr

/-! ### Modes and resets (R7, R494 to R522) -/

/-- The twelve modes (R7). -/
inductive Mode where
  | cold
  | trim
  | boot
  | recovery
  | ready
  | service
  | degraded
  | restart
  | safe
  | commit
  | halt
  | test
deriving DecidableEq, Repr

/-- A block reset under way (R497, R515): kind, index, phase (0 quiescing, 1 applied), who asked. -/
structure BlkReset where
  kind : Nat
  index : Nat
  phase : Nat
  drops : Nat := 0
  timedOut : Bool := false
  since : Nat := 0
  /-- Requesting command, none for the debug port. -/
  who : Option CmdRef
deriving DecidableEq, Repr

/-- A firmware operation under way (R509, R510): 1 WRITE, 2 SELECT, 3 ACTIVATE. -/
structure FwOp where
  op : Nat
  slot : Nat
deriving DecidableEq, Repr

/-- The firmware slots (R507 to R510): preferred and running slot, accepted at their last check, contents, and the
minimum security version in fuses beyond the one of the device. -/
structure Fwm where
  pref : Nat := 0
  run : Nat := 0
  ok0 : Bool := false
  ok1 : Bool := false
  slots : SMap (List Byte) := []
  secMin : Nat := 0
deriving DecidableEq, Repr

/-- The reset controller and the mode. -/
structure Top where
  mode : Mode := .cold
  prev : Mode := .cold
  modeGtc : Nat := 0
  /-- GTC at which the races and slices last began to run (R239). -/
  resumeGtc : Nat := 0
  /-- Mode before HALT (R636), and before COMMIT (R586). -/
  preHalt : Mode := .ready
  /-- The start under way is a cold one (R500, R501). -/
  coldStart : Bool := true
  /-- The start under way ends in SAFE, with the cause of R517. -/
  endSafe : Bool := false
  safeCause : Nat := 0
  /-- GTC of the accepted warm resets of the storm window (R499). -/
  storm : List Nat := []
  escalated : Bool := false
  /-- Resonator failed (0, 1), and the backup oscillator drives (R498). -/
  resFail0 : Bool := false
  resFail1 : Bool := false
  backup : Bool := false
  blk : Option BlkReset := none
  fw : Option FwOp := none
  fwStatus : Nat := 0
  fwm : Fwm := {}
  /-- RST_N held low long enough to restart a cold start (R495). -/
  rstHeld : Bool := false
  /-- VIN12 has risen through 10.8 V and not fallen since; it has been below 9.0 V. -/
  vinUp : Bool := true
  vinLow : Bool := false
  /-- Power-fail commit: a cold reset follows when power goes (R583 to R586). -/
  pfail : Bool := false
  trimFails : Nat := 0
  /-- Isolated blocks (R564): kind as R515 (5: a cluster), index. -/
  isolated : List (Nat × Nat) := []
deriving DecidableEq, Repr

/-! ### The event recorder and the host side of interrupts (R474, R475, R539 to R549) -/

/-- An event record before it is laid out in bytes (R539). -/
structure EvRec where
  src : Nat
  code : Nat
  detail : Nat
  gtc : Nat
  rep : Nat := 0
  secs : Nat := 0
  pcyc : Nat := 0
  held : Bool := false
  commit : Bool := false
deriving DecidableEq, Repr

/-- The recorder: rings, input queue, freezes, operating time. -/
structure Evr where
  fault : SMap EvRec := []
  faultNext : Nat := 0
  /-- EVR_FAULT_NEXT at the current start (R542). -/
  startNext : Nat := 0
  sec : List EvRec := []
  hold : List EvRec := []
  inq : List EvRec := []
  /-- Freeze of each partition: GTC of its EVR_FREEZE plus 1, 0 none (R546). -/
  freeze : SMap Nat := []
  /-- GTC since which the ring has been frozen without a break, plus 1. -/
  frozenSince : Nat := 0
  alarmFill : Bool := false
  alarmRef : Bool := false
  optime : Nat := 0
  pcyc : Nat := 0
  /-- Index of the free values that make EVR_CLR_NONCE. -/
  nonce : Nat := 0
deriving DecidableEq, Repr

/-! ### The Hopper (R320 to R351) -/

/-- The state word of a cell or a page (R323). -/
structure CellSt where
  ref : Nat := 0
  gen : Nat := 0
  ownp : Nat := 0
  host : Bool := false
  quar : Bool := false
  head : Bool := false
  next : Nat := 0
  owner : Nat := 0
deriving DecidableEq, Repr

/-- What an owner holds (R325, R357): cells u, of them h in headroom, pages, pause in force (R329). -/
structure OwnerUse where
  u : Nat := 0
  h : Nat := 0
  pages : Nat := 0
  pause : Bool := false
deriving DecidableEq, Repr

/-- Who asks the Hopper for cells. -/
inductive ReqFor where
  | frame (pkt : Nat)
  /-- BUF_ALLOC of `n` cells (R332, R348), with its LEN, SRCADDR and RESADDR. -/
  | alloc (c : CmdRef) (n len src res : Nat)
  /-- The next descriptor of a transmit ring (R473), and a keepalive timer that has fired (R157). -/
  | hostTx (part ring : Nat)
  | keepalive (race timer : Nat)
deriving DecidableEq, Repr

/-- A request for cells (R327, R332), decided in key order (R331). -/
structure CellReq where
  key : Nat
  owner : Nat
  who : ReqFor
deriving DecidableEq, Repr

/-- The Hopper. Free cells and pages are runs (first, count), oldest first (log 18). -/
structure Hop where
  ring : List (Nat × Nat) := [(0, 786432)]
  caches : SMap (List (Nat × Nat)) := []
  cells : SMap CellSt := []
  own : SMap OwnerUse := []
  quarCells : Nat := 0
  quarPages : Nat := 0
  reqs : List CellReq := []
  /-- Packets whose Sluice has been refused a cell and has yet to drop them (R333). -/
  nocell : List Nat := []
  /-- Pause frames the ports are to send: port, class, time (R329, R414). -/
  pauseTx : List (Nat × Nat × Nat) := []
  /-- Decrements on their way: head cell and GEN (R336). -/
  rel : List (Nat × Nat) := []
  pageRing : List (Nat × Nat) := [(0, 8388608)]
  /-- Place in DRAM of the entry at the head of the page ring (R322). -/
  pageHead : Nat := 0
  pageCache : List (Nat × Nat) := []
  pages : SMap CellSt := []
deriving DecidableEq, Repr

/-! ### Network time (R422 to R437) -/

/-- What has been written to the PTP time counter and not yet applied (R423). -/
inductive PtpChange where
  | rate (r : Int)
  | step (ns : Int)
  | set (secs ns : Nat)
deriving DecidableEq, Repr

/-- A timestamp queue entry (R429, R448). -/
structure TsqEntry where
  id : Nat
  port : Nat
  dropped : Bool := false
  secs : Nat := 0
  ns : Nat := 0
deriving DecidableEq, Repr

/-- The PTP time counter and the time pins. `total` is the PTP time in units of 2^-58 ns as it stood at GTC `at_`. -/
structure Ptp where
  total : Nat := 0
  at_ : Nat := 0
  /-- RATE in force, signed, in units of 2^-56. -/
  rate : Int := 0
  /-- Changes with the GTC of their writes. -/
  pend : List (Nat × PtpChange) := []
  set_ : Bool := false
  steps : Nat := 0
  lastStep : Nat := 0
  /-- Timestamp queues by partition, and what the last pop latched. -/
  tsq : SMap (List TsqEntry) := []
  tsqLast : SMap (Nat × Nat) := []
  /-- PPS_IN: last capture (total, GTC plus 1), count. -/
  ppsTotal : Nat := 0
  ppsGtc : Nat := 0
  ppsCnt : Nat := 0
  /-- PPS_OUT: whole second of the last edge plus 1, its GTC, its time of day still to send. -/
  ppsSec : Nat := 0
  ppsOutGtc : Nat := 0
  todDue : Bool := false
  /-- Messages that have left on TOD_TXD, and the last one received on TOD_RXD with its GTC (R436, R437). -/
  todSent : List (List Byte) := []
  todRx : Option (List Byte × Nat) := none
  todBad : Nat := 0
  /-- EEC: STATE of PTP_EEC_STAT (R449). -/
  eec : Nat := 0
deriving DecidableEq, Repr

/-! ### Exact-match tables (R267, R268) -/

/-- An entry of an exact-match table. -/
structure EmEntry where
  valid : Bool := false
  key : Word64 := 0
  type : Nat := 0
  static : Bool := false
  epoch : Bool := false
  part : Nat := 0
  port : Nat := 0
  age : Nat := 0
  data : Nat := 0
deriving DecidableEq, Repr

/-! ### Command rings (R459 to R466) -/

/-- Bookkeeping of a command ring: completions written since it was enabled, and the foreground command that runs. -/
structure CmdRing where
  done : Nat := 0
  fg : Option CmdRef := none
deriving DecidableEq, Repr

/-- An ATTEST under way (R469). -/
structure Attest where
  ref : CmdRef
  nonce : Nat
  res : Nat
deriving DecidableEq, Repr

/-- A transmit descriptor taken and not yet written back: its position, STATUS once decided, IRQ (R473). -/
structure TxSlot where
  pos : Nat
  status : Option Nat
  irq : Bool
deriving DecidableEq, Repr

/-- The host side beside its registers: rings (key 4 p + i), accepted background commands, ATTEST, and the
partitions whose partition reset runs (R482) with its phase: 1 until its registers are reset, 2 until the link is up. -/
structure HostS where
  rings : SMap CmdRing := []
  bg : List CmdRef := []
  attests : List Attest := []
  preset : SMap Nat := []
  /-- GTC at which the partition reset began, and PERST_N[p] held low. -/
  presetAt : SMap Nat := []
  perst : SMap Bool := []
  /-- Resets of a partition that have begun, and HST_LINK.RESETS. -/
  epoch : SMap Nat := []
  resets : SMap Nat := []
  /-- Transmit descriptors taken and not written back, by ring, oldest first; rings that wait for cells (R334). -/
  txs : SMap (List TxSlot) := []
  txWait : List Nat := []
  /-- Contents of host buffers by handle (R348). -/
  bufs : SMap (List Byte) := []
  /-- Transmit descriptors whose memory has been read: partition * 64 + ring, position (R473). -/
  txDone : List (Nat × Nat) := []
  /-- Handles of a reset partition's buffers still to be returned (R482 step 4). -/
  retDue : SMap (List Nat) := []
deriving DecidableEq, Repr

/-! ### Millstone (R212 to R254) -/

/-- An index entry (R218). -/
structure FEntry where
  valid : Bool := false
  fp : Nat := 0
  idx : Nat := 0
  pers : Bool := false
  own : Nat := 0
  epoch : Bool := false
deriving DecidableEq, Repr

/-- A run of free record indices with the GTC of their deletion, none for indices never in use (R229). -/
structure FreeRun where
  first : Nat
  count : Nat
  freed : Option Nat
deriving DecidableEq, Repr

/-- A home slice (R212, R225 to R239). Caches: set to (name, dirty), most recently used first (R233, R234). -/
structure Slice where
  free : List FreeRun
  v : Nat := 0
  queue : List FlowOp := []
  /-- Operations held at their clusters by a full miss queue (R236). -/
  held : List FlowOp := []
  /-- Operations waiting for the journal (R247). -/
  jwait : List FlowOp := []
  recCache : SMap (List (Nat × Bool)) := []
  idxCache : SMap (List (Nat × Bool)) := []
  /-- Sweeper: start of the current pass plus 1 (0: none), and the next offset to visit (R239). -/
  pass : Nat := 0
  next : Nat := 0
  /-- Buckets marked failed, and those of them that the running pass rebuilds (R232). -/
  failed : List Nat := []
  rebuild : List Nat := []
deriving DecidableEq, Repr

/-- A journal entry (R249): the fields of its image, and the CRC-32C stored behind them. -/
structure JEntry where
  type : Nat
  word : Nat := 0
  idx : Nat := 0
  seq : Nat := 0
  a : Word64 := 0
  b : Word64 := 0
  c : List Word64 := []
  crc : Word32 := 0
deriving DecidableEq, Repr

/-- A checkpoint image (R250). -/
structure Image where
  key : List Word64
  xlate : Word64
  idx : Nat
  own : Nat
  dom : Nat
  flags : Nat
deriving DecidableEq, Repr

/-- A checkpoint under way (R251): its area, S0, and the reads that have yet to write their image. -/
structure Ckpt where
  area : Nat
  s0 : Nat
  reads : Nat := 0
deriving DecidableEq, Repr

/-- The journal (R246 to R252): tail buffer, ring in nonvolatile memory, the two checkpoint areas. -/
structure Journal where
  tail : List JEntry := []
  ring : List JEntry := []
  seq : Nat := 0
  area : Nat := 0
  area0 : List Image := []
  area1 : List Image := []
  ckpt : Option Ckpt := none
deriving DecidableEq, Repr

/-- A FLOW_FLUSH_PORT under way (R290), with the slices whose pass tests for it and those that have done. -/
structure Flush where
  ref : CmdRef
  pers : Bool
  dom : Option Nat
  keyoff : Nat
  value : Nat
  mask : Nat
  at_ : Nat
  deleted : Nat := 0
  kept : Nat := 0
  active : List Nat := []
  done : List Nat := []
deriving DecidableEq, Repr

/-- Millstone: slices, index entries, record words (key index * 16 + word), quotas in use, journal, export ring
sequence numbers, flushes by partition, and load-balancer slots (R308). -/
structure Mst where
  slices : SMap Slice := []
  index : SMap FEntry := []
  recs : SMap Word64 := []
  held : SMap Nat := []
  pheld : SMap Nat := []
  jnl : Journal := {}
  expSeq : SMap Nat := []
  flush : SMap (Option Flush) := []
  lb : SMap Word64 := []
  /-- Records and buckets (slice * 2^20 + bucket) whose next read finds an uncorrectable error (R232, R562). -/
  eccRec : List Nat := []
  eccBkt : List Nat := []
deriving DecidableEq, Repr

/-! ### Walks and learning (R282 to R288, R292, R294) -/

/-- A walk of a partition on a table (R283 to R285). -/
structure Walk where
  cursor : Nat := 0
  /-- GTC of the last NEXT or FLOW_NEXT, or of WALK_START. -/
  last : Nat := 0
  /-- Pickup queues: (slice, or 0 for a table; item). -/
  pickup : List (Nat × List Byte) := []
deriving DecidableEq, Repr

/-- Walks and epochs, key p * 32 + table, restamps under way, and learn ring sequence numbers. -/
structure Walks where
  run : SMap (Option Walk) := []
  epoch : SMap Bool := []
  restamp : SMap Bool := []
  learnSeq : SMap Nat := []
deriving DecidableEq, Repr

/-! ### The Weir (R382, R383) -/

/-- A meter: buckets in units of 1/16 B, LAST, PROFILE. -/
structure Meter where
  te : Nat := 0
  tc : Nat := 0
  last : Nat := 0
  prof : Nat := 0
deriving DecidableEq, Repr

/-! ### Queues and ports (R359 to R381, R405 to R418) -/

/-- The levels of a shaped node, in units of 1/32 000 000 B, as they stood at GTC `at_` (R369). -/
structure Level where
  c : Int := 0
  p : Int := 0
  at_ : Nat := 0
deriving DecidableEq, Repr

/-- Queue statistics (R386, R387, R395). -/
structure QStat where
  dmin : Nat := 0xFFFFFFFF
  dmax : Nat := 0
  sdepth : Nat := 0
  ssoj : Nat := 0
  deq : Nat := 0
  bins : SMap Nat := []
deriving DecidableEq, Repr

/-- A queue: descriptors in order, depth D in bytes, the open page of its spill and the bytes used of it, the
credit of its credit-based shaper in units of 1/32 000 000 B at GTC `crAt` (R372). -/
structure Queue where
  fifo : List Desc := []
  depth : Nat := 0
  openPage : Option (Nat × Nat) := none
  credit : Int := 0
  crAt : Nat := 0
  stat : QStat := {}
deriving DecidableEq, Repr

/-- An entry of a gate list (R374): interval in ns, gates, OP. -/
structure GateEnt where
  interval : Nat
  gates : Nat
  op : Nat
deriving DecidableEq, Repr

/-- A gate control list as it was committed (R374, R378). -/
structure GateList where
  en : Bool := false
  cycle : Nat := 0
  baseSec : Nat := 0
  baseNs : Nat := 0
  ents : List GateEnt := []
deriving DecidableEq, Repr

/-- A frame, or the fragment of one, in transmission. `frame` is what leaves, stamps written; `len` is L. `sent` bytes
of it left in earlier fragments; this fragment started at GTC `from_` and is over at `until_`. -/
structure Tx where
  d : Desc
  frame : List Byte
  len : Nat
  express : Bool
  start : Nat
  sent : Nat := 0
  from_ : Nat
  until_ : Nat
  /-- Transmit stamp in PTP time: seconds, nanoseconds (R420). -/
  stampS : Nat
  stampNs : Nat
  /-- Close of the class's window in PTP units, 0 none; exempt from the checker (R381). -/
  close : Nat := 0
  /-- Bytes of a fragment that a close ends, none for what runs to the frame's end (R377). -/
  piece : Option Nat := none
  /-- Its end-to-end CRC-32C check has failed (R20). -/
  crcBad : Bool := false
deriving DecidableEq, Repr

/-- A frame in reception, and its packet once the Sluice has one. -/
structure RxFrame where
  bytes : List Byte
  pkt : Option Nat
deriving DecidableEq, Repr

/-- A port: link, preemption, transmission, pauses, gates. -/
structure PortS where
  link : Bool := false
  /-- ALIGN, FECLK, LF, RF of PORT_STATUS. -/
  pcs : BitVec 4 := 0
  linkDn : Nat := 0
  /-- PRE of R444, verify attempts made, GTC of the last. -/
  pre : Nat := 0
  tries : Nat := 0
  verAt : Nat := 0
  rxE : Option RxFrame := none
  rxP : Option RxFrame := none
  tx : Option Tx := none
  susp : Option Tx := none
  /-- Queue of the packet selected and not yet started (R368). -/
  sel : Option Nat := none
  /-- Queue the subscriber tier has selected (R376). -/
  tier : Option Nat := none
  /-- The line is busy until this GTC. -/
  busy : Nat := 0
  hold : Bool := false
  op : GateList := {}
  pend : Option GateList := none
  /-- T_change of the pending or last switched list, in ns of PTP time (R403). -/
  chg : Nat := 0
  /-- T_change of the last switched list, which CHG shows again when a pending one is discarded. -/
  lastChg : Nat := 0
  /-- PTP time in ns at which the operating list's current run of cycles began, or begins (R380). -/
  runAt : Nat := 0
  /-- Cycle, entry and gates in force, as the last GATE_ENTRY_ADVANCE left them. -/
  cyc : Nat := 0
  ent : Nat := 0
  gates : Nat := 255
  /-- The first entry of the current run of cycles is in force, or has been. -/
  started : Bool := false
  /-- The list waits to restart after a PTP step or a warm reset (R380). -/
  restart : Bool := false
  /-- Openings in a row that a class's head did not fit (R379): class to (packet or queue mark, count). -/
  oversize : SMap (Option (Nat × Nat)) := []
  /-- Received pauses: class to GTC of the end (R415). -/
  rxPause : SMap Nat := []
  /-- Pauses this port keeps up: class to GTC of the last frame sent plus 1 (R414). -/
  txPause : SMap Nat := []
deriving DecidableEq, Repr

/-- What left at a port: the frame without FCS, and whether its FCS was right (log 45). -/
structure Sent where
  port : Nat
  frame : List Byte
  ok : Bool
  /-- For an IEEE 802.1Qbb frame: its classes with their times (R414). -/
  pfc : List (Nat × Nat) := []
deriving DecidableEq, Repr

/-- Module management of an octet (R418, R445): a transaction under way and since when, the pins. -/
structure ModS where
  run : Bool := false
  since : Nat := 0
  /-- MOD_PRS_N, MOD_INT_N are low. -/
  prs : Bool := false
  int : Bool := false
  status : Nat := 0
deriving DecidableEq, Repr

/-- Tailraces, ports and modules. Levels, key kind * 2^20 + number (0 queue, 1 subscriber, 2 group), none where the
node is unshaped; deficits by child (kind 3: the tier of a port), and the turn of each scheduler. -/
structure Egress where
  queues : SMap Queue := []
  levels : SMap (Option Level) := []
  deficit : SMap Nat := []
  turn : SMap Nat := []
  ports : SMap PortS := []
  sent : List Sent := []
  mods : SMap ModS := []
deriving DecidableEq, Repr

/-! ### The counter collector (R523 to R538) -/

/-- Settings of a dump stream (R531). -/
structure DumpCfg where
  loc : Bool := false
  irq : Bool := false
  period : Nat := 0
  base : Nat := 0
  pages : List Nat := []
deriving DecidableEq, Repr

/-- A dump stream: its settings, GTC at which dump 1 is due, next dump, last one completed, dumps skipped, and the
dump being written: its number, its settings, and the GTC of its start (R533). -/
structure Stream where
  en : Bool := false
  cfg : DumpCfg := {}
  first : Nat := 0
  next : Nat := 1
  seq : Nat := 0
  skipped : Nat := 0
  run : Option (Nat × DumpCfg × Nat) := none
deriving DecidableEq, Repr

/-- A pending SNAPSHOT (R535): MODE, AT, DEST, and the command. -/
structure Snap where
  mode : Nat
  at_ : Nat
  dest : Nat
  ref : CmdRef
deriving DecidableEq, Repr

/-- The collector: streams (key 2 p + s), the pending SNAPSHOT, the AT of the last one, the counter window in force
(R527), and the counters whose occupancy exceeded N in the last island cycle (R525). -/
structure Coll where
  streams : SMap Stream := []
  snap : Option Snap := none
  lastAt : Nat := 0
  winStart : Nat := 0xFFFFFFFFFFFFFFFF
  winStop : Nat := 0xFFFFFFFFFFFFFFFF
  above : SMap Bool := []
deriving DecidableEq, Repr

/-! ### Safety, ageing, SMBus (R559 to R597, R615, R616) -/

/-- A reaction C or D the safety monitor has decided on and not yet applied (R563): the event code behind it, and the
block of R564 that C isolates (5 for a cluster, else as R515). -/
structure Due where
  blockReaction : Bool
  code : Nat
  kind : Nat := 0
  index : Nat := 0
deriving DecidableEq, Repr

/-- The safety monitor and the timed duties of Windshaft: heartbeat results of the running period by engine (1 right,
2 wrong), engines excused in it, excused misses in a row, and GTC of the last check, alive count, operating-time
write, power update and measurement round (plus 1); CRC failures by Tailrace in the last 1 ms; swaps due. -/
structure Saf where
  hb : SMap Nat := []
  excused : List Nat := []
  missed : SMap Nat := []
  hbAt : Nat := 0
  aliveAt : Nat := 0
  optAt : Nat := 0
  powerAt : Nat := 0
  ageAt : Nat := 0
  crc : SMap (List Nat) := []
  swapDue : List (Nat × Nat) := []
  /-- ARG of each activity's last start. -/
  maintArg : SMap Nat := []
  /-- GTC of Windshaft's last start, or refused start, of an activity. -/
  autoAt : SMap Nat := []
  /-- The working trim copy where re-plans have changed it: island to voltage * 2048 + clock (R505). -/
  trim : SMap Nat := []
  /-- Reactions still to be applied (R563). -/
  due : List Due := []
deriving DecidableEq, Repr

/-- The SMBus target (R615, R616): LATCH, MASK, ALERT_N low, GTC plus 1 since which VIN12 is out of range (2^64 once
the alert has been given), whether TJMAX was above TALERT at the last update, and the bytes the last read returned. -/
structure Smb where
  latch : Nat := 0
  mask : Nat := 0x3F
  alert : Bool := false
  vinSince : Nat := 0
  hot : Bool := false
  out : Nat := 0
deriving DecidableEq, Repr

/-! ### The Eosta debug port (R620 to R644) -/

/-- A device HALT or resume asked for (R635, R636): enter, AT. -/
structure HaltReq where
  enter : Bool
  at_ : Nat
deriving DecidableEq, Repr

/-- The debug port: level, challenge with its GTC, failed unlocks in a row, operating second at which the lockout
ends, the USER digest programmed, a write made through the access port in this session, the TAP instruction and
whether it drives pins, what its data register captured, the last EACC access (STATUS, ADDR, DATA), and STATUS
fields. -/
structure Dbg where
  level : Nat := 0
  chal : Option (List Byte × Nat) := none
  fails : Nat := 0
  lockEnd : Option Nat := none
  user : Option (List Byte) := none
  wrote : Bool := false
  ir : Nat := 1
  pins : Bool := false
  dr : Nat := 0
  eStatus : Nat := 0
  eAddr : Nat := 0
  eData : Nat := 0
  halt : Option HaltReq := none
  /-- The device HALT in force was started by this session. -/
  mine : Bool := false
  uStatus : Nat := 0
  apStatus : Nat := 0
  thrStatus : Nat := 0
  haltStatus : Nat := 0
  resetStatus : Nat := 0
deriving DecidableEq, Repr


/-- The whole block. `pending` is the queue of waiting commands, first in, first out. -/
structure State where
  pending : List Instr
  clk : Clk
  top : Top
  /-- Register words by global address: the RW words and the staging copies of RWS words. -/
  regs : SMap Word32
  /-- The committed set of RWS words (R477). -/
  committed : SMap Word32
  /-- 48-bit saturating counters by address. -/
  cnt : SMap Nat
  /-- Read latches of 64-bit registers: key reader * 2^28 + address (R10). -/
  latch : SMap Word32
  mems : Mems
  threads : SMap Thread
  clusters : SMap Cluster
  races : SMap Race
  cls : Cls
  ucs : Ucs
  comps : List Completion
  nextTask : Nat
  pkts : SMap Packet
  nextPkt : Nat
  rx : List RxItem
  evr : Evr
  msix : List (Nat × Nat)
  link : SMap Bool
  hop : Hop
  weirq : List MeterOp
  ptp : Ptp
  em : SMap EmEntry
  host : HostS
  mst : Mst
  walks : Walks
  weir : SMap Meter
  /-- By meter: 1 plus the second of its last refresh (R385). -/
  refreshed : SMap Nat
  tab : SMap Word32
  eg : Egress
  coll : Coll
  saf : Saf
  smb : Smb
  dbg : Dbg
  rdata : SMap Word32
deriving DecidableEq, Repr

/-- Reasons the block stops. No command stops it. -/
inductive Fault where
  /-- Raised by nothing: what an engine does with a reserved encoding, which is undefined behaviour, lies within R484
      case 10, and free values say which of its effects it has (log 19). Safe. -/
  | reservedEncoding
deriving DecidableEq, Repr

/-- Reasons a command has no meaning in this model. -/
inductive Refusal where
  /-- Not modelled yet, by the row's mnemonic. Raised by Dispatch only. Safe. -/
  | notModelled (mnemonic : String)
deriving DecidableEq, Repr

/-- The block at the start of a POR cold start (R494, R500), before its clocks are valid (log 6). -/
def State.reset : State where
  pending := []
  clk := {}
  top := {}
  regs := []
  committed := []
  cnt := []
  latch := []
  mems := {}
  threads := []
  clusters := []
  races := []
  cls := {}
  ucs := {}
  comps := []
  nextTask := 0
  pkts := []
  nextPkt := 0
  rx := []
  evr := {}
  msix := []
  link := []
  hop := {}
  weirq := []
  ptp := {}
  em := []
  host := {}
  mst := {}
  walks := {}
  weir := []
  refreshed := []
  tab := []
  eg := {}
  coll := {}
  saf := {}
  smb := {}
  dbg := {}
  rdata := []

end Sys2Proof.Machine
end

