-- ==== Sys2Proof/Machine/Ops.lean ====
section
/-! DEFINITION. The operations the meanings share: sparse maps, bytes, register words and counters. -/

namespace Sys2Proof.Machine

open Sys2Proof

/-! ### Sparse maps -/

/-- The value at a key; `d` gives the value of an unlisted key. -/
def mget {α : Type} (d : Nat → α) : SMap α → Nat → α
  | [], k => d k
  | (j, v) :: m, k => if j = k then v else mget d m k

/-- Put an entry before the first larger key. -/
def minsert {α : Type} (k : Nat) (v : α) : SMap α → SMap α
  | [] => [(k, v)]
  | (j, w) :: m => if k < j then (k, v) :: (j, w) :: m else (j, w) :: minsert k v m

def merase {α : Type} (m : SMap α) (k : Nat) : SMap α :=
  m.filter (fun e => e.1 ≠ k)

/-- Write a key: the default value is not listed. -/
def mset {α : Type} [DecidableEq α] (d : Nat → α) (m : SMap α) (k : Nat) (v : α) : SMap α :=
  if v = d k then merase m k else minsert k v (merase m k)

/-- Keys strictly rising from `lo` on. -/
def risingFrom {α : Type} : Nat → SMap α → Bool
  | _, [] => true
  | lo, (k, _) :: m => decide (lo ≤ k) && risingFrom (k + 1) m

/-- The canonical form: keys strictly rising, no entry equal to its default. -/
def SMapWf {α : Type} [DecidableEq α] (d : Nat → α) (m : SMap α) : Bool :=
  risingFrom 0 m && m.all (fun e => decide (e.2 ≠ d e.1))

/-! ### Bytes and words -/

/-- An unlisted byte reads 0 (log 11, 12, 13). -/
def byte0 : Nat → Byte := fun _ => 0

def getByte (m : Mem) (a : Nat) : Byte := mget byte0 m a
def setByte (m : Mem) (a : Nat) (b : Byte) : Mem := mset byte0 m a b

/-- The canonical form of a byte memory. -/
def Memory.wf (m : Mem) : Bool := SMapWf byte0 m

def getBytes (m : Mem) (a : Nat) : Nat → List Byte
  | 0 => []
  | n + 1 => getByte m a :: getBytes m (a + 1) n

def setBytes (m : Mem) (a : Nat) : List Byte → Mem
  | [] => m
  | b :: bs => setBytes (setByte m a b) (a + 1) bs

/-- The little-endian number of a byte list. -/
def leNat : List Byte → Nat
  | [] => 0
  | b :: bs => b.toNat + 256 * leNat bs

/-- The big-endian number of a byte list. -/
def beNat (l : List Byte) : Nat := l.foldl (fun a b => a * 256 + b.toNat) 0

/-- The `n` little-endian bytes of a number. -/
def leBytes : Nat → Nat → List Byte
  | 0, _ => []
  | n + 1, v => BitVec.ofNat 8 v :: leBytes n (v / 256)

def beBytes (n v : Nat) : List Byte := (leBytes n v).reverse

/-- Little-endian number of `n` bytes at `a`. -/
def memLe (m : Mem) (a n : Nat) : Nat := leNat (getBytes m a n)

def setLe (m : Mem) (a n v : Nat) : Mem := setBytes m a (leBytes n v)

/-- Bits `lo` to `lo + w - 1` of a number. -/
def bitsOf (v lo w : Nat) : Nat := v / 2 ^ lo % 2 ^ w

def bitOf (v i : Nat) : Bool := v / 2 ^ i % 2 = 1

/-- `v` with bits `lo` to `lo + w - 1` replaced by `x`. -/
def putBits (v lo w x : Nat) : Nat :=
  v - bitsOf v lo w * 2 ^ lo + x % 2 ^ w * 2 ^ lo

/-- Numbers from 0 to n - 1. -/
def upTo (n : Nat) : List Nat := List.range n

def natBool (b : Bool) : Nat := if b then 1 else 0

/-! ### Sparse word stores -/

def zero32 : Nat → Word32 := fun _ => 0
def zero64 : Nat → Word64 := fun _ => 0
def zeroN : Nat → Nat := fun _ => 0

end Sys2Proof.Machine
end

