-- ==== Sys2Proof/Machine/Checksums.lean ====
section
/-! DEFINITION. Checksums, CRCs and the hash hk of the manual, over byte lists. -/

namespace Sys2Proof.Machine

open Sys2Proof

/-- One bit of a reflected CRC: the register moves right, and the polynomial acts when a 1 falls out. -/
def crcBit (poly : Word32) (c : Word32) : Word32 :=
  if c.getLsbD 0 then (c >>> 1) ^^^ poly else c >>> 1

def crcBits (poly : Word32) : Nat → Word32 → Word32
  | 0, c => c
  | n + 1, c => crcBits poly n (crcBit poly c)

/-- A reflected CRC over bytes, each least significant bit first (R74). -/
def crcBytes (poly : Word32) (c : Word32) (l : List Byte) : Word32 :=
  l.foldl (fun c b => crcBits poly 8 (c ^^^ b.zeroExtend 32)) c

/-- CRC-32C register after `l` (R74). -/
def crc32c (c : Word32) (l : List Byte) : Word32 := crcBytes 0x82F63B78 c l
/-- CRC-32 of IEEE 802.3, the register after `l` (R74). -/
def crc32 (c : Word32) (l : List Byte) : Word32 := crcBytes 0xEDB88320 c l

/-- The standard CRC-32C: initial value all ones, final inversion (R83). -/
def crc32cStd (l : List Byte) : Word32 := ~~~ crc32c 0xFFFFFFFF l
def crc32Std (l : List Byte) : Word32 := ~~~ crc32 0xFFFFFFFF l

def crc16Bit (c : Half) : Half :=
  if c.getLsbD 15 then (c <<< 1) ^^^ 0x1021 else c <<< 1

def crc16Bits : Nat → Half → Half
  | 0, c => c
  | n + 1, c => crc16Bits n (crc16Bit c)

/-- CRC-16 of R539: polynomial 0x1021, initial value 0xFFFF, no final inversion. -/
def crc16 (l : List Byte) : Half :=
  l.foldl (fun c b => crc16Bits 8 (c ^^^ ((BitVec.zeroExtend 16 b : Half) <<< 8))) 0xFFFF

/-- Fold a sum to 16 bits in ones'-complement arithmetic. -/
def fold16 (n : Nat) : Nat :=
  let a := n % 65536 + n / 65536
  let b := a % 65536 + a / 65536
  b % 65536 + b / 65536

/-- The 16-bit big-endian words of a byte list, an odd last byte padded by a zero byte (R74). -/
def words16 : List Byte → List Nat
  | [] => []
  | [b] => [b.toNat * 256]
  | a :: b :: l => (a.toNat * 256 + b.toNat) :: words16 l

/-- Ones'-complement sum of the bytes added to `init`, folded. -/
def csumBytes (init : Nat) (l : List Byte) : Nat := fold16 (init + (words16 l).sum)

/-- The RFC 1624 update of R64: ~(~old + ~m + m'), with 16-bit parts of m and m'. -/
def csumAdjust (old m m' : Nat) (wide : Bool) : Nat :=
  let neg := fun x => 65535 - x % 65536
  let s :=
    if wide then neg (m / 65536) + neg m + m' / 65536 % 65536 + m' % 65536
    else neg m + m' % 65536
  neg (fold16 (neg old + s))

/-- mix of R214. -/
def mix (x0 : Word64) : Word64 :=
  let x := (x0 ^^^ (x0 >>> 31)) * 0xB86D27C50F13A4E9
  let y := (x ^^^ (x >>> 29)) * 0x94C35E1B6A7D2F31
  y ^^^ (y >>> 32)

def hkLoop : Word64 → List Byte → Nat → Word64
  | x, _, 0 => x
  | x, l, n + 1 => hkLoop (mix (x ^^^ BitVec.ofNat 64 (leNat (l.take 8)))) (l.drop 8) n

/-- hk of R214 over all of `l`. -/
def hk (seed : Word64) (p : Nat) (l : List Byte) : Word64 :=
  let x := seed ^^^ (BitVec.ofNat 64 p <<< 62) ^^^ BitVec.ofNat 64 l.length
  mix (hkLoop x l ((l.length + 7) / 8))

end Sys2Proof.Machine
end

