-- ==== Sys2Proof/Machine/Regs.lean ====
section
/-! DEFINITION. The registers of R652: where each word lies, which of its bits a write reaches and how, its
value after a cold reset, who may write and read it, and what a warm reset does to it. One row a register,
from the register tables of the chapters. -/

namespace Sys2Proof.Machine

open Sys2Proof

/-- Reset value of a word; the argument of the last two forms is the first array index. -/
inductive RegReset where
  | const (v : Nat)
  | part0 (a b : Nat)
  | below (n a b : Nat)
deriving DecidableEq, Repr

/-- One word of a register: the bits of access RW, W1C and RWS (R12), and its reset value. -/
structure RegWord where
  rw : Nat
  w1c : Nat
  rws : Nat
  rst : RegReset
deriving DecidableEq, Repr

/-- Who may write a register. -/
inductive WPerm where
  | w_any
  | w_cent
  | w_dbg
  | w_dom
  | w_mod
  | w_node
  | w_none
  | w_p0
  | w_part
  | w_partOr0
  | w_port
  | w_vd
deriving DecidableEq, Repr

/-- Who may read a register. -/
inductive RPerm where
  | r_dbg
  | r_glob
  | r_hop
  | r_mod
  | r_own
  | r_p0
  | r_part
  | r_port
  | r_seed
deriving DecidableEq, Repr

/-- What resets a register: a cold and a warm reset; a cold one only; none (nonvolatile); fuses at a cold one. -/
inductive Keep where
  | both
  | cold
  | nv
deriving DecidableEq, Repr

/-- Checks a write makes on its value, beside the masks. -/
inductive Valid where
  | any
  | v_agepol
  | v_cmdq
  | v_cntsel
  | v_dmaq
  | v_drain
  | v_dsub
  | v_freqout
  | v_malact
  | v_modeA
  | v_mstexp
  | v_ppsout
  | v_quiesce
  | v_reord
  | v_tring
deriving DecidableEq, Repr

/-- A stored word, a 48-bit counter, a value computed on a read, or a write-only word. -/
inductive RegKind where
  | word
  | counter
  | derived
  | writeOnly
deriving DecidableEq, Repr

structure RegRow where
  base : Nat
  dims : List (Nat × Nat)
  words : List RegWord
  wp : WPerm
  rp : RPerm
  keep : Keep
  valid : Valid
  kind : RegKind
deriving DecidableEq, Repr

/-- Peel the array indices off an offset: each dimension is (count, stride). -/
def peelDims : List (Nat × Nat) → Nat → Option (List Nat × Nat)
  | [], off => some ([], off)
  | (n, st) :: ds, off =>
    if off / st < n then
      match peelDims ds (off % st) with
      | some (is, r) => some (off / st :: is, r)
      | none => none
    else none

/-- Where an address falls in a row: array indices and word. -/
def RegRow.locate (r : RegRow) (a : Nat) : Option (List Nat × Nat) :=
  if a < r.base then none
  else
    match peelDims r.dims (a - r.base) with
    | some (is, off) => if off % 4 = 0 ∧ off / 4 < r.words.length then some (is, off / 4) else none
    | none => none

def RegReset.value : RegReset → List Nat → Nat
  | .const v, _ => v
  | .part0 a b, is => if is.headD 0 = 0 then a else b
  | .below n a b, is => if is.headD 0 < n then a else b

/-- TOP_MODE (R516). -/
def rowTopMode : RegRow :=
  ⟨0x00000000, [], [⟨0x0, 0x0, 0x0, (.const 0x0)⟩], .w_none, .r_glob, .both, .any, .derived⟩

/-- TOP_STATUS (R517). -/
def rowTopStatus : RegRow :=
  ⟨0x00000004, [], [⟨0x0, 0x0, 0x0, (.const 0x0)⟩], .w_none, .r_glob, .cold, .any, .word⟩

/-- TOP_MODE_GTC (R516). -/
def rowTopModeGtc : RegRow :=
  ⟨0x00000008, [], [⟨0x0, 0x0, 0x0, (.const 0x0)⟩, ⟨0x0, 0x0, 0x0, (.const 0x0)⟩], .w_none, .r_glob, .both, .any, .derived⟩

/-- TOP_GTC (R23). -/
def rowTopGtc : RegRow :=
  ⟨0x00000010, [], [⟨0x0, 0x0, 0x0, (.const 0x0)⟩, ⟨0x0, 0x0, 0x0, (.const 0x0)⟩], .w_none, .r_glob, .both, .any, .derived⟩

/-- TOP_OUTCTL (R518). -/
def rowTopOutctl : RegRow :=
  ⟨0x00000020, [], [⟨0x3, 0x0, 0x0, (.const 0x0)⟩], .w_p0, .r_p0, .both, .v_modeA, .word⟩

/-- TOP_FW_CTL (R519). -/
def rowTopFwCtl : RegRow :=
  ⟨0x00000100, [], [⟨0x70000001, 0x0, 0x0, (.const 0x0)⟩], .w_p0, .r_p0, .both, .any, .word⟩

/-- TOP_FW_ADDR (R519). -/
def rowTopFwAddr : RegRow :=
  ⟨0x00000108, [], [⟨0xFFFFFFFF, 0x0, 0x0, (.const 0x0)⟩, ⟨0xFFFFFFFF, 0x0, 0x0, (.const 0x0)⟩], .w_p0, .r_p0, .both, .any, .word⟩

/-- TOP_FW_LEN (R519). -/
def rowTopFwLen : RegRow :=
  ⟨0x00000110, [], [⟨0xFFFFFFFF, 0x0, 0x0, (.const 0x0)⟩], .w_p0, .r_p0, .both, .any, .word⟩

/-- TOP_FW_STAT (R519). -/
def rowTopFwStat : RegRow :=
  ⟨0x00000114, [], [⟨0x0, 0x0, 0x0, (.const 0x0)⟩], .w_none, .r_p0, .both, .any, .derived⟩

/-- TOP_PWR (R617). -/
def rowTopPwr : RegRow :=
  ⟨0x00000200, [], [⟨0x0, 0x0, 0x0, (.const 0x0)⟩, ⟨0x0, 0x0, 0x0, (.const 0x0)⟩, ⟨0x0, 0x0, 0x0, (.const 0x0)⟩, ⟨0x0, 0x0, 0x0, (.const 0x0)⟩], .w_none, .r_p0, .both, .any, .word⟩

/-- TOP_TALERT (R618). -/
def rowTopTalert : RegRow :=
  ⟨0x00000210, [], [⟨0xFFFF, 0x0, 0x0, (.const 0x4E2)⟩], .w_p0, .r_p0, .cold, .any, .word⟩

/-- TOP_IOCFG (R618). -/
def rowTopIocfg : RegRow :=
  ⟨0x00000214, [], [⟨0x3, 0x0, 0x0, (.const 0x0)⟩], .w_p0, .r_p0, .cold, .any, .word⟩

/-- RST_CAUSE (R520). -/
def rowRstCause : RegRow :=
  ⟨0x00100000, [], [⟨0x0, 0x3FF, 0x0, (.const 0x1)⟩], .w_p0, .r_glob, .cold, .any, .word⟩

/-- RST_QUIESCE_TMO (R521). -/
def rowRstQuiesceTmo : RegRow :=
  ⟨0x00100004, [], [⟨0xFFFF, 0x0, 0x0, (.const 0xC8)⟩], .w_p0, .r_p0, .both, .v_quiesce, .word⟩

/-- RST_STORM (R521). -/
def rowRstStorm : RegRow :=
  ⟨0x00100008, [], [⟨0x0, 0x0, 0x0, (.const 0x0)⟩], .w_none, .r_p0, .both, .any, .derived⟩

/-- RST_CNT (R522). -/
def rowRstCnt : RegRow :=
  ⟨0x00100100, [(10, 0x8)], [⟨0x0, 0x0, 0x0, (.const 0x0)⟩, ⟨0x0, 0x0, 0x0, (.const 0x0)⟩], .w_none, .r_p0, .cold, .any, .counter⟩

/-- RST_BLK_DROP (R522). -/
def rowRstBlkDrop : RegRow :=
  ⟨0x00100200, [], [⟨0x0, 0x0, 0x0, (.const 0x0)⟩, ⟨0x0, 0x0, 0x0, (.const 0x0)⟩], .w_none, .r_p0, .cold, .any, .counter⟩

/-- UCS_CFG (R132). -/
def rowUcsCfg : RegRow :=
  ⟨0x00200000, [(192, 0x4)], [⟨0x0, 0x0, 0x0, (.const 0x0)⟩], .w_none, .r_glob, .both, .any, .word⟩

/-- UCS_MODE_NEXT (R133). -/
def rowUcsModeNext : RegRow :=
  ⟨0x00200400, [(6, 0x4)], [⟨0xFFFFFFFF, 0x0, 0x0, (.const 0x0)⟩], .w_p0, .r_glob, .nv, .any, .word⟩

/-- UCS_PATCH_VERSION (R134). -/
def rowUcsPatchVersion : RegRow :=
  ⟨0x00200800, [(192, 0x4)], [⟨0x0, 0x0, 0x0, (.const 0x0)⟩], .w_none, .r_glob, .both, .any, .word⟩

/-- UCS_PATCH_STATUS (R135). -/
def rowUcsPatchStatus : RegRow :=
  ⟨0x00200C00, [], [⟨0x0, 0x0, 0x0, (.const 0xFF00)⟩], .w_none, .r_glob, .both, .any, .word⟩

/-- UCS_PATCH_STAGED (R136). -/
def rowUcsPatchStaged : RegRow :=
  ⟨0x00200C04, [], [⟨0x0, 0x0, 0x0, (.const 0x0)⟩], .w_none, .r_glob, .both, .any, .word⟩

/-- UCS_ROM_VERSION (R137). -/
def rowUcsRomVersion : RegRow :=
  ⟨0x00200C08, [], [⟨0x0, 0x0, 0x0, (.const 0x0)⟩], .w_none, .r_glob, .both, .any, .derived⟩

/-- UCS_DRAIN_TMO (R138). -/
def rowUcsDrainTmo : RegRow :=
  ⟨0x00200C0C, [], [⟨0xFFFF, 0x0, 0x0, (.const 0x19)⟩], .w_p0, .r_glob, .both, .v_drain, .word⟩

/-- UCS_STEST (R139). -/
def rowUcsStest : RegRow :=
  ⟨0x00201000, [(192, 0x4)], [⟨0x0, 0x0, 0x0, (.const 0x0)⟩], .w_none, .r_glob, .both, .any, .word⟩

/-- TSK_CFG (R168). -/
def rowTskCfg : RegRow :=
  ⟨0x00300000, [(16, 0x4)], [⟨0x0, 0x0, 0x3FF03FF, (.const 0x3800200)⟩], .w_p0, .r_glob, .both, .any, .word⟩

/-- TSK_DLY_CFG (R169). -/
def rowTskDlyCfg : RegRow :=
  ⟨0x00300040, [(16, 0x4)], [⟨0x0, 0x0, 0xFFFFFFFF, (.const 0x4000C000)⟩], .w_p0, .r_glob, .both, .any, .word⟩

/-- TSK_COMMIT (R170). -/
def rowTskCommit : RegRow :=
  ⟨0x00300080, [], [⟨0x0, 0x0, 0x0, (.const 0x0)⟩], .w_p0, .r_glob, .cold, .any, .word⟩

/-- TSK_COMMIT_STATUS (R170). -/
def rowTskCommitStatus : RegRow :=
  ⟨0x00300084, [], [⟨0x0, 0x0, 0x0, (.const 0x0)⟩], .w_none, .r_glob, .cold, .any, .word⟩

/-- TSK_STATUS (R171). -/
def rowTskStatus : RegRow :=
  ⟨0x00300100, [(16, 0x4)], [⟨0x0, 0x0, 0x0, (.const 0x0)⟩], .w_none, .r_glob, .both, .any, .derived⟩

/-- TSK_DLY_OCC (R172). -/
def rowTskDlyOcc : RegRow :=
  ⟨0x00300180, [(16, 0x4)], [⟨0x0, 0x0, 0x0, (.const 0x0)⟩], .w_none, .r_glob, .both, .any, .derived⟩

/-- TSK_CNT (R173). -/
def rowTskCnt : RegRow :=
  ⟨0x00300400, [(16, 0x40), (8, 0x8)], [⟨0x0, 0x0, 0x0, (.const 0x0)⟩, ⟨0x0, 0x0, 0x0, (.const 0x0)⟩], .w_none, .r_glob, .both, .any, .counter⟩

/-- TSK_KA (R174). -/
def rowTskKa : RegRow :=
  ⟨0x00310000, [(16, 0x8000), (4096, 0x8)], [⟨0x0, 0x0, 0xE000FFFF, (.const 0x0)⟩, ⟨0x0, 0x0, 0xFFFFFFFF, (.const 0x0)⟩], .w_p0, .r_glob, .both, .any, .word⟩

/-- PRS_MAL_ACT (R205). -/
def rowPrsMalAct : RegRow :=
  ⟨0x00400000, [], [⟨0x3FFFC, 0x0, 0x0, (.const 0x20)⟩], .w_p0, .r_glob, .both, .v_malact, .word⟩

/-- PRS_MAL_RING (R206). -/
def rowPrsMalRing : RegRow :=
  ⟨0x00400004, [], [⟨0x3F, 0x0, 0x0, (.const 0x0)⟩], .w_p0, .r_glob, .both, .any, .word⟩

/-- PRS_MAL_CNT (R207). -/
def rowPrsMalCnt : RegRow :=
  ⟨0x00400400, [(16, 0x80), (16, 0x8)], [⟨0x0, 0x0, 0x0, (.const 0x0)⟩, ⟨0x0, 0x0, 0x0, (.const 0x0)⟩], .w_none, .r_glob, .both, .any, .counter⟩

/-- PRS_NODE (R178). -/
def rowPrsNode : RegRow :=
  ⟨0x00410000, [(1024, 0x40)], List.replicate 16 ⟨0xFFFFFFFF, 0x0, 0x0, (.const 0x0)⟩, .w_node, .r_glob, .both, .any, .word⟩

/-- CLS_VD (R208). -/
def rowClsVd : RegRow :=
  ⟨0x00501000, [(16, 0x40), (4, 0x10)], [⟨0xFFFF03FF, 0x0, 0x0, (.const 0x0)⟩, ⟨0xFFFF1FFF, 0x0, 0x0, (.const 0x0)⟩, ⟨0x3FFF, 0x0, 0x0, (.const 0x0)⟩, ⟨0xFFFFF, 0x0, 0x0, (.const 0x0)⟩], .w_vd, .r_glob, .both, .any, .word⟩

/-- CLS_PORT_DOM (R209). -/
def rowClsPortDom : RegRow :=
  ⟨0x00502000, [(512, 0x4)], [⟨0x0, 0x0, 0x1F, (.const 0x0)⟩], .w_p0, .r_glob, .both, .any, .word⟩

/-- CLS_DOM_OWNER (R209). -/
def rowClsDomOwner : RegRow :=
  ⟨0x00503000, [], [⟨0x0, 0x0, 0xFFFFFFFF, (.const 0x0)⟩], .w_p0, .r_glob, .both, .any, .word⟩

/-- CLS_PART_RANGE (R209). -/
def rowClsPartRange : RegRow :=
  ⟨0x00503100, [(4, 0x10)], [⟨0x0, 0x0, 0x3FF03FF, (.part0 0x3FF0000 0x1)⟩, ⟨0x0, 0x0, 0xFFFFFFFF, (.part0 0xBFFF0000 0x1)⟩, ⟨0x0, 0x0, 0x3FFF3FFF, (.part0 0x3FFF0000 0x1)⟩, ⟨0x0, 0x0, 0xFFF0FFF, (.part0 0xFFF0000 0x1)⟩], .w_p0, .r_glob, .both, .any, .word⟩

/-- CLS_LPM_QUOTA (R209). -/
def rowClsLpmQuota : RegRow :=
  ⟨0x00503140, [(4, 0x4)], [⟨0x0, 0x0, 0xFFFFFFFF, (.part0 0x40002000 0x0)⟩], .w_p0, .r_glob, .both, .any, .word⟩

/-- CLS_COMMIT (R209). -/
def rowClsCommit : RegRow :=
  ⟨0x00503200, [], [⟨0x0, 0x0, 0x0, (.const 0x0)⟩], .w_p0, .r_glob, .cold, .any, .word⟩

/-- CLS_COMMIT_STATUS (R209). -/
def rowClsCommitStatus : RegRow :=
  ⟨0x00503204, [], [⟨0x0, 0x0, 0x0, (.const 0x0)⟩], .w_none, .r_glob, .cold, .any, .word⟩

/-- CLS_TCAM_STG_KEY (R193). -/
def rowClsTcamStgKey : RegRow :=
  ⟨0x00504000, [(4, 0x100), (20, 0x4)], [⟨0xFFFFFFFF, 0x0, 0x0, (.const 0x0)⟩], .w_part, .r_glob, .both, .any, .word⟩

/-- CLS_TCAM_STG_MASK (R193). -/
def rowClsTcamStgMask : RegRow :=
  ⟨0x00504050, [(4, 0x100), (20, 0x4)], [⟨0xFFFFFFFF, 0x0, 0x0, (.const 0x0)⟩], .w_part, .r_glob, .both, .any, .word⟩

/-- CLS_TCAM_STG_ACT0 (R192). -/
def rowClsTcamStgAct0 : RegRow :=
  ⟨0x005040A0, [(4, 0x100)], [⟨0x8FFFBFF0, 0x0, 0x0, (.const 0x0)⟩], .w_part, .r_glob, .both, .any, .word⟩

/-- CLS_TCAM_STG_ACT1 (R192). -/
def rowClsTcamStgAct1 : RegRow :=
  ⟨0x005040A4, [(4, 0x100)], [⟨0xFF8FFFFF, 0x0, 0x0, (.const 0x0)⟩], .w_part, .r_glob, .both, .any, .word⟩

/-- CLS_TCAM_STG_RULE (R193). -/
def rowClsTcamStgRule : RegRow :=
  ⟨0x005040A8, [(4, 0x100)], [⟨0xFFFFFF00, 0x0, 0x0, (.const 0x0)⟩], .w_part, .r_glob, .both, .any, .word⟩

/-- CLS_TCAM_STG_OP (R193). -/
def rowClsTcamStgOp : RegRow :=
  ⟨0x005040AC, [(4, 0x100)], [⟨0x70003FFF, 0x0, 0x0, (.const 0x0)⟩], .w_part, .r_glob, .both, .any, .word⟩

/-- CLS_TCAM_STG_OPSTAT (R193). -/
def rowClsTcamStgOpstat : RegRow :=
  ⟨0x005040B0, [(4, 0x100)], [⟨0x0, 0x0, 0x0, (.const 0x0)⟩], .w_none, .r_glob, .both, .any, .word⟩

/-- CLS_CNT (R210). -/
def rowClsCnt : RegRow :=
  ⟨0x00505000, [(16, 0x40), (8, 0x8)], [⟨0x0, 0x0, 0x0, (.const 0x0)⟩, ⟨0x0, 0x0, 0x0, (.const 0x0)⟩], .w_none, .r_glob, .both, .any, .counter⟩

/-- CLS_WPROT_CNT (R210). -/
def rowClsWprotCnt : RegRow :=
  ⟨0x00505400, [(4, 0x8)], [⟨0x0, 0x0, 0x0, (.const 0x0)⟩, ⟨0x0, 0x0, 0x0, (.const 0x0)⟩], .w_none, .r_glob, .both, .any, .counter⟩

/-- CLS_LPM_OCC (R211). -/
def rowClsLpmOcc : RegRow :=
  ⟨0x00505500, [(4, 0x8)], [⟨0x0, 0x0, 0x0, (.const 0x0)⟩, ⟨0x0, 0x0, 0x0, (.const 0x0)⟩], .w_none, .r_glob, .both, .any, .derived⟩

/-- CLS_CENT (R190). -/
def rowClsCent : RegRow :=
  ⟨0x00580000, [(49152, 0x4)], [⟨0xDFFFFF00, 0x0, 0x0, (.const 0x0)⟩], .w_cent, .r_glob, .both, .any, .word⟩

/-- MST_SEED (R255). -/
def rowMstSeed : RegRow :=
  ⟨0x00600000, [(3, 0x8)], [⟨0x0, 0x0, 0xFFFFFFFF, (.const 0x0)⟩, ⟨0x0, 0x0, 0xFFFFFFFF, (.const 0x0)⟩], .w_p0, .r_seed, .both, .any, .word⟩

/-- MST_QUOTA (R256). -/
def rowMstQuota : RegRow :=
  ⟨0x00600040, [(4, 0x4)], [⟨0x0, 0x0, 0xFFFFFFF, (.part0 0x8000000 0x0)⟩], .w_p0, .r_glob, .both, .any, .word⟩

/-- MST_PQUOTA (R256). -/
def rowMstPquota : RegRow :=
  ⟨0x00600050, [(4, 0x4)], [⟨0x0, 0x0, 0x1FFFFF, (.part0 0x100000 0x0)⟩], .w_p0, .r_glob, .both, .any, .word⟩

/-- MST_COMMIT (R257). -/
def rowMstCommit : RegRow :=
  ⟨0x00600060, [], [⟨0x0, 0x0, 0x0, (.const 0x0)⟩], .w_p0, .r_glob, .cold, .any, .word⟩

/-- MST_COMMIT_STATUS (R257). -/
def rowMstCommitStatus : RegRow :=
  ⟨0x00600064, [], [⟨0x0, 0x0, 0x0, (.const 0x0)⟩], .w_none, .r_glob, .cold, .any, .word⟩

/-- MST_HELD (R258). -/
def rowMstHeld : RegRow :=
  ⟨0x00600080, [(4, 0x8)], [⟨0x0, 0x0, 0x0, (.const 0x0)⟩, ⟨0x0, 0x0, 0x0, (.const 0x0)⟩], .w_none, .r_glob, .both, .any, .derived⟩

/-- MST_TMO (R259). -/
def rowMstTmo : RegRow :=
  ⟨0x00600100, [(4, 0x20), (8, 0x4)], [⟨0xFFFF, 0x0, 0x0, (.const 0x0)⟩], .w_partOr0, .r_glob, .both, .any, .word⟩

/-- MST_EXP (R260). -/
def rowMstExp : RegRow :=
  ⟨0x00600200, [(16, 0x4)], [⟨0xCFFFFFFF, 0x0, 0x0, (.const 0x0)⟩], .w_dom, .r_glob, .both, .v_mstexp, .word⟩

/-- MST_TRING (R261). -/
def rowMstTring : RegRow :=
  ⟨0x00600300, [(4, 0x20)], [⟨0xFFFFF000, 0x0, 0x0, (.const 0x0)⟩, ⟨0x1F, 0x0, 0x0, (.const 0x0)⟩, ⟨0x0, 0x0, 0x0, (.const 0x0)⟩, ⟨0xFFFFFFFF, 0x0, 0x0, (.const 0x0)⟩], .w_part, .r_glob, .both, .v_tring, .word⟩

/-- MST_TRING_DROP (R262). -/
def rowMstTringDrop : RegRow :=
  ⟨0x00600380, [(4, 0x8)], [⟨0x0, 0x0, 0x0, (.const 0x0)⟩, ⟨0x0, 0x0, 0x0, (.const 0x0)⟩], .w_none, .r_glob, .both, .any, .counter⟩

/-- MST_JNL_STATUS (R263). -/
def rowMstJnlStatus : RegRow :=
  ⟨0x00600400, [], [⟨0x0, 0x0, 0x0, (.const 0x0)⟩], .w_none, .r_glob, .both, .any, .derived⟩

/-- MST_JNL_SEQ (R263). -/
def rowMstJnlSeq : RegRow :=
  ⟨0x00600408, [], [⟨0x0, 0x0, 0x0, (.const 0x0)⟩, ⟨0x0, 0x0, 0x0, (.const 0x0)⟩], .w_none, .r_glob, .both, .any, .derived⟩

/-- MST_JNL_CNT (R264). -/
def rowMstJnlCnt : RegRow :=
  ⟨0x00600410, [(4, 0x8)], [⟨0x0, 0x0, 0x0, (.const 0x0)⟩, ⟨0x0, 0x0, 0x0, (.const 0x0)⟩], .w_none, .r_glob, .cold, .any, .counter⟩

/-- MST_SLICE_STATUS (R265). -/
def rowMstSliceStatus : RegRow :=
  ⟨0x00601000, [(32, 0x8)], [⟨0x0, 0x0, 0x0, (.const 0x0)⟩, ⟨0x0, 0x0, 0x0, (.const 0x0)⟩], .w_none, .r_glob, .both, .any, .derived⟩

/-- MST_CNT (R266). -/
def rowMstCnt : RegRow :=
  ⟨0x00602000, [(32, 0x40), (8, 0x8)], [⟨0x0, 0x0, 0x0, (.const 0x0)⟩, ⟨0x0, 0x0, 0x0, (.const 0x0)⟩], .w_none, .r_glob, .both, .any, .counter⟩

/-- MST_LB_RANGE (R311). -/
def rowMstLbRange : RegRow :=
  ⟨0x00604000, [(4, 0x4)], [⟨0x0, 0x0, 0x3FF03FF, (.part0 0x3FF0000 0x1)⟩], .w_p0, .r_glob, .both, .any, .word⟩

/-- MST_LB_DOM (R312). -/
def rowMstLbDom : RegRow :=
  ⟨0x00604010, [], [⟨0x0, 0x0, 0xFFFF, (.const 0x0)⟩], .w_p0, .r_glob, .both, .any, .word⟩

/-- MST_LB_WADDR (R315). -/
def rowMstLbWaddr : RegRow :=
  ⟨0x00604040, [(4, 0x10)], [⟨0x1FFFFFF, 0x0, 0x0, (.const 0x0)⟩], .w_part, .r_glob, .both, .any, .word⟩

/-- MST_LB_WDATA (R315). -/
def rowMstLbWdata : RegRow :=
  ⟨0x00604048, [(4, 0x10)], [⟨0xFFFFFFFF, 0x0, 0x0, (.const 0x0)⟩, ⟨0xFFFFFFFF, 0x0, 0x0, (.const 0x0)⟩], .w_part, .r_glob, .both, .any, .writeOnly⟩

/-- MST_LB_CNT (R316). -/
def rowMstLbCnt : RegRow :=
  ⟨0x00604100, [(4, 0x20), (4, 0x8)], [⟨0x0, 0x0, 0x0, (.const 0x0)⟩, ⟨0x0, 0x0, 0x0, (.const 0x0)⟩], .w_none, .r_glob, .both, .any, .counter⟩

/-- MST_LB_SVC (R314). -/
def rowMstLbSvc : RegRow :=
  ⟨0x00605000, [(1024, 0x4)], [⟨0x80000001, 0x0, 0x0, (.const 0x0)⟩], .w_any, .r_glob, .cold, .any, .word⟩

/-- EMT_SEED (R295). -/
def rowEmtSeed : RegRow :=
  ⟨0x00700000, [(16, 0x10), (2, 0x8)], [⟨0xFFFFFFFF, 0x0, 0x0, (.const 0x0)⟩, ⟨0xFFFFFFFF, 0x0, 0x0, (.const 0x0)⟩], .w_p0, .r_seed, .cold, .any, .word⟩

/-- EMT_QUOTA (R296). -/
def rowEmtQuota : RegRow :=
  ⟨0x00700100, [(4, 0x4)], [⟨0x0, 0x0, 0x3FFFF, (.part0 0x20000 0x0)⟩], .w_p0, .r_glob, .both, .any, .word⟩

/-- EMT_CFG (R297). -/
def rowEmtCfg : RegRow :=
  ⟨0x00700110, [], [⟨0x0, 0x0, 0xFF07FF, (.const 0xA03E8)⟩], .w_p0, .r_glob, .both, .any, .word⟩

/-- EMT_COMMIT (R298). -/
def rowEmtCommit : RegRow :=
  ⟨0x00700118, [], [⟨0x0, 0x0, 0x0, (.const 0x0)⟩], .w_p0, .r_glob, .cold, .any, .word⟩

/-- EMT_COMMIT_STATUS (R298). -/
def rowEmtCommitStatus : RegRow :=
  ⟨0x0070011C, [], [⟨0x0, 0x0, 0x0, (.const 0x0)⟩], .w_none, .r_glob, .cold, .any, .word⟩

/-- EMT_AGE (R299). -/
def rowEmtAge : RegRow :=
  ⟨0x00700130, [(4, 0x4)], [⟨0x3F, 0x0, 0x0, (.const 0x0)⟩], .w_partOr0, .r_glob, .both, .any, .word⟩

/-- EMT_LRING (R300). -/
def rowEmtLring : RegRow :=
  ⟨0x00700200, [(4, 0x20)], [⟨0xFFFFF000, 0x0, 0x0, (.const 0x0)⟩, ⟨0x1F, 0x0, 0x0, (.const 0x0)⟩, ⟨0x0, 0x0, 0x0, (.const 0x0)⟩, ⟨0xFFFFFFFF, 0x0, 0x0, (.const 0x0)⟩], .w_part, .r_glob, .both, .v_tring, .word⟩

/-- EMT_LRING_DROP (R300). -/
def rowEmtLringDrop : RegRow :=
  ⟨0x00700280, [(4, 0x8)], [⟨0x0, 0x0, 0x0, (.const 0x0)⟩, ⟨0x0, 0x0, 0x0, (.const 0x0)⟩], .w_none, .r_glob, .both, .any, .counter⟩

/-- EMT_WALK_STATUS (R301). -/
def rowEmtWalkStatus : RegRow :=
  ⟨0x00700300, [(4, 0x4)], [⟨0x0, 0x0, 0x0, (.const 0x0)⟩], .w_none, .r_glob, .both, .any, .derived⟩

/-- EMT_WALK_CNT (R302). -/
def rowEmtWalkCnt : RegRow :=
  ⟨0x00700320, [(4, 0x20), (4, 0x8)], [⟨0x0, 0x0, 0x0, (.const 0x0)⟩, ⟨0x0, 0x0, 0x0, (.const 0x0)⟩], .w_none, .r_glob, .both, .any, .counter⟩

/-- EMT_OCC (R303). -/
def rowEmtOcc : RegRow :=
  ⟨0x00700400, [(16, 0x4)], [⟨0x0, 0x0, 0x0, (.const 0x0)⟩], .w_none, .r_glob, .both, .any, .derived⟩

/-- EMT_HELD (R303). -/
def rowEmtHeld : RegRow :=
  ⟨0x00700500, [(4, 0x40), (16, 0x4)], [⟨0x0, 0x0, 0x0, (.const 0x0)⟩], .w_none, .r_glob, .both, .any, .derived⟩

/-- EMT_CNT (R304). -/
def rowEmtCnt : RegRow :=
  ⟨0x00701000, [(16, 0x40), (8, 0x8)], [⟨0x0, 0x0, 0x0, (.const 0x0)⟩, ⟨0x0, 0x0, 0x0, (.const 0x0)⟩], .w_none, .r_glob, .both, .any, .counter⟩

/-- HOP_POOL (R356). -/
def rowHopPool : RegRow :=
  ⟨0x00800000, [], [⟨0x0, 0x0, 0x0, (.const 0x0)⟩, ⟨0x0, 0x0, 0x0, (.const 0x0)⟩, ⟨0x0, 0x0, 0x0, (.const 0x0)⟩, ⟨0x0, 0x0, 0x0, (.const 0x0)⟩], .w_none, .r_glob, .both, .any, .derived⟩

/-- HOP_COMMIT (R355). -/
def rowHopCommit : RegRow :=
  ⟨0x00800020, [], [⟨0x0, 0x0, 0x0, (.const 0x0)⟩], .w_p0, .r_p0, .cold, .any, .word⟩

/-- HOP_COMMIT_STATUS (R355). -/
def rowHopCommitStatus : RegRow :=
  ⟨0x00800024, [], [⟨0x0, 0x0, 0x0, (.const 0x0)⟩], .w_none, .r_p0, .cold, .any, .word⟩

/-- HOP_CNT (R358). -/
def rowHopCnt : RegRow :=
  ⟨0x00800100, [(8, 0x8)], [⟨0x0, 0x0, 0x0, (.const 0x0)⟩, ⟨0x0, 0x0, 0x0, (.const 0x0)⟩], .w_none, .r_p0, .both, .any, .counter⟩

/-- HOP_HOST_FAULT (R358). -/
def rowHopHostFault : RegRow :=
  ⟨0x00800180, [(4, 0x8)], [⟨0x0, 0x0, 0x0, (.const 0x0)⟩, ⟨0x0, 0x0, 0x0, (.const 0x0)⟩], .w_none, .r_p0, .both, .any, .counter⟩

/-- HOP_OWN (R354). -/
def rowHopOwn : RegRow :=
  ⟨0x00810000, [(4100, 0x10)], [⟨0x0, 0x0, 0xF0FFFFF, (.below 4096 0x7000010 0x7000400)⟩, ⟨0x0, 0x0, 0xFFFFF, (.const 0xC0000)⟩, ⟨0x0, 0x0, 0xFFFFFFFF, (.const 0x400000)⟩, ⟨0x0, 0x0, 0x7FFFFF, (.const 0x7FFFFF)⟩], .w_p0, .r_hop, .both, .any, .word⟩

/-- HOP_OWN_USE (R357). -/
def rowHopOwnUse : RegRow :=
  ⟨0x00830000, [(4100, 0x10)], [⟨0x0, 0x0, 0x0, (.const 0x0)⟩, ⟨0x0, 0x0, 0x0, (.const 0x0)⟩, ⟨0x0, 0x0, 0x0, (.const 0x0)⟩, ⟨0x0, 0x0, 0x0, (.const 0x0)⟩], .w_none, .r_hop, .both, .any, .derived⟩

/-- HOP_DROP_EXHAUST (R358). -/
def rowHopDropExhaust : RegRow :=
  ⟨0x00850000, [(4100, 0x8)], [⟨0x0, 0x0, 0x0, (.const 0x0)⟩, ⟨0x0, 0x0, 0x0, (.const 0x0)⟩], .w_none, .r_p0, .both, .any, .counter⟩

/-- QSH_RANGE (R396). -/
def rowQshRange : RegRow :=
  ⟨0x00900000, [(4, 0x20)], [⟨0x0, 0x0, 0xFFFFFFFF, (.part0 0xFFFF0000 0x1)⟩, ⟨0x0, 0x0, 0xFFF0FFF, (.part0 0xFFF0000 0x1)⟩, ⟨0x0, 0x0, 0x3FFF3FFF, (.part0 0x3FFF0000 0x1)⟩, ⟨0x0, 0x0, 0xFFF0FFF, (.part0 0xFFF0000 0x1)⟩, ⟨0x0, 0x0, 0xFFFFF, (.part0 0x0 0x1)⟩, ⟨0x0, 0x0, 0xFFFFF, (.part0 0xFFFFF 0x0)⟩, ⟨0x0, 0x0, 0x3FFF3FFF, (.part0 0x3FFF0000 0x1)⟩, ⟨0x0, 0x0, 0xFFFFFFFF, (.part0 0xFFFF0000 0x1)⟩], .w_p0, .r_glob, .both, .any, .word⟩

/-- QSH_COMMIT (R398). -/
def rowQshCommit : RegRow :=
  ⟨0x00900080, [], [⟨0x0, 0x0, 0x0, (.const 0x0)⟩], .w_p0, .r_glob, .cold, .any, .word⟩

/-- QSH_COMMIT_STATUS (R398). -/
def rowQshCommitStatus : RegRow :=
  ⟨0x00900084, [], [⟨0x0, 0x0, 0x0, (.const 0x0)⟩], .w_none, .r_glob, .cold, .any, .word⟩

/-- QSH_HIST_CFG (R397). -/
def rowQshHistCfg : RegRow :=
  ⟨0x00900088, [], [⟨0x0, 0x0, 0xF, (.const 0x7)⟩], .w_p0, .r_glob, .both, .any, .word⟩

/-- QSH_TACC_CTL (R399). -/
def rowQshTaccCtl : RegRow :=
  ⟨0x00900100, [(4, 0x80)], [⟨0x40FFFFFF, 0x0, 0x0, (.const 0x0)⟩], .w_part, .r_glob, .both, .any, .word⟩

/-- QSH_TACC_STAT (R399). -/
def rowQshTaccStat : RegRow :=
  ⟨0x00900104, [(4, 0x80)], [⟨0x0, 0x0, 0x0, (.const 0x0)⟩], .w_none, .r_glob, .both, .any, .word⟩

/-- QSH_TACC_AT (R399). -/
def rowQshTaccAt : RegRow :=
  ⟨0x00900108, [(4, 0x80)], [⟨0x0, 0x0, 0x0, (.const 0x0)⟩, ⟨0x0, 0x0, 0x0, (.const 0x0)⟩], .w_none, .r_glob, .both, .any, .word⟩

/-- QSH_TACC_DATA (R399). -/
def rowQshTaccData : RegRow :=
  ⟨0x00900120, [(4, 0x80), (24, 0x4)], [⟨0xFFFFFFFF, 0x0, 0x0, (.const 0x0)⟩], .w_part, .r_glob, .both, .any, .word⟩

/-- QSH_CNT (R400). -/
def rowQshCnt : RegRow :=
  ⟨0x00901000, [(16, 0x40), (8, 0x8)], [⟨0x0, 0x0, 0x0, (.const 0x0)⟩, ⟨0x0, 0x0, 0x0, (.const 0x0)⟩], .w_none, .r_glob, .both, .any, .counter⟩

/-- QSH_WEIR_CNT (R400). -/
def rowQshWeirCnt : RegRow :=
  ⟨0x00901400, [(4, 0x20), (4, 0x8)], [⟨0x0, 0x0, 0x0, (.const 0x0)⟩, ⟨0x0, 0x0, 0x0, (.const 0x0)⟩], .w_none, .r_glob, .both, .any, .counter⟩

/-- GATE_STG_CFG (R401). -/
def rowGateStgCfg : RegRow :=
  ⟨0x00A00000, [(4, 0x1000)], [⟨0x0, 0x0, 0xC1FF01FF, (.const 0x0)⟩, ⟨0x0, 0x0, 0xFFFFFFFF, (.const 0x0)⟩, ⟨0x0, 0x0, 0x3FFFFFFF, (.const 0x0)⟩, ⟨0x0, 0x0, 0xFFFFFFFF, (.const 0x0)⟩, ⟨0x0, 0x0, 0xFFFF, (.const 0x0)⟩], .w_part, .r_glob, .both, .any, .word⟩

/-- GATE_STG_ENT (R401). -/
def rowGateStgEnt : RegRow :=
  ⟨0x00A00800, [(4, 0x1000), (256, 0x8)], [⟨0x0, 0x0, 0xFFFFFFFF, (.const 0x0)⟩, ⟨0x0, 0x0, 0x300FF, (.const 0x0)⟩], .w_part, .r_glob, .both, .any, .word⟩

/-- GATE_COMMIT (R402). -/
def rowGateCommit : RegRow :=
  ⟨0x00A04000, [(4, 0x8)], [⟨0x0, 0x0, 0x0, (.const 0x0)⟩], .w_part, .r_glob, .cold, .any, .word⟩

/-- GATE_COMMIT_STATUS (R402). -/
def rowGateCommitStatus : RegRow :=
  ⟨0x00A04004, [(4, 0x8)], [⟨0x0, 0x0, 0x0, (.const 0x0)⟩], .w_none, .r_glob, .cold, .any, .word⟩

/-- GATE_STATUS (R403). -/
def rowGateStatus : RegRow :=
  ⟨0x00A08000, [(512, 0x10)], [⟨0x0, 0x0, 0x0, (.const 0x0)⟩, ⟨0x0, 0x0, 0x0, (.const 0x0)⟩, ⟨0x0, 0x0, 0x0, (.const 0x0)⟩, ⟨0x0, 0x0, 0x0, (.const 0x0)⟩], .w_none, .r_port, .both, .any, .derived⟩

/-- GATE_OVERSIZE (R404). -/
def rowGateOversize : RegRow :=
  ⟨0x00A0A000, [(512, 0x8)], [⟨0x0, 0x0, 0x0, (.const 0x0)⟩, ⟨0x0, 0x0, 0x0, (.const 0x0)⟩], .w_none, .r_glob, .both, .any, .counter⟩

/-- GATE_CNT (R404). -/
def rowGateCnt : RegRow :=
  ⟨0x00A0B000, [(16, 0x20), (4, 0x8)], [⟨0x0, 0x0, 0x0, (.const 0x0)⟩, ⟨0x0, 0x0, 0x0, (.const 0x0)⟩], .w_none, .r_glob, .both, .any, .counter⟩

/-- PORT_CFG (R438). -/
def rowPortCfg : RegRow :=
  ⟨0x00B00000, [(512, 0x4)], [⟨0x0, 0x0, 0xCF803FFF, (.const 0x2800)⟩], .w_port, .r_port, .both, .any, .word⟩

/-- PORT_COMMIT (R439). -/
def rowPortCommit : RegRow :=
  ⟨0x00B00800, [(4, 0x8)], [⟨0x0, 0x0, 0x0, (.const 0x0)⟩], .w_part, .r_own, .cold, .any, .word⟩

/-- PORT_COMMIT_STATUS (R439). -/
def rowPortCommitStatus : RegRow :=
  ⟨0x00B00804, [(4, 0x8)], [⟨0x0, 0x0, 0x0, (.const 0x0)⟩], .w_none, .r_own, .cold, .any, .word⟩

/-- PORT_MAC (R440). -/
def rowPortMac : RegRow :=
  ⟨0x00B01000, [(512, 0x8)], [⟨0x0, 0x0, 0xFFFF00FF, (.const 0xFFFF0000)⟩, ⟨0x0, 0x0, 0xF00000FF, (.const 0xA)⟩], .w_port, .r_port, .both, .any, .word⟩

/-- PORT_CLSMAP (R441). -/
def rowPortClsmap : RegRow :=
  ⟨0x00B04000, [(512, 0x20)], [⟨0x0, 0x0, 0x1F, (.const 0x0)⟩, ⟨0x0, 0x0, 0xFFFFFF, (.const 0xFAC688)⟩, ⟨0x0, 0x0, 0xFFFFFFFF, (.const 0x0)⟩, ⟨0x0, 0x0, 0xFFFFFFFF, (.const 0x0)⟩, ⟨0x0, 0x0, 0xFFFFFFFF, (.const 0x0)⟩, ⟨0x0, 0x0, 0xFFFFFFFF, (.const 0x0)⟩, ⟨0x0, 0x0, 0xFFFFFFFF, (.const 0x0)⟩, ⟨0x0, 0x0, 0xFFFFFFFF, (.const 0x0)⟩], .w_port, .r_port, .both, .any, .word⟩

/-- PORT_LANEMAP (R442). -/
def rowPortLanemap : RegRow :=
  ⟨0x00B08000, [(512, 0x4)], [⟨0xFFFFFF, 0x0, 0x0, (.const 0xFAC688)⟩], .w_port, .r_port, .cold, .any, .word⟩

/-- PORT_POL (R442). -/
def rowPortPol : RegRow :=
  ⟨0x00B08800, [(512, 0x4)], [⟨0xFFFF, 0x0, 0x0, (.const 0x0)⟩], .w_port, .r_port, .cold, .any, .word⟩

/-- PORT_TSADJ (R443). -/
def rowPortTsadj : RegRow :=
  ⟨0x00B09000, [(512, 0x8)], [⟨0xFFFFFFFF, 0x0, 0x0, (.const 0x0)⟩, ⟨0xFFFFFFFF, 0x0, 0x0, (.const 0x0)⟩], .w_port, .r_port, .cold, .any, .word⟩

/-- PORT_STATUS (R444). -/
def rowPortStatus : RegRow :=
  ⟨0x00B0A000, [(512, 0x4)], [⟨0x0, 0x0, 0x0, (.const 0x0)⟩], .w_none, .r_glob, .both, .any, .derived⟩

/-- PORT_MOD (R445). -/
def rowPortMod : RegRow :=
  ⟨0x00B0C000, [(64, 0x10)], [⟨0x787F00FF, 0x0, 0x0, (.const 0x500000)⟩, ⟨0x18000000, 0x0, 0x0, (.const 0x18000000)⟩, ⟨0xFFFFFFFF, 0x0, 0x0, (.const 0x0)⟩, ⟨0xFFFFFFFF, 0x0, 0x0, (.const 0x0)⟩], .w_mod, .r_mod, .both, .any, .word⟩

/-- PORT_CNT (R446). -/
def rowPortCnt : RegRow :=
  ⟨0x00B10000, [(512, 0x80), (16, 0x8)], [⟨0x0, 0x0, 0x0, (.const 0x0)⟩, ⟨0x0, 0x0, 0x0, (.const 0x0)⟩], .w_none, .r_port, .both, .any, .counter⟩

/-- PTP_CAPTURE (R447). -/
def rowPtpCapture : RegRow :=
  ⟨0x00C00000, [], List.replicate 6 ⟨0x0, 0x0, 0x0, (.const 0x0)⟩, .w_none, .r_glob, .both, .any, .derived⟩

/-- PTP_RATE (R447). -/
def rowPtpRate : RegRow :=
  ⟨0x00C00020, [], [⟨0xFFFFFFFF, 0x0, 0x0, (.const 0x0)⟩, ⟨0xFFFF, 0x0, 0x0, (.const 0x0)⟩], .w_p0, .r_p0, .both, .any, .word⟩

/-- PTP_STEP (R447). -/
def rowPtpStep : RegRow :=
  ⟨0x00C00030, [], [⟨0x0, 0x0, 0x0, (.const 0x0)⟩], .w_p0, .r_p0, .both, .any, .writeOnly⟩

/-- PTP_SET (R447). -/
def rowPtpSet : RegRow :=
  ⟨0x00C00040, [], [⟨0x3FFFFFFF, 0x0, 0x0, (.const 0x0)⟩, ⟨0xFFFFFFFF, 0x0, 0x0, (.const 0x0)⟩, ⟨0xFFFF, 0x0, 0x0, (.const 0x0)⟩], .w_p0, .r_p0, .both, .any, .word⟩

/-- PTP_STAT (R447). -/
def rowPtpStat : RegRow :=
  ⟨0x00C00050, [], [⟨0x0, 0x0, 0x0, (.const 0x0)⟩], .w_none, .r_p0, .both, .any, .word⟩

/-- PTP_STAT_LAST (R447). -/
def rowPtpStatLast : RegRow :=
  ⟨0x00C00058, [], [⟨0x0, 0x0, 0x0, (.const 0x0)⟩, ⟨0x0, 0x0, 0x0, (.const 0x0)⟩], .w_none, .r_p0, .both, .any, .word⟩

/-- PTP_TSQ (R448). -/
def rowPtpTsq : RegRow :=
  ⟨0x00C00100, [(4, 0x20)], [⟨0x0, 0x0, 0x0, (.const 0x0)⟩, ⟨0x0, 0x0, 0x0, (.const 0x0)⟩, ⟨0x0, 0x0, 0x0, (.const 0x0)⟩, ⟨0x0, 0x0, 0x0, (.const 0x0)⟩, ⟨0x0, 0x80000000, 0x0, (.const 0x0)⟩], .w_part, .r_part, .both, .any, .word⟩

/-- PTP_TSQ_OVF (R448). -/
def rowPtpTsqOvf : RegRow :=
  ⟨0x00C00200, [(4, 0x8)], [⟨0x0, 0x0, 0x0, (.const 0x0)⟩, ⟨0x0, 0x0, 0x0, (.const 0x0)⟩], .w_none, .r_part, .both, .any, .counter⟩

/-- PTP_PPSIN (R449). -/
def rowPtpPpsin : RegRow :=
  ⟨0x00C00300, [], List.replicate 5 ⟨0x0, 0x0, 0x0, (.const 0x0)⟩, .w_none, .r_p0, .both, .any, .derived⟩

/-- PTP_PPSOUT (R449). -/
def rowPtpPpsout : RegRow :=
  ⟨0x00C00340, [], [⟨0x8007FFFF, 0x0, 0x0, (.const 0x186A0)⟩, ⟨0xFFFFFFFF, 0x0, 0x0, (.const 0x0)⟩], .w_p0, .r_p0, .both, .v_ppsout, .word⟩

/-- PTP_FREQOUT (R449). -/
def rowPtpFreqout : RegRow :=
  ⟨0x00C00348, [], [⟨0x80000003, 0x0, 0x0, (.const 0x0)⟩], .w_p0, .r_p0, .both, .v_freqout, .word⟩

/-- PTP_TOD_TX (R449). -/
def rowPtpTodTx : RegRow :=
  ⟨0x00C00360, [], [⟨0x80FFFFFF, 0x0, 0x0, (.const 0x0)⟩, ⟨0xFFFF, 0x0, 0x0, (.const 0xFEF8)⟩], .w_p0, .r_p0, .both, .any, .word⟩

/-- PTP_TOD_RX (R449). -/
def rowPtpTodRx : RegRow :=
  ⟨0x00C00380, [], List.replicate 6 ⟨0x0, 0x0, 0x0, (.const 0x0)⟩, .w_none, .r_p0, .both, .any, .derived⟩

/-- PTP_EEC_CFG (R449). -/
def rowPtpEecCfg : RegRow :=
  ⟨0x00C00400, [], [⟨0xCE0001FF, 0x0, 0x0, (.const 0x0)⟩], .w_p0, .r_p0, .both, .any, .word⟩

/-- PTP_EEC_STAT (R449). -/
def rowPtpEecStat : RegRow :=
  ⟨0x00C00404, [], [⟨0x0, 0x0, 0x0, (.const 0x0)⟩], .w_none, .r_p0, .both, .any, .word⟩

/-- PTP_EEC_FOFF (R449). -/
def rowPtpEecFoff : RegRow :=
  ⟨0x00C00408, [], [⟨0x0, 0x0, 0x0, (.const 0x0)⟩], .w_none, .r_p0, .both, .any, .word⟩

/-- CNT_WIN (R550). -/
def rowCntWin : RegRow :=
  ⟨0x00D00000, [], [⟨0xFFFFFFFF, 0x0, 0x0, (.const 0xFFFFFFFF)⟩, ⟨0xFFFFFFFF, 0x0, 0x0, (.const 0xFFFFFFFF)⟩, ⟨0xFFFFFFFF, 0x0, 0x0, (.const 0xFFFFFFFF)⟩, ⟨0xFFFFFFFF, 0x0, 0x0, (.const 0xFFFFFFFF)⟩], .w_p0, .r_glob, .both, .any, .word⟩

/-- CNT_STREAM (R554). -/
def rowCntStream : RegRow :=
  ⟨0x00D00100, [(4, 0x20), (2, 0x10)], [⟨0x0, 0x0, 0x0, (.const 0x0)⟩, ⟨0x0, 0x0, 0x0, (.const 0x0)⟩, ⟨0x0, 0x0, 0x0, (.const 0x0)⟩, ⟨0x0, 0x0, 0x0, (.const 0x0)⟩], .w_none, .r_own, .both, .any, .derived⟩

/-- CNT_USER_READ (R553). -/
def rowCntUserRead : RegRow :=
  ⟨0x00D00200, [(4, 0x4)], [⟨0x80000003, 0x0, 0x0, (.const 0x0)⟩], .w_p0, .r_glob, .both, .any, .word⟩

/-- CNT_SNAP_STAT (R555). -/
def rowCntSnapStat : RegRow :=
  ⟨0x00D00300, [], [⟨0x0, 0x0, 0x0, (.const 0x0)⟩, ⟨0x0, 0x0, 0x0, (.const 0x0)⟩, ⟨0x0, 0x0, 0x0, (.const 0x0)⟩, ⟨0x0, 0x0, 0x0, (.const 0x0)⟩], .w_none, .r_glob, .both, .any, .derived⟩

/-- CNT_COLL_CNT (R556). -/
def rowCntCollCnt : RegRow :=
  ⟨0x00D00400, [(4, 0x8)], [⟨0x0, 0x0, 0x0, (.const 0x0)⟩, ⟨0x0, 0x0, 0x0, (.const 0x0)⟩], .w_none, .r_glob, .both, .any, .counter⟩

/-- CNT_SEL (R551). -/
def rowCntSel : RegRow :=
  ⟨0x00D10000, [(107, 0x40), (16, 0x4)], [⟨0xF3FFFFFF, 0x0, 0x0, (.const 0x0)⟩], .w_p0, .r_glob, .both, .v_cntsel, .word⟩

/-- CNT_VAL (R552). -/
def rowCntVal : RegRow :=
  ⟨0x00D20000, [(107, 0x80), (16, 0x8)], [⟨0x0, 0x0, 0x0, (.const 0x0)⟩, ⟨0x0, 0x0, 0x0, (.const 0x0)⟩], .w_none, .r_glob, .both, .any, .counter⟩

/-- CNT_OVF (R553). -/
def rowCntOvf : RegRow :=
  ⟨0x00D30000, [(107, 0x4)], [⟨0x0, 0xFFFF, 0x0, (.const 0x0)⟩], .w_p0, .r_glob, .both, .any, .word⟩

/-- EVR_STATUS (R557). -/
def rowEvrStatus : RegRow :=
  ⟨0x00E00000, [], [⟨0x0, 0x1000000, 0x0, (.const 0x0)⟩], .w_p0, .r_glob, .both, .any, .derived⟩

/-- EVR_FAULT_FIRST (R557). -/
def rowEvrFaultFirst : RegRow :=
  ⟨0x00E00008, [], [⟨0x0, 0x0, 0x0, (.const 0x0)⟩, ⟨0x0, 0x0, 0x0, (.const 0x0)⟩], .w_none, .r_glob, .both, .any, .derived⟩

/-- EVR_FAULT_NEXT (R557). -/
def rowEvrFaultNext : RegRow :=
  ⟨0x00E00010, [], [⟨0x0, 0x0, 0x0, (.const 0x0)⟩, ⟨0x0, 0x0, 0x0, (.const 0x0)⟩], .w_none, .r_glob, .both, .any, .derived⟩

/-- EVR_SEC_NEXT (R557). -/
def rowEvrSecNext : RegRow :=
  ⟨0x00E00018, [], [⟨0x0, 0x0, 0x0, (.const 0x0)⟩], .w_none, .r_p0, .both, .any, .derived⟩

/-- EVR_OPTIME (R557). -/
def rowEvrOptime : RegRow :=
  ⟨0x00E00020, [], [⟨0x0, 0x0, 0x0, (.const 0x0)⟩], .w_none, .r_glob, .both, .any, .derived⟩

/-- EVR_PCYC (R557). -/
def rowEvrPcyc : RegRow :=
  ⟨0x00E00024, [], [⟨0x0, 0x0, 0x0, (.const 0x0)⟩], .w_none, .r_glob, .both, .any, .derived⟩

/-- EVR_CLR_NONCE (R557). -/
def rowEvrClrNonce : RegRow :=
  ⟨0x00E00040, [], [⟨0x0, 0x0, 0x0, (.const 0x0)⟩, ⟨0x0, 0x0, 0x0, (.const 0x0)⟩, ⟨0x0, 0x0, 0x0, (.const 0x0)⟩, ⟨0x0, 0x0, 0x0, (.const 0x0)⟩], .w_none, .r_p0, .both, .any, .derived⟩

/-- EVR_SEC_REFUSED (R558). -/
def rowEvrSecRefused : RegRow :=
  ⟨0x00E00100, [], [⟨0x0, 0x0, 0x0, (.const 0x0)⟩, ⟨0x0, 0x0, 0x0, (.const 0x0)⟩], .w_none, .r_glob, .nv, .any, .counter⟩

/-- EVR_HOLD_OVF (R558). -/
def rowEvrHoldOvf : RegRow :=
  ⟨0x00E00108, [], [⟨0x0, 0x0, 0x0, (.const 0x0)⟩, ⟨0x0, 0x0, 0x0, (.const 0x0)⟩], .w_none, .r_glob, .nv, .any, .counter⟩

/-- EVR_IN_DROP (R558). -/
def rowEvrInDrop : RegRow :=
  ⟨0x00E00110, [], [⟨0x0, 0x0, 0x0, (.const 0x0)⟩, ⟨0x0, 0x0, 0x0, (.const 0x0)⟩], .w_none, .r_glob, .nv, .any, .counter⟩

/-- EVR_CLR_FAIL (R558). -/
def rowEvrClrFail : RegRow :=
  ⟨0x00E00118, [], [⟨0x0, 0x0, 0x0, (.const 0x0)⟩, ⟨0x0, 0x0, 0x0, (.const 0x0)⟩], .w_none, .r_glob, .nv, .any, .counter⟩

/-- SAF_STATUS (R589). -/
def rowSafStatus : RegRow :=
  ⟨0x00F00000, [], [⟨0x0, 0x80000000, 0x0, (.const 0x0)⟩], .w_p0, .r_glob, .both, .any, .word⟩

/-- SAF_FAULT (R590). -/
def rowSafFault : RegRow :=
  ⟨0x00F00004, [], [⟨0x0, 0xFFF, 0x0, (.const 0x0)⟩], .w_p0, .r_glob, .cold, .any, .word⟩

/-- SAF_CFG (R591). -/
def rowSafCfg : RegRow :=
  ⟨0x00F00010, [], [⟨0x800000FF, 0x0, 0x0, (.const 0x80000008)⟩], .w_p0, .r_glob, .both, .any, .word⟩

/-- SAF_ALIVE (R591). -/
def rowSafAlive : RegRow :=
  ⟨0x00F00014, [], [⟨0x0, 0x0, 0x0, (.const 0x0)⟩], .w_none, .r_glob, .both, .any, .word⟩

/-- SAF_LAST (R592). -/
def rowSafLast : RegRow :=
  ⟨0x00F00020, [], [⟨0x0, 0x0, 0x0, (.const 0x0)⟩, ⟨0x0, 0x0, 0x0, (.const 0x0)⟩, ⟨0x0, 0x0, 0x0, (.const 0x0)⟩, ⟨0x0, 0x0, 0x0, (.const 0x0)⟩], .w_none, .r_glob, .both, .any, .word⟩

/-- SAF_CNT (R592). -/
def rowSafCnt : RegRow :=
  ⟨0x00F00100, [(12, 0x8)], [⟨0x0, 0x0, 0x0, (.const 0x0)⟩, ⟨0x0, 0x0, 0x0, (.const 0x0)⟩], .w_none, .r_glob, .cold, .any, .counter⟩

/-- AGE_POLICY (R593). -/
def rowAgePolicy : RegRow :=
  ⟨0x01000000, [], [⟨0x3FF03, 0x0, 0x0, (.const 0x3C00)⟩], .w_p0, .r_glob, .both, .v_agepol, .word⟩

/-- AGE_SUMMARY (R593). -/
def rowAgeSummary : RegRow :=
  ⟨0x01000004, [], [⟨0x0, 0x0, 0x0, (.const 0xFFFF)⟩], .w_none, .r_glob, .both, .any, .word⟩

/-- AGE_ISL (R594). -/
def rowAgeIsl : RegRow :=
  ⟨0x01000100, [(107, 0x8)], [⟨0x0, 0x0, 0x0, (.const 0x32004B0)⟩, ⟨0x0, 0x0, 0x0, (.const 0xFFFF)⟩], .w_none, .r_glob, .both, .any, .word⟩

/-- AGE_DRAM (R595). -/
def rowAgeDram : RegRow :=
  ⟨0x01001000, [(4, 0x4)], [⟨0x0, 0x0, 0x0, (.const 0x79E)⟩], .w_none, .r_glob, .both, .any, .word⟩

/-- MNT_RUN (R596). -/
def rowMntRun : RegRow :=
  ⟨0x01100000, [], [⟨0x0, 0x0, 0x0, (.const 0x0)⟩], .w_none, .r_glob, .both, .any, .derived⟩

/-- MNT_ACT (R596). -/
def rowMntAct : RegRow :=
  ⟨0x01100110, [(12, 0x10)], [⟨0x0, 0x0, 0x0, (.const 0x0)⟩, ⟨0x0, 0x0, 0x0, (.const 0x0)⟩, ⟨0x0, 0x0, 0x0, (.const 0x0)⟩, ⟨0x0, 0x0, 0x0, (.const 0x0)⟩], .w_none, .r_glob, .both, .any, .word⟩

/-- MNT_CNT (R597). -/
def rowMntCnt : RegRow :=
  ⟨0x01100400, [(4, 0x8)], [⟨0x0, 0x0, 0x0, (.const 0x0)⟩, ⟨0x0, 0x0, 0x0, (.const 0x0)⟩], .w_none, .r_glob, .cold, .any, .counter⟩

/-- HST_PORT_OWN (R485). -/
def rowHstPortOwn : RegRow :=
  ⟨0x01200000, [(32, 0x4)], [⟨0x0, 0x0, 0xFFFFFFFF, (.const 0x0)⟩], .w_p0, .r_glob, .both, .any, .word⟩

/-- HST_PROG_RANGE (R485). -/
def rowHstProgRange : RegRow :=
  ⟨0x01200080, [(4, 0x4)], [⟨0x0, 0x0, 0x7F007F, (.part0 0x7F0000 0x1)⟩], .w_p0, .r_glob, .both, .any, .word⟩

/-- HST_COMMIT (R486). -/
def rowHstCommit : RegRow :=
  ⟨0x01200100, [], [⟨0x0, 0x0, 0x0, (.const 0x0)⟩], .w_p0, .r_glob, .cold, .any, .word⟩

/-- HST_COMMIT_STATUS (R486). -/
def rowHstCommitStatus : RegRow :=
  ⟨0x01200104, [], [⟨0x0, 0x0, 0x0, (.const 0x0)⟩], .w_none, .r_glob, .cold, .any, .word⟩

/-- HST_BAR0_WIN (R487). -/
def rowHstBar0Win : RegRow :=
  ⟨0x01200110, [], [⟨0xF, 0x0, 0x0, (.const 0x0)⟩], .w_p0, .r_glob, .both, .any, .word⟩

/-- HST_DSUB (R488). -/
def rowHstDsub : RegRow :=
  ⟨0x01200140, [(4, 0x8)], [⟨0xFFF0FFF, 0x0, 0x0, (.part0 0x3FF0000 0x1)⟩, ⟨0xFFF0FFF, 0x0, 0x0, (.part0 0x7FF0400 0x1)⟩], .w_p0, .r_glob, .cold, .v_dsub, .word⟩

/-- HST_LINK (R487). -/
def rowHstLink : RegRow :=
  ⟨0x01200200, [(4, 0x4)], [⟨0x0, 0x0, 0x0, (.const 0x0)⟩], .w_none, .r_glob, .both, .any, .derived⟩

/-- HST_CMDQ (R489). -/
def rowHstCmdq : RegRow :=
  ⟨0x01210000, [(4, 0x10000), (4, 0x40)], [⟨0xFFFFFFFF, 0x0, 0x0, (.const 0x0)⟩, ⟨0xFFFFFFFF, 0x0, 0x0, (.const 0x0)⟩, ⟨0xFFFFFFFF, 0x0, 0x0, (.const 0x0)⟩, ⟨0xFFFFFFFF, 0x0, 0x0, (.const 0x0)⟩, ⟨0x8000000F, 0x0, 0x0, (.const 0x4)⟩, ⟨0x0, 0x0, 0x0, (.const 0x0)⟩, ⟨0x0, 0x0, 0x0, (.const 0x0)⟩, ⟨0x0, 0x0, 0x0, (.const 0x0)⟩], .w_part, .r_own, .both, .v_cmdq, .word⟩

/-- HST_RXQ (R490). -/
def rowHstRxq : RegRow :=
  ⟨0x01211000, [(4, 0x10000), (64, 0x20)], [⟨0xFFFFFFFF, 0x0, 0x0, (.const 0x0)⟩, ⟨0xFFFFFFFF, 0x0, 0x0, (.const 0x0)⟩, ⟨0x8000000F, 0x0, 0x0, (.const 0x4)⟩, ⟨0x0, 0x0, 0x0, (.const 0x0)⟩, ⟨0x0, 0x0, 0x0, (.const 0x0)⟩, ⟨0x0, 0x0, 0x0, (.const 0x0)⟩], .w_part, .r_own, .both, .v_dmaq, .word⟩

/-- HST_TXQ (R490). -/
def rowHstTxq : RegRow :=
  ⟨0x01212000, [(4, 0x10000), (64, 0x20)], [⟨0xFFFFFFFF, 0x0, 0x0, (.const 0x0)⟩, ⟨0xFFFFFFFF, 0x0, 0x0, (.const 0x0)⟩, ⟨0x8000000F, 0x0, 0x0, (.const 0x4)⟩, ⟨0x0, 0x0, 0x0, (.const 0x0)⟩, ⟨0x0, 0x0, 0x0, (.const 0x0)⟩, ⟨0x0, 0x0, 0x0, (.const 0x0)⟩], .w_part, .r_own, .both, .v_dmaq, .word⟩

/-- HST_IVEC (R491). -/
def rowHstIvec : RegRow :=
  ⟨0x01213000, [(4, 0x10000), (140, 0x4)], [⟨0x800000FF, 0x0, 0x0, (.const 0x0)⟩], .w_part, .r_own, .both, .any, .word⟩

/-- HST_IPEND (R491). -/
def rowHstIpend : RegRow :=
  ⟨0x01213400, [(4, 0x10000), (5, 0x4)], [⟨0x0, 0xFFFFFFFF, 0x0, (.const 0x0)⟩], .w_part, .r_own, .both, .any, .word⟩

/-- HST_BAR2_WIN (R492). -/
def rowHstBar2Win : RegRow :=
  ⟨0x01213800, [(4, 0x10000)], [⟨0x3FF, 0x0, 0x0, (.const 0x0)⟩], .w_part, .r_own, .both, .any, .word⟩

/-- HST_DENY (R492). -/
def rowHstDeny : RegRow :=
  ⟨0x01213810, [(4, 0x10000)], [⟨0x0, 0x0, 0x0, (.const 0x0)⟩, ⟨0x0, 0x0, 0x0, (.const 0x0)⟩, ⟨0x0, 0x0, 0x0, (.const 0x0)⟩, ⟨0x0, 0x0, 0x0, (.const 0x0)⟩], .w_none, .r_own, .both, .any, .word⟩

/-- HST_PCNT (R493). -/
def rowHstPcnt : RegRow :=
  ⟨0x01213900, [(4, 0x10000), (8, 0x8)], [⟨0x0, 0x0, 0x0, (.const 0x0)⟩, ⟨0x0, 0x0, 0x0, (.const 0x0)⟩], .w_none, .r_own, .both, .any, .counter⟩

/-- DBG_STATUS (R639). -/
def rowDbgStatus : RegRow :=
  ⟨0x01300000, [], [⟨0x0, 0x0, 0x0, (.const 0x0)⟩], .w_none, .r_glob, .both, .any, .derived⟩

/-- DBG_UNLOCK (R639). -/
def rowDbgUnlock : RegRow :=
  ⟨0x01300004, [], [⟨0x70000003, 0x0, 0x0, (.const 0x0)⟩], .w_dbg, .r_dbg, .both, .any, .word⟩

/-- DBG_CHAL (R640). -/
def rowDbgChal : RegRow :=
  ⟨0x01300100, [(16, 0x4)], [⟨0x0, 0x0, 0x0, (.const 0x0)⟩], .w_dbg, .r_dbg, .both, .any, .word⟩

/-- DBG_RESP (R640). -/
def rowDbgResp : RegRow :=
  ⟨0x01300200, [(64, 0x4)], [⟨0xFFFFFFFF, 0x0, 0x0, (.const 0x0)⟩], .w_dbg, .r_dbg, .both, .any, .writeOnly⟩

/-- DBG_UFUSE (R640). -/
def rowDbgUfuse : RegRow :=
  ⟨0x01300300, [(16, 0x4)], [⟨0xFFFFFFFF, 0x0, 0x0, (.const 0x0)⟩], .w_dbg, .r_dbg, .both, .any, .word⟩

/-- DBG_AP_CTL (R641). -/
def rowDbgApCtl : RegRow :=
  ⟨0x01300400, [], [⟨0x70000700, 0x0, 0x0, (.const 0x0)⟩], .w_dbg, .r_dbg, .both, .any, .word⟩

/-- DBG_AP_ADDR (R641). -/
def rowDbgApAddr : RegRow :=
  ⟨0x01300408, [], [⟨0xFFFFFFFF, 0x0, 0x0, (.const 0x0)⟩, ⟨0xFFFFFFFF, 0x0, 0x0, (.const 0x0)⟩], .w_dbg, .r_dbg, .both, .any, .word⟩

/-- DBG_AP_DATA (R641). -/
def rowDbgApData : RegRow :=
  ⟨0x01300410, [], [⟨0xFFFFFFFF, 0x0, 0x0, (.const 0x0)⟩, ⟨0xFFFFFFFF, 0x0, 0x0, (.const 0x0)⟩], .w_dbg, .r_dbg, .both, .any, .word⟩

/-- DBG_THR_SEL (R642). -/
def rowDbgThrSel : RegRow :=
  ⟨0x01300500, [], [⟨0x7FFF, 0x0, 0x0, (.const 0x0)⟩], .w_dbg, .r_dbg, .both, .any, .word⟩

/-- DBG_THR_CTL (R642). -/
def rowDbgThrCtl : RegRow :=
  ⟨0x01300504, [], [⟨0x70000000, 0x0, 0x0, (.const 0x0)⟩], .w_dbg, .r_dbg, .both, .any, .word⟩

/-- DBG_THR_STAT (R642). -/
def rowDbgThrStat : RegRow :=
  ⟨0x01300508, [], [⟨0x0, 0x0, 0x0, (.const 0x0)⟩], .w_dbg, .r_dbg, .both, .any, .derived⟩

/-- DBG_BP (R643). -/
def rowDbgBp : RegRow :=
  ⟨0x01301000, [(16, 0x20), (8, 0x4)], [⟨0xFFFE7FFF, 0x0, 0x0, (.const 0x40000000)⟩], .w_dbg, .r_dbg, .both, .any, .word⟩

/-- DBG_WP (R643). -/
def rowDbgWp : RegRow :=
  ⟨0x01301200, [(16, 0x20), (4, 0x8)], [⟨0xFFFE00FF, 0x0, 0x0, (.const 0x40020000)⟩, ⟨0x0, 0x0, 0x0, (.const 0x0)⟩], .w_dbg, .r_dbg, .both, .any, .word⟩

/-- DBG_RACE_STAT (R644). -/
def rowDbgRaceStat : RegRow :=
  ⟨0x01301400, [(16, 0x4)], [⟨0x0, 0x0, 0x0, (.const 0x0)⟩], .w_dbg, .r_dbg, .both, .any, .word⟩

/-- DBG_HALT_CTL (R644). -/
def rowDbgHaltCtl : RegRow :=
  ⟨0x01301800, [], [⟨0x60000000, 0x0, 0x0, (.const 0x0)⟩], .w_dbg, .r_dbg, .both, .any, .word⟩

/-- DBG_HALT_AT (R644). -/
def rowDbgHaltAt : RegRow :=
  ⟨0x01301808, [], [⟨0xFFFFFFFF, 0x0, 0x0, (.const 0x0)⟩, ⟨0xFFFFFFFF, 0x0, 0x0, (.const 0x0)⟩], .w_dbg, .r_dbg, .both, .any, .word⟩

/-- DBG_RESET (R644). -/
def rowDbgReset : RegRow :=
  ⟨0x01301900, [], [⟨0x7FFF0000, 0x0, 0x0, (.const 0x0)⟩], .w_dbg, .r_dbg, .both, .any, .word⟩

/-- RACE_CLU_ENG (R43). -/
def rowRaceCluEng : RegRow :=
  ⟨0x01400100, [(16, 0x10000), (12, 0x4)], [⟨0x0, 0x0, 0x0, (.const 0x3FF0010)⟩], .w_none, .r_glob, .cold, .any, .word⟩

/-- RACE_EXC_CFG (R81). -/
def rowRaceExcCfg : RegRow :=
  ⟨0x01400200, [(16, 0x10000)], [⟨0x3F0007E, 0x0, 0x0, (.const 0x0)⟩], .w_p0, .r_glob, .both, .any, .word⟩

/-- RACE_EXC_CNT (R82). -/
def rowRaceExcCnt : RegRow :=
  ⟨0x01400300, [(16, 0x10000), (8, 0x8)], [⟨0x0, 0x0, 0x0, (.const 0x0)⟩, ⟨0x0, 0x0, 0x0, (.const 0x0)⟩], .w_none, .r_glob, .both, .any, .counter⟩

/-- RACE_REORDER_TMO (R175). -/
def rowRaceReorderTmo : RegRow :=
  ⟨0x01400400, [(16, 0x10000)], [⟨0xFFFF, 0x0, 0x0, (.const 0x1F40)⟩], .w_p0, .r_glob, .both, .v_reord, .word⟩

/-- RACE_ROB_STATUS (R176). -/
def rowRaceRobStatus : RegRow :=
  ⟨0x01400404, [(16, 0x10000)], [⟨0x0, 0x0, 0x0, (.const 0x0)⟩], .w_none, .r_glob, .both, .any, .derived⟩

/-- RACE_LATE_CNT (R177). -/
def rowRaceLateCnt : RegRow :=
  ⟨0x01400410, [(16, 0x10000)], [⟨0x0, 0x0, 0x0, (.const 0x0)⟩, ⟨0x0, 0x0, 0x0, (.const 0x0)⟩], .w_none, .r_glob, .both, .any, .counter⟩

/-- RACE_ORDREL_CNT (R177). -/
def rowRaceOrdrelCnt : RegRow :=
  ⟨0x01400418, [(16, 0x10000)], [⟨0x0, 0x0, 0x0, (.const 0x0)⟩, ⟨0x0, 0x0, 0x0, (.const 0x0)⟩], .w_none, .r_glob, .both, .any, .counter⟩

def blockTop : List RegRow :=
  [rowTopMode, rowTopStatus, rowTopModeGtc, rowTopGtc, rowTopOutctl, rowTopFwCtl, rowTopFwAddr, rowTopFwLen, rowTopFwStat, rowTopPwr, rowTopTalert, rowTopIocfg]

def blockRst : List RegRow :=
  [rowRstCause, rowRstQuiesceTmo, rowRstStorm, rowRstCnt, rowRstBlkDrop]

def blockUcs : List RegRow :=
  [rowUcsCfg, rowUcsModeNext, rowUcsPatchVersion, rowUcsPatchStatus, rowUcsPatchStaged, rowUcsRomVersion, rowUcsDrainTmo, rowUcsStest]

def blockTsk : List RegRow :=
  [rowTskCfg, rowTskDlyCfg, rowTskCommit, rowTskCommitStatus, rowTskStatus, rowTskDlyOcc, rowTskCnt, rowTskKa]

def blockPrs : List RegRow :=
  [rowPrsMalAct, rowPrsMalRing, rowPrsMalCnt, rowPrsNode]

def blockCls : List RegRow :=
  [rowClsVd, rowClsPortDom, rowClsDomOwner, rowClsPartRange, rowClsLpmQuota, rowClsCommit, rowClsCommitStatus, rowClsTcamStgKey, rowClsTcamStgMask, rowClsTcamStgAct0, rowClsTcamStgAct1, rowClsTcamStgRule, rowClsTcamStgOp, rowClsTcamStgOpstat, rowClsCnt, rowClsWprotCnt, rowClsLpmOcc, rowClsCent]

def blockMst : List RegRow :=
  [rowMstSeed, rowMstQuota, rowMstPquota, rowMstCommit, rowMstCommitStatus, rowMstHeld, rowMstTmo, rowMstExp, rowMstTring, rowMstTringDrop, rowMstJnlStatus, rowMstJnlSeq, rowMstJnlCnt, rowMstSliceStatus, rowMstCnt, rowMstLbRange, rowMstLbDom, rowMstLbWaddr, rowMstLbWdata, rowMstLbCnt, rowMstLbSvc]

def blockEmt : List RegRow :=
  [rowEmtSeed, rowEmtQuota, rowEmtCfg, rowEmtCommit, rowEmtCommitStatus, rowEmtAge, rowEmtLring, rowEmtLringDrop, rowEmtWalkStatus, rowEmtWalkCnt, rowEmtOcc, rowEmtHeld, rowEmtCnt]

def blockHop : List RegRow :=
  [rowHopPool, rowHopCommit, rowHopCommitStatus, rowHopCnt, rowHopHostFault, rowHopOwn, rowHopOwnUse, rowHopDropExhaust]

def blockQsh : List RegRow :=
  [rowQshRange, rowQshCommit, rowQshCommitStatus, rowQshHistCfg, rowQshTaccCtl, rowQshTaccStat, rowQshTaccAt, rowQshTaccData, rowQshCnt, rowQshWeirCnt]

def blockGate : List RegRow :=
  [rowGateStgCfg, rowGateStgEnt, rowGateCommit, rowGateCommitStatus, rowGateStatus, rowGateOversize, rowGateCnt]

def blockPort : List RegRow :=
  [rowPortCfg, rowPortCommit, rowPortCommitStatus, rowPortMac, rowPortClsmap, rowPortLanemap, rowPortPol, rowPortTsadj, rowPortStatus, rowPortMod, rowPortCnt]

def blockPtp : List RegRow :=
  [rowPtpCapture, rowPtpRate, rowPtpStep, rowPtpSet, rowPtpStat, rowPtpStatLast, rowPtpTsq, rowPtpTsqOvf, rowPtpPpsin, rowPtpPpsout, rowPtpFreqout, rowPtpTodTx, rowPtpTodRx, rowPtpEecCfg, rowPtpEecStat, rowPtpEecFoff]

def blockCnt : List RegRow :=
  [rowCntWin, rowCntStream, rowCntUserRead, rowCntSnapStat, rowCntCollCnt, rowCntSel, rowCntVal, rowCntOvf]

def blockEvr : List RegRow :=
  [rowEvrStatus, rowEvrFaultFirst, rowEvrFaultNext, rowEvrSecNext, rowEvrOptime, rowEvrPcyc, rowEvrClrNonce, rowEvrSecRefused, rowEvrHoldOvf, rowEvrInDrop, rowEvrClrFail]

def blockSaf : List RegRow :=
  [rowSafStatus, rowSafFault, rowSafCfg, rowSafAlive, rowSafLast, rowSafCnt]

def blockAge : List RegRow :=
  [rowAgePolicy, rowAgeSummary, rowAgeIsl, rowAgeDram]

def blockMnt : List RegRow :=
  [rowMntRun, rowMntAct, rowMntCnt]

def blockHst : List RegRow :=
  [rowHstPortOwn, rowHstProgRange, rowHstCommit, rowHstCommitStatus, rowHstBar0Win, rowHstDsub, rowHstLink, rowHstCmdq, rowHstRxq, rowHstTxq, rowHstIvec, rowHstIpend, rowHstBar2Win, rowHstDeny, rowHstPcnt]

def blockDbg : List RegRow :=
  [rowDbgStatus, rowDbgUnlock, rowDbgChal, rowDbgResp, rowDbgUfuse, rowDbgApCtl, rowDbgApAddr, rowDbgApData, rowDbgThrSel, rowDbgThrCtl, rowDbgThrStat, rowDbgBp, rowDbgWp, rowDbgRaceStat, rowDbgHaltCtl, rowDbgHaltAt, rowDbgReset]

def blockRace : List RegRow :=
  [rowRaceCluEng, rowRaceExcCfg, rowRaceExcCnt, rowRaceReorderTmo, rowRaceRobStatus, rowRaceLateCnt, rowRaceOrdrelCnt]

/-- Every register of R652. -/
def allRows : List RegRow :=
  blockTop ++ blockRst ++ blockUcs ++ blockTsk ++ blockPrs ++ blockCls ++ blockMst ++ blockEmt ++ blockHop ++ blockQsh ++ blockGate ++ blockPort ++ blockPtp ++ blockCnt ++ blockEvr ++ blockSaf ++ blockAge ++ blockMnt ++ blockHst ++ blockDbg ++ blockRace

/-- The register at an address: its row, array indices and word. -/
def findReg (a : Nat) : Option (RegRow × List Nat × Nat) :=
  allRows.findSome? fun r =>
    match r.locate a with
    | some (is, w) => some (r, is, w)
    | none => none

/-- A word of a seed that a cold reset loads from fuses (R255, R295; log 8): MST_SEED[i] is fuse i, EMT_SEED[r][i] fuse
16 + 2 r + i. -/
def fuseWord (a : Nat) : Option Word32 :=
  let half := fun (n : Nat) => BitVec.ofNat 32 ((Config.fuse n).toNat / 2 ^ (8 * (a % 8)))
  if 0x00600000 ≤ a ∧ a < 0x00600018 then some (half ((a - 0x00600000) / 8))
  else if 0x00700000 ≤ a ∧ a < 0x00700100 then some (half (16 + (a - 0x00700000) / 8))
  else none

/-- The word a register resets to. -/
def regDefault (a : Nat) : Word32 :=
  match fuseWord a with
  | some v => v
  | none =>
    match findReg a with
    | some (r, is, w) =>
      match r.words[w]? with
      | some x => BitVec.ofNat 32 (x.rst.value is)
      | none => 0
    | none => 0

/-! ### Addresses -/

def aTopMode : Nat := 0x00000000
def aTopStatus : Nat := 0x00000004
def aTopModeGtc : Nat := 0x00000008
def aTopGtc : Nat := 0x00000010
def aTopOutctl : Nat := 0x00000020
def aTopFwCtl : Nat := 0x00000100
def aTopFwAddr : Nat := 0x00000108
def aTopFwLen : Nat := 0x00000110
def aTopFwStat : Nat := 0x00000114
def aTopPwr : Nat := 0x00000200
def aTopTalert : Nat := 0x00000210
def aTopIocfg : Nat := 0x00000214
def aRstCause : Nat := 0x00100000
def aRstQuiesceTmo : Nat := 0x00100004
def aRstStorm : Nat := 0x00100008
def aRstCnt (i0 : Nat) : Nat := 0x00100100 + 0x8 * i0
def aRstBlkDrop : Nat := 0x00100200
def aUcsCfg (i0 : Nat) : Nat := 0x00200000 + 0x4 * i0
def aUcsModeNext (i0 : Nat) : Nat := 0x00200400 + 0x4 * i0
def aUcsPatchVersion (i0 : Nat) : Nat := 0x00200800 + 0x4 * i0
def aUcsPatchStatus : Nat := 0x00200C00
def aUcsPatchStaged : Nat := 0x00200C04
def aUcsRomVersion : Nat := 0x00200C08
def aUcsDrainTmo : Nat := 0x00200C0C
def aUcsStest (i0 : Nat) : Nat := 0x00201000 + 0x4 * i0
def aTskCfg (i0 : Nat) : Nat := 0x00300000 + 0x4 * i0
def aTskDlyCfg (i0 : Nat) : Nat := 0x00300040 + 0x4 * i0
def aTskCommit : Nat := 0x00300080
def aTskCommitStatus : Nat := 0x00300084
def aTskStatus (i0 : Nat) : Nat := 0x00300100 + 0x4 * i0
def aTskDlyOcc (i0 : Nat) : Nat := 0x00300180 + 0x4 * i0
def aTskCnt (i0 i1 : Nat) : Nat := 0x00300400 + 0x40 * i0 + 0x8 * i1
def aTskKa (i0 i1 : Nat) : Nat := 0x00310000 + 0x8000 * i0 + 0x8 * i1
def aPrsMalAct : Nat := 0x00400000
def aPrsMalRing : Nat := 0x00400004
def aPrsMalCnt (i0 i1 : Nat) : Nat := 0x00400400 + 0x80 * i0 + 0x8 * i1
def aPrsNode (i0 : Nat) : Nat := 0x00410000 + 0x40 * i0
def aClsVd (i0 i1 : Nat) : Nat := 0x00501000 + 0x40 * i0 + 0x10 * i1
def aClsPortDom (i0 : Nat) : Nat := 0x00502000 + 0x4 * i0
def aClsDomOwner : Nat := 0x00503000
def aClsPartRange (i0 : Nat) : Nat := 0x00503100 + 0x10 * i0
def aClsLpmQuota (i0 : Nat) : Nat := 0x00503140 + 0x4 * i0
def aClsCommit : Nat := 0x00503200
def aClsCommitStatus : Nat := 0x00503204
def aClsTcamStgKey (i0 i1 : Nat) : Nat := 0x00504000 + 0x100 * i0 + 0x4 * i1
def aClsTcamStgMask (i0 i1 : Nat) : Nat := 0x00504050 + 0x100 * i0 + 0x4 * i1
def aClsTcamStgAct0 (i0 : Nat) : Nat := 0x005040A0 + 0x100 * i0
def aClsTcamStgAct1 (i0 : Nat) : Nat := 0x005040A4 + 0x100 * i0
def aClsTcamStgRule (i0 : Nat) : Nat := 0x005040A8 + 0x100 * i0
def aClsTcamStgOp (i0 : Nat) : Nat := 0x005040AC + 0x100 * i0
def aClsTcamStgOpstat (i0 : Nat) : Nat := 0x005040B0 + 0x100 * i0
def aClsCnt (i0 i1 : Nat) : Nat := 0x00505000 + 0x40 * i0 + 0x8 * i1
def aClsWprotCnt (i0 : Nat) : Nat := 0x00505400 + 0x8 * i0
def aClsLpmOcc (i0 : Nat) : Nat := 0x00505500 + 0x8 * i0
def aClsCent (i0 : Nat) : Nat := 0x00580000 + 0x4 * i0
def aMstSeed (i0 : Nat) : Nat := 0x00600000 + 0x8 * i0
def aMstQuota (i0 : Nat) : Nat := 0x00600040 + 0x4 * i0
def aMstPquota (i0 : Nat) : Nat := 0x00600050 + 0x4 * i0
def aMstCommit : Nat := 0x00600060
def aMstCommitStatus : Nat := 0x00600064
def aMstHeld (i0 : Nat) : Nat := 0x00600080 + 0x8 * i0
def aMstTmo (i0 i1 : Nat) : Nat := 0x00600100 + 0x20 * i0 + 0x4 * i1
def aMstExp (i0 : Nat) : Nat := 0x00600200 + 0x4 * i0
def aMstTring (i0 : Nat) : Nat := 0x00600300 + 0x20 * i0
def aMstTringDrop (i0 : Nat) : Nat := 0x00600380 + 0x8 * i0
def aMstJnlStatus : Nat := 0x00600400
def aMstJnlSeq : Nat := 0x00600408
def aMstJnlCnt (i0 : Nat) : Nat := 0x00600410 + 0x8 * i0
def aMstSliceStatus (i0 : Nat) : Nat := 0x00601000 + 0x8 * i0
def aMstCnt (i0 i1 : Nat) : Nat := 0x00602000 + 0x40 * i0 + 0x8 * i1
def aMstLbRange (i0 : Nat) : Nat := 0x00604000 + 0x4 * i0
def aMstLbDom : Nat := 0x00604010
def aMstLbWaddr (i0 : Nat) : Nat := 0x00604040 + 0x10 * i0
def aMstLbWdata (i0 : Nat) : Nat := 0x00604048 + 0x10 * i0
def aMstLbCnt (i0 i1 : Nat) : Nat := 0x00604100 + 0x20 * i0 + 0x8 * i1
def aMstLbSvc (i0 : Nat) : Nat := 0x00605000 + 0x4 * i0
def aEmtSeed (i0 i1 : Nat) : Nat := 0x00700000 + 0x10 * i0 + 0x8 * i1
def aEmtQuota (i0 : Nat) : Nat := 0x00700100 + 0x4 * i0
def aEmtCfg : Nat := 0x00700110
def aEmtCommit : Nat := 0x00700118
def aEmtCommitStatus : Nat := 0x0070011C
def aEmtAge (i0 : Nat) : Nat := 0x00700130 + 0x4 * i0
def aEmtLring (i0 : Nat) : Nat := 0x00700200 + 0x20 * i0
def aEmtLringDrop (i0 : Nat) : Nat := 0x00700280 + 0x8 * i0
def aEmtWalkStatus (i0 : Nat) : Nat := 0x00700300 + 0x4 * i0
def aEmtWalkCnt (i0 i1 : Nat) : Nat := 0x00700320 + 0x20 * i0 + 0x8 * i1
def aEmtOcc (i0 : Nat) : Nat := 0x00700400 + 0x4 * i0
def aEmtHeld (i0 i1 : Nat) : Nat := 0x00700500 + 0x40 * i0 + 0x4 * i1
def aEmtCnt (i0 i1 : Nat) : Nat := 0x00701000 + 0x40 * i0 + 0x8 * i1
def aHopPool : Nat := 0x00800000
def aHopCommit : Nat := 0x00800020
def aHopCommitStatus : Nat := 0x00800024
def aHopCnt (i0 : Nat) : Nat := 0x00800100 + 0x8 * i0
def aHopHostFault (i0 : Nat) : Nat := 0x00800180 + 0x8 * i0
def aHopOwn (i0 : Nat) : Nat := 0x00810000 + 0x10 * i0
def aHopOwnUse (i0 : Nat) : Nat := 0x00830000 + 0x10 * i0
def aHopDropExhaust (i0 : Nat) : Nat := 0x00850000 + 0x8 * i0
def aQshRange (i0 : Nat) : Nat := 0x00900000 + 0x20 * i0
def aQshCommit : Nat := 0x00900080
def aQshCommitStatus : Nat := 0x00900084
def aQshHistCfg : Nat := 0x00900088
def aQshTaccCtl (i0 : Nat) : Nat := 0x00900100 + 0x80 * i0
def aQshTaccStat (i0 : Nat) : Nat := 0x00900104 + 0x80 * i0
def aQshTaccAt (i0 : Nat) : Nat := 0x00900108 + 0x80 * i0
def aQshTaccData (i0 i1 : Nat) : Nat := 0x00900120 + 0x80 * i0 + 0x4 * i1
def aQshCnt (i0 i1 : Nat) : Nat := 0x00901000 + 0x40 * i0 + 0x8 * i1
def aQshWeirCnt (i0 i1 : Nat) : Nat := 0x00901400 + 0x20 * i0 + 0x8 * i1
def aGateStgCfg (i0 : Nat) : Nat := 0x00A00000 + 0x1000 * i0
def aGateStgEnt (i0 i1 : Nat) : Nat := 0x00A00800 + 0x1000 * i0 + 0x8 * i1
def aGateCommit (i0 : Nat) : Nat := 0x00A04000 + 0x8 * i0
def aGateCommitStatus (i0 : Nat) : Nat := 0x00A04004 + 0x8 * i0
def aGateStatus (i0 : Nat) : Nat := 0x00A08000 + 0x10 * i0
def aGateOversize (i0 : Nat) : Nat := 0x00A0A000 + 0x8 * i0
def aGateCnt (i0 i1 : Nat) : Nat := 0x00A0B000 + 0x20 * i0 + 0x8 * i1
def aPortCfg (i0 : Nat) : Nat := 0x00B00000 + 0x4 * i0
def aPortCommit (i0 : Nat) : Nat := 0x00B00800 + 0x8 * i0
def aPortCommitStatus (i0 : Nat) : Nat := 0x00B00804 + 0x8 * i0
def aPortMac (i0 : Nat) : Nat := 0x00B01000 + 0x8 * i0
def aPortClsmap (i0 : Nat) : Nat := 0x00B04000 + 0x20 * i0
def aPortLanemap (i0 : Nat) : Nat := 0x00B08000 + 0x4 * i0
def aPortPol (i0 : Nat) : Nat := 0x00B08800 + 0x4 * i0
def aPortTsadj (i0 : Nat) : Nat := 0x00B09000 + 0x8 * i0
def aPortStatus (i0 : Nat) : Nat := 0x00B0A000 + 0x4 * i0
def aPortMod (i0 : Nat) : Nat := 0x00B0C000 + 0x10 * i0
def aPortCnt (i0 i1 : Nat) : Nat := 0x00B10000 + 0x80 * i0 + 0x8 * i1
def aPtpCapture : Nat := 0x00C00000
def aPtpRate : Nat := 0x00C00020
def aPtpStep : Nat := 0x00C00030
def aPtpSet : Nat := 0x00C00040
def aPtpStat : Nat := 0x00C00050
def aPtpStatLast : Nat := 0x00C00058
def aPtpTsq (i0 : Nat) : Nat := 0x00C00100 + 0x20 * i0
def aPtpTsqOvf (i0 : Nat) : Nat := 0x00C00200 + 0x8 * i0
def aPtpPpsin : Nat := 0x00C00300
def aPtpPpsout : Nat := 0x00C00340
def aPtpFreqout : Nat := 0x00C00348
def aPtpTodTx : Nat := 0x00C00360
def aPtpTodRx : Nat := 0x00C00380
def aPtpEecCfg : Nat := 0x00C00400
def aPtpEecStat : Nat := 0x00C00404
def aPtpEecFoff : Nat := 0x00C00408
def aCntWin : Nat := 0x00D00000
def aCntStream (i0 i1 : Nat) : Nat := 0x00D00100 + 0x20 * i0 + 0x10 * i1
def aCntUserRead (i0 : Nat) : Nat := 0x00D00200 + 0x4 * i0
def aCntSnapStat : Nat := 0x00D00300
def aCntCollCnt (i0 : Nat) : Nat := 0x00D00400 + 0x8 * i0
def aCntSel (i0 i1 : Nat) : Nat := 0x00D10000 + 0x40 * i0 + 0x4 * i1
def aCntVal (i0 i1 : Nat) : Nat := 0x00D20000 + 0x80 * i0 + 0x8 * i1
def aCntOvf (i0 : Nat) : Nat := 0x00D30000 + 0x4 * i0
def aEvrStatus : Nat := 0x00E00000
def aEvrFaultFirst : Nat := 0x00E00008
def aEvrFaultNext : Nat := 0x00E00010
def aEvrSecNext : Nat := 0x00E00018
def aEvrOptime : Nat := 0x00E00020
def aEvrPcyc : Nat := 0x00E00024
def aEvrClrNonce : Nat := 0x00E00040
def aEvrSecRefused : Nat := 0x00E00100
def aEvrHoldOvf : Nat := 0x00E00108
def aEvrInDrop : Nat := 0x00E00110
def aEvrClrFail : Nat := 0x00E00118
def aSafStatus : Nat := 0x00F00000
def aSafFault : Nat := 0x00F00004
def aSafCfg : Nat := 0x00F00010
def aSafAlive : Nat := 0x00F00014
def aSafLast : Nat := 0x00F00020
def aSafCnt (i0 : Nat) : Nat := 0x00F00100 + 0x8 * i0
def aAgePolicy : Nat := 0x01000000
def aAgeSummary : Nat := 0x01000004
def aAgeIsl (i0 : Nat) : Nat := 0x01000100 + 0x8 * i0
def aAgeDram (i0 : Nat) : Nat := 0x01001000 + 0x4 * i0
def aMntRun : Nat := 0x01100000
def aMntAct (i0 : Nat) : Nat := 0x01100110 + 0x10 * i0
def aMntCnt (i0 : Nat) : Nat := 0x01100400 + 0x8 * i0
def aHstPortOwn (i0 : Nat) : Nat := 0x01200000 + 0x4 * i0
def aHstProgRange (i0 : Nat) : Nat := 0x01200080 + 0x4 * i0
def aHstCommit : Nat := 0x01200100
def aHstCommitStatus : Nat := 0x01200104
def aHstBar0Win : Nat := 0x01200110
def aHstDsub (i0 : Nat) : Nat := 0x01200140 + 0x8 * i0
def aHstLink (i0 : Nat) : Nat := 0x01200200 + 0x4 * i0
def aHstCmdq (i0 i1 : Nat) : Nat := 0x01210000 + 0x10000 * i0 + 0x40 * i1
def aHstRxq (i0 i1 : Nat) : Nat := 0x01211000 + 0x10000 * i0 + 0x20 * i1
def aHstTxq (i0 i1 : Nat) : Nat := 0x01212000 + 0x10000 * i0 + 0x20 * i1
def aHstIvec (i0 i1 : Nat) : Nat := 0x01213000 + 0x10000 * i0 + 0x4 * i1
def aHstIpend (i0 i1 : Nat) : Nat := 0x01213400 + 0x10000 * i0 + 0x4 * i1
def aHstBar2Win (i0 : Nat) : Nat := 0x01213800 + 0x10000 * i0
def aHstDeny (i0 : Nat) : Nat := 0x01213810 + 0x10000 * i0
def aHstPcnt (i0 i1 : Nat) : Nat := 0x01213900 + 0x10000 * i0 + 0x8 * i1
def aDbgStatus : Nat := 0x01300000
def aDbgUnlock : Nat := 0x01300004
def aDbgChal (i0 : Nat) : Nat := 0x01300100 + 0x4 * i0
def aDbgResp (i0 : Nat) : Nat := 0x01300200 + 0x4 * i0
def aDbgUfuse (i0 : Nat) : Nat := 0x01300300 + 0x4 * i0
def aDbgApCtl : Nat := 0x01300400
def aDbgApAddr : Nat := 0x01300408
def aDbgApData : Nat := 0x01300410
def aDbgThrSel : Nat := 0x01300500
def aDbgThrCtl : Nat := 0x01300504
def aDbgThrStat : Nat := 0x01300508
def aDbgBp (i0 i1 : Nat) : Nat := 0x01301000 + 0x20 * i0 + 0x4 * i1
def aDbgWp (i0 i1 : Nat) : Nat := 0x01301200 + 0x20 * i0 + 0x8 * i1
def aDbgRaceStat (i0 : Nat) : Nat := 0x01301400 + 0x4 * i0
def aDbgHaltCtl : Nat := 0x01301800
def aDbgHaltAt : Nat := 0x01301808
def aDbgReset : Nat := 0x01301900
def aRaceCluEng (i0 i1 : Nat) : Nat := 0x01400100 + 0x10000 * i0 + 0x4 * i1
def aRaceExcCfg (i0 : Nat) : Nat := 0x01400200 + 0x10000 * i0
def aRaceExcCnt (i0 i1 : Nat) : Nat := 0x01400300 + 0x10000 * i0 + 0x8 * i1
def aRaceReorderTmo (i0 : Nat) : Nat := 0x01400400 + 0x10000 * i0
def aRaceRobStatus (i0 : Nat) : Nat := 0x01400404 + 0x10000 * i0
def aRaceLateCnt (i0 : Nat) : Nat := 0x01400410 + 0x10000 * i0
def aRaceOrdrelCnt (i0 : Nat) : Nat := 0x01400418 + 0x10000 * i0

end Sys2Proof.Machine
end

