-- ==== Sys2Proof/Machine/Acc.lean ====
section
/-! DEFINITION. Access to the parts of State: one reader and one writer for each map, and the counters. -/

namespace Sys2Proof.Machine

open Sys2Proof

/-! ### Numbers of threads and clusters -/

/-- A thread's number: ((race * 12 + cluster) * 17 + engine) * 4 + thread. -/
def thrNum (t : ThreadId) : Nat :=
  ((t.race.val * 12 + t.cluster.val) * 17 + t.engine.val) * 4 + t.thread.val

/-- The engine number of a thread number. -/
def engOf (n : Nat) : Nat := n / 4
/-- The cluster number k = 12 * race + cluster (R93). -/
def cluOf (n : Nat) : Nat := n / 68
def raceOf (n : Nat) : Nat := n / 816

def dThread : Nat → Thread := fun _ => {}
def dCluster : Nat → Cluster := fun _ => {}
def dRace : Nat → Race := fun _ => {}
def dPacket : Nat → Packet := fun _ => {}
def dVSlot : Nat → VSlot := fun _ => {}
def dRule : Nat → Rule := fun _ => {}

def State.thr (s : State) (n : Nat) : Thread := mget dThread s.threads n
def State.setThr (s : State) (n : Nat) (t : Thread) : State :=
  { s with threads := mset dThread s.threads n t }

def State.clu (s : State) (k : Nat) : Cluster := mget dCluster s.clusters k
def State.setClu (s : State) (k : Nat) (c : Cluster) : State :=
  { s with clusters := mset dCluster s.clusters k c }

def State.race (s : State) (r : Nat) : Race := mget dRace s.races r
def State.setRace (s : State) (r : Nat) (x : Race) : State :=
  { s with races := mset dRace s.races r x }

def State.pkt (s : State) (p : Nat) : Packet := mget dPacket s.pkts p
def State.setPkt (s : State) (p : Nat) (x : Packet) : State :=
  { s with pkts := mset dPacket s.pkts p x }

/-- Version slot `v` of domain `d`. -/
def State.vslot (s : State) (d v : Nat) : VSlot := mget dVSlot s.cls.vers (d * 4 + v)
def State.setVslot (s : State) (d v : Nat) (x : VSlot) : State :=
  { s with cls := { s.cls with vers := mset dVSlot s.cls.vers (d * 4 + v) x } }

def State.rule (s : State) (r i : Nat) : Rule := mget dRule s.cls.tcam (r * 16384 + i)
def State.setRule (s : State) (r i : Nat) (x : Rule) : State :=
  { s with cls := { s.cls with tcam := mset dRule s.cls.tcam (r * 16384 + i) x } }

/-! ### Registers and counters -/

/-- A register word: for RWS fields the staging copy (R476). -/
def State.reg (s : State) (a : Nat) : Word32 := mget regDefault s.regs a
def State.regN (s : State) (a : Nat) : Nat := (s.reg a).toNat
def State.setReg (s : State) (a : Nat) (v : Word32) : State :=
  { s with regs := mset regDefault s.regs a v }
def State.setRegN (s : State) (a v : Nat) : State := s.setReg a (BitVec.ofNat 32 v)

/-- A field of a register. -/
def State.fld (s : State) (a lo w : Nat) : Nat := bitsOf (s.regN a) lo w
def State.setFld (s : State) (a lo w v : Nat) : State := s.setRegN a (putBits (s.regN a) lo w v)

/-- A word of the committed set of the RWS fields (R477). -/
def State.com (s : State) (a : Nat) : Nat := (mget regDefault s.committed a).toNat
def State.cfld (s : State) (a lo w : Nat) : Nat := bitsOf (s.com a) lo w
def State.setCom (s : State) (a : Nat) (v : Word32) : State :=
  { s with committed := mset regDefault s.committed a v }

/-- A 48-bit counter by its address. -/
def State.count (s : State) (a : Nat) : Nat := mget zeroN s.cnt a

/-- The GTC copy of an island: the master plus its offset (R22). -/
def State.islGtc (s : State) (i : Nat) : Nat :=
  max ((s.clk.gtc : Int) + mget (fun _ => (0 : Int)) s.clk.isl i).toNat (mget zeroN s.clk.hold i)

/-- Is the counter window open for unit u (R527), by the island's copy of the GTC? -/
def State.inWindow (s : State) (u : Nat) : Bool :=
  decide (s.coll.winStart ≤ s.islGtc u ∧ s.islGtc u < s.coll.winStop)

/-- Add to programmable counter i of unit u: it wraps, and its overflow bit is set (R524); frozen counters do not
change (R537). -/
def State.progAdd (s : State) (u i n : Nat) : State :=
  let a := aCntVal u i
  let v := s.count a + n
  if s.clk.frozen ∨ n = 0 then s
  else
    let s := { s with cnt := mset zeroN s.cnt a (v % 2 ^ 48) }
    if v < 2 ^ 48 then s else s.setRegN (aCntOvf u) (s.regN (aCntOvf u) ||| 2 ^ i)

/-- The enabled programmable counters of unit u: index and CNT_SEL (its reset value, 0, is disabled). -/
def State.selected (s : State) (u : Nat) : List (Nat × Nat) :=
  (s.regs.filter (fun e => decide (aCntSel u 0 ≤ e.1 ∧ e.1 < aCntSel u 16 ∧ 2 ^ 31 ≤ e.2.toNat))).map
    fun e => ((e.1 - aCntSel u 0) / 4, e.2.toNat)

/-- `n` occurrences of an event in unit u: counters that count it in MODE 0 add them (R525, R526). -/
def State.occur (s : State) (u ev n : Nat) : State :=
  (s.selected u).foldl (fun s e =>
    if bitsOf e.2 28 2 = 0 ∧ bitsOf e.2 16 10 = ev ∧ (bitOf e.2 30 = false ∨ s.inWindow u) then s.progAdd u e.1 n
    else s) s

/-- The event of R526 that a fixed counter also counts, with its unit: frames received and sent, codewords
corrected, bytes transmitted, slots lost, flow operations and misses, NO-CELL outcomes, meter operations, packets
spilled. -/
def eventOf (a : Nat) : Option (Nat × Nat) :=
  if aPortCnt 0 0 ≤ a ∧ a < aPortCnt 512 0 then
    let n := (a - aPortCnt 0 0) / 0x80
    match (a - aPortCnt 0 0) % 0x80 / 8 with
    | 0 => some (n / 8, 0x010)
    | 8 => some (n / 8, 0x011)
    | 9 => some (89 + n / 32, 0x011)
    | 12 => some (n / 8, 0x012)
    | _ => none
  else if aMstCnt 0 0 ≤ a ∧ a < aMstCnt 32 0 then
    let k := (a - aMstCnt 0 0) / 0x40
    match (a - aMstCnt 0 0) % 0x40 / 8 with
    | 0 => some (80 + k / 8, 0x010)
    | 2 => some (80 + k / 8, 0x011)
    | _ => none
  else if aHopCnt 0 ≤ a ∧ a < aHopCnt 4 then some (88, 0x012)
  else if aQshWeirCnt 0 0 ≤ a ∧ a < aQshWeirCnt 4 0 then some (88, 0x013)
  else if aQshCnt 0 0 ≤ a ∧ a < aQshCnt 16 0 ∧ (a - aQshCnt 0 0) % 0x40 = 48 then
    some (89 + (a - aQshCnt 0 0) / 0x40, 0x012)
  else if aRaceLateCnt 0 ≤ a ∧ (a - aRaceLateCnt 0) % 0x10000 = 0 ∧ a < aRaceLateCnt 16 then
    some (64 + (a - aRaceLateCnt 0) / 0x10000, 0x014)
  else none

/-- Count `n` happenings: counters saturate at 2^48 - 1 (R10 registers of access RO); frozen counters do not
change (R537). Bytes transmitted count by 64 (R526). -/
def State.bump (s : State) (a n : Nat) : State :=
  if s.clk.frozen then s
  else
    let v := s.count a
    let t := { s with cnt := mset zeroN s.cnt a (min (2 ^ 48 - 1) (v + n)) }
    match eventOf a with
    | some (u, ev) => t.occur u ev (if 89 ≤ u ∧ ev = 0x011 then (v + n) / 64 - v / 64 else n)
    | none => t

/-- A register word that counts and wraps at 32 bits. -/
def State.bumpReg (s : State) (a : Nat) : State := s.setReg a (s.reg a + 1)

/-! ### Time and free values -/

/-- Island of race r, in the order of R14: octets 0 to 63, races 64 to 79, flow 80 to 83, DRAM 84 to 87,
Hopper 88, Tailraces 89 to 104, host 105, Windshaft 106. -/
def islRace (r : Nat) : Nat := 64 + r
def islFlow (i : Nat) : Nat := 80 + i
def islHost : Nat := 105

/-- The next free value, and the state that has used it (log 7). -/
def State.freeVal (s : State) : Word64 := Config.freeWord s.clk.free
def State.useFree (s : State) : State := { s with clk := { s.clk with free := s.clk.free + 1 } }

/-! ### Modes -/

/-- Races, Millstone, Hopper and Tailraces run. They are stopped in HALT, SAFE and RESTART, in a start, and in
RECOVERY (R501, R513, R566, R635). -/
def State.runs (s : State) : Bool :=
  match s.top.mode with
  | .ready | .service | .degraded | .test => true
  | _ => false

/-- A block reset of this island is under way (R497, R515): 0 race, 1 flow island, 2 Tailrace, 3 octet, 4 Hopper. -/
def State.blkOn (s : State) (kind i : Nat) : Bool :=
  match s.top.blk with
  | some b => b.kind = kind && b.index = i
  | none => false

/-- Isolated (R564), or in a block reset (R497, R515). -/
def State.blockOff (s : State) (kind i : Nat) : Bool := s.top.isolated.contains (kind, i) || s.blkOn kind i

/-- Frames enter and leave (R409, R513). -/
def State.serves (s : State) : Bool :=
  match s.top.mode with
  | .service | .degraded => true
  | _ => false

end Sys2Proof.Machine
end

