-- ==== Sys2Proof/Machine/Services.lean ====
section
/-! DEFINITION. What every unit raises: event records (R539 to R544), interrupt sources (R474, R475), safety
events (R565), the mode change (R516), and coverage (R568). -/

namespace Sys2Proof.Machine

open Sys2Proof

/-! ### Interrupts -/

def linkDown0 : Nat → Bool := fun _ => false

/-- Is the PCIe link of endpoint p up (R450)? -/
def State.linkUp (s : State) (p : Nat) : Bool := mget linkDown0 s.link p
def State.setLink (s : State) (p : Nat) (b : Bool) : State :=
  { s with link := mset linkDown0 s.link p b }

/-- Raise source `src` in partition `p`: the pending bit is set, and the vector is sent when the bit goes from
0 to 1 while the source is enabled and the link is up (R475). -/
def State.irq (s : State) (p src : Nat) : State :=
  let a := aHstIpend p (src / 32)
  let was := bitOf (s.regN a) (src % 32)
  let s1 := s.setRegN a (s.regN a ||| 2 ^ (src % 32))
  let vec := s.regN (aHstIvec p src)
  if !was && bitOf vec 31 && s.linkUp p then { s1 with msix := s1.msix ++ [(p, vec % 256)] } else s1

/-- Raise a source in every partition. -/
def State.irqAll (s : State) (src : Nat) : State :=
  (((s.irq 0 src).irq 1 src).irq 2 src).irq 3 src

/-! ### Event records -/

/-- The island of a source (R14, R24). Pair numbers, the debug port, the reset controller and the arbiter belong to
Windshaft's. -/
def srcIsland (src : Nat) : Nat :=
  if src < 0x200 then 64 + src / 32
  else if src < 0x220 then 80 + (src - 0x200) / 8
  else if src < 0x224 then 84 + (src - 0x220)
  else if src < 0x240 then 88
  else if src < 0x250 then 89 + (src - 0x240)
  else if 0x280 ≤ src ∧ src < 0x2C0 then src - 0x280
  else if 0x300 ≤ src ∧ src < 0x305 then 105
  else 106

/-- A record, stamped with its island's copy of the GTC (R25), enters the recorder's input queue of 1024; a fault
record that finds it full is dropped and counted, a security record waits (R544). After the power-fail warning it
accepts nothing (R583). -/
def State.event (s : State) (src code detail : Nat) : State :=
  let r : EvRec := { src := src, code := code, detail := detail, gtc := s.islGtc (srcIsland src), secs := s.evr.optime,
                     pcyc := s.evr.pcyc }
  if s.top.pfail then s
  else if code < 0x8000 ∧ (s.evr.inq.filter (fun e => e.code < 0x8000)).length ≥ 1024 then
    s.bump aEvrInDrop 1
  else { s with evr := { s.evr with inq := s.evr.inq ++ [r] } }

/-- A record of a code whose DETAIL the manual leaves open: a free value (log 7). -/
def State.eventAny (s : State) (src code : Nat) : State := s.useFree.event src code s.freeVal.toNat

def srcSluice (r : Nat) : Nat := 32 * r
def srcCluster (r c : Nat) : Nat := 32 * r + 8 + c
def srcSlice (i : Nat) : Nat := 0x200 + i
def srcHopper : Nat := 0x230
def srcDram (i : Nat) : Nat := 0x220 + i
def srcWeir : Nat := 0x231
def srcTailrace (t : Nat) : Nat := 0x240 + t
def srcOctet (k : Nat) : Nat := 0x280 + k
def srcHost (p : Nat) : Nat := 0x300 + p
def srcCollector : Nat := 0x304
/-- Windshaft's events carry the number of pair 0: the manual does not say which of the four pairs originates one
(log 100). -/
def srcWindshaft : Nat := 0x380
def srcEosta : Nat := 0x3F0
def srcReset : Nat := 0x3F1
def srcArbiter : Nat := 0x3F2

/-- The event order key (R25). -/
def ekey (gtc src : Nat) : Nat := gtc * 4096 + src

/-- An alert cause arises (R616): its bit of LATCH is set, and ALERT_N goes low when it rises unmasked. -/
def State.alertCause (s : State) (b : Nat) : State :=
  let x := s.smb
  let drive := !bitOf x.latch b && bitOf x.mask b
  { s with smb := { x with latch := x.latch ||| 2 ^ b, alert := x.alert || drive } }

/-- A safety event (R565): a record, its bit of SAF_FAULT, its counter, source 137 in every partition, SAF_LAST. -/
def State.safety (s : State) (src code detail bit : Nat) : State :=
  let s := s.event src code detail
  let s := s.setRegN aSafFault (s.regN aSafFault ||| 2 ^ bit)
  let s := s.bump (aSafCnt bit) 1
  let s := s.setRegN (aSafLast) (code % 65536 + (src % 4096) * 65536)
  let s := s.setRegN (aSafLast + 4) (s.clk.gtc % 2 ^ 32)
  let s := s.setRegN (aSafLast + 8) (s.clk.gtc / 2 ^ 32 % 2 ^ 32)
  (s.irqAll 137).alertCause 2

/-- SAF_STATUS.COVERAGE_REDUCED and its cause bit, with event 0x0260 (R568). -/
def State.coverage (s : State) (cause : Nat) : State :=
  let v := s.regN aSafStatus
  let s1 := s.setRegN aSafStatus (v ||| 2 ^ 31 ||| 2 ^ (27 + cause))
  if bitOf v (27 + cause) then s1 else s1.event srcWindshaft 0x0260 (2 ^ cause)

/-- A cause of reduced coverage ends: its CAUSES bit clears, the sticky bit stays (R589). -/
def State.coverageEnd (s : State) (cause : Nat) : State :=
  s.setRegN aSafStatus (putBits (s.regN aSafStatus) (27 + cause) 1 0)

/-! ### Modes -/

def modeCode : Mode → Nat
  | .cold => 0
  | .trim => 1
  | .boot => 2
  | .recovery => 3
  | .ready => 4
  | .service => 5
  | .degraded => 6
  | .restart => 7
  | .safe => 8
  | .commit => 9
  | .halt => 10
  | .test => 11

/-- An unlocked debug session reduces coverage while the mode is SERVICE (R568). -/
def State.debugCover (s : State) : State :=
  match s.top.mode with
  | .service => if s.dbg.level = 0 then s.coverageEnd 0 else s.coverage 0
  | _ => s.coverageEnd 0

/-- A mode change: TOP_MODE, TOP_MODE_GTC, event 0x0002 and source 136 in every partition (R516, R474). -/
def State.setMode (s : State) (m : Mode) : State :=
  if s.top.mode = m then s
  else
    let fresh := !s.runs && s.top.mode != .halt && m != .halt
    let s := { s with top := { s.top with
      prev := s.top.mode, mode := m, modeGtc := s.clk.gtc
      resumeGtc := if fresh then s.clk.gtc else s.top.resumeGtc } }
    let s := (s.eventAny srcReset 0x0002).irqAll 136
    let s := s.debugCover
    if m = .safe ∨ m = .recovery then s.alertCause 3 else s

/-- SAF_STATUS.LAST_REACTION: A to E as 1 to 5 (R589). -/
def State.reacted (s : State) (x : Nat) : State := s.setFld aSafStatus 24 3 x

/-- The safety monitor decides on reaction C, D where SAF_CFG.ISO_EN is 0 (R563, R564). -/
def State.dueC (s : State) (code kind index : Nat) : State :=
  let d : Due := { blockReaction := bitOf (s.regN aSafCfg) 31, code := code, kind := kind, index := index }
  { s with saf := { s.saf with due := s.saf.due ++ [d] } }

/-- It decides on reaction D. -/
def State.dueD (s : State) (code : Nat) : State :=
  { s with saf := { s.saf with due := s.saf.due ++ [{ blockReaction := false, code := code }] } }

/-- SERVICE becomes DEGRADED; `bit` is the cause bit of TOP_STATUS (R517, R563). -/
def State.degrade (s : State) (bit : Nat) : State :=
  let s := s.setRegN aTopStatus (s.regN aTopStatus ||| 2 ^ bit)
  if s.top.mode = .service then s.setMode .degraded else s

end Sys2Proof.Machine
end

