-- ==== Sys2Proof/Machine/HostIf.lean ====
section
/-! DEFINITION. The host side of commands: refusals (R458), command rings, starts and completions (R459 to R467),
and host memory. -/

namespace Sys2Proof.Machine

open Sys2Proof

/-! ### Status codes (R467) -/

def stOk : Nat := 0
def stBusy : Nat := 1
def stConflict : Nat := 2
def stReject : Nat := 3
def stNotFound : Nat := 4
def stFull : Nat := 5
def stEmpty : Nat := 6
def stDenied : Nat := 7
def stAborted : Nat := 8
def stTimeout : Nat := 9
def stBadCmd : Nat := 10

/-! ### Refusals -/

/-- HST_DENY records a refusal: 1 register read, 2 write, 3 BAR2, 4 command, 5 DMA descriptor (R458, R492). -/
def State.deny (s : State) (p kind addr : Nat) : State :=
  let a := aHstDeny p
  let s := s.bumpReg a
  let s := s.setRegN (a + 4) (addr % 2 ^ 32)
  let s := s.setRegN (a + 8) (addr / 2 ^ 32 % 2 ^ 32)
  let s := s.setRegN (a + 12) kind
  (s.bump (aHstPcnt p 6) 1).irq p 132

/-! ### Host memory -/

/-- Key of a byte of the host memory behind endpoint p. -/
def hostKey (p a : Nat) : Nat := p * 2 ^ 64 + a % 2 ^ 64

def State.hostRead (s : State) (p a n : Nat) : List Byte := getBytes s.mems.host (hostKey p a) n
def State.hostLe (s : State) (p a n : Nat) : Nat := leNat (s.hostRead p a n)
def State.hostWrite (s : State) (p a : Nat) (l : List Byte) : State :=
  { s with mems := { s.mems with host := setBytes s.mems.host (hostKey p a) l } }.occur 105 0x011 ((l.length + 63) / 64)

/-- `n` bytes of host memory have been read by DMA (R526; log 107). -/
def State.dmaRead (s : State) (n : Nat) : State := s.occur 105 0x011 ((n + 63) / 64)

/-! ### Command rings -/

def dCmdRing : Nat → CmdRing := fun _ => {}
def State.ring (s : State) (p i : Nat) : CmdRing := mget dCmdRing s.host.rings (4 * p + i)
def State.setCmdRing (s : State) (p i : Nat) (r : CmdRing) : State :=
  { s with host := { s.host with rings := mset dCmdRing s.host.rings (4 * p + i) r } }

/-- Entries of a ring: 2^LOG2SIZE. -/
def State.cmdSize (s : State) (p i : Nat) : Nat := 2 ^ s.fld (aHstCmdq p i + 16) 0 4
def State.cmdOn (s : State) (p i : Nat) : Bool := bitOf (s.regN (aHstCmdq p i + 16)) 31
def State.cmdPi (s : State) (p i : Nat) : Nat := s.regN (aHstCmdq p i + 20)
def State.cmdCi (s : State) (p i : Nat) : Nat := s.regN (aHstCmdq p i + 24)
def State.cmdCh (s : State) (p i : Nat) : Nat := s.regN (aHstCmdq p i + 28)

/-- A partition reset of p is under way (R482). -/
def State.inPreset (s : State) (p : Nat) : Bool := mget zeroN s.host.preset p ≠ 0

/-- Resets of partition p that have begun. -/
def State.epoch (s : State) (p : Nat) : Nat := mget zeroN s.host.epoch p

/-- Accepted background commands of a ring. -/
def State.bgOf (s : State) (p i : Nat) : List CmdRef := s.host.bg.filter (fun c => c.part = p && c.ring = i)

/-- The running command of a ring with TAG. -/
def State.bgFind (s : State) (p i tag : Nat) : Option CmdRef :=
  s.host.bg.find? (fun c => c.part = p && c.ring = i && c.tag = tag)

/-- The completion entry (R461). -/
def complBytes (c : CmdRef) (status phase gtc detail : Nat) : List Byte :=
  leBytes 4 c.tag ++ leBytes 1 c.opcode ++ leBytes 1 status ++ leBytes 2 (c.slot % 4096 + 32768 * phase) ++
    leBytes 8 gtc ++ leBytes 16 detail

/-- The command leaves the running ones. -/
def State.cmdForget (s : State) (c : CmdRef) : State :=
  let r := s.ring c.part c.ring
  let s := s.setCmdRing c.part c.ring { r with fg := if r.fg = some c then none else r.fg }
  { s with host := { s.host with bg := s.host.bg.erase c } }

/-- A command ends: its completion is written and counted, and source RING raised when asked (R461, R474). While a
reset of its partition has begun since its start, it is discarded (R482). A DENIED is a recorded refusal (R458). -/
def State.cmdDone (s : State) (c : CmdRef) (status detail : Nat) : State :=
  let s := s.cmdForget c
  if c.epoch ≠ s.epoch c.part then s
  else
    let a := aHstCmdq c.part c.ring
    let r := s.ring c.part c.ring
    let n := s.cmdSize c.part c.ring
    let base := s.regN (a + 8) + s.regN (a + 12) * 2 ^ 32
    let phase := natBool (r.done / n % 2 = 0)
    let s := s.hostWrite c.part (base + 32 * (r.done % n)) (complBytes c status phase s.clk.gtc detail)
    let s := s.setCmdRing c.part c.ring { r with done := r.done + 1 }
    let s := s.bump (aHstPcnt c.part 0) 1
    let s := if status = stDenied then s.deny c.part 4 c.slot else s
    if c.irq then s.irq c.part c.ring else s

/-- Modes of R466: A is READY, SERVICE and DEGRADED; B is A and SAFE; C is B and, for partition 0, RECOVERY. -/
def modeA (m : Mode) : Bool := m = .ready || m = .service || m = .degraded
def modeB (m : Mode) : Bool := modeA m || m = .safe
def modeC (m : Mode) (p : Nat) : Bool := modeB m || (m = .recovery && p = 0)

/-- Are the rings of partition p served at all: its link is up, no reset of it runs, and the mode lets the host
island serve rings (R466, R482, R635)? -/
def State.ringsRun (s : State) (p : Nat) : Bool :=
  s.linkUp p && !s.inPreset p &&
    match s.top.mode with
    | .ready | .service | .degraded | .safe | .test => true
    | .recovery => p = 0
    | _ => false

/-- How a command runs (R466). -/
inductive CmdKind where
  | foreground
  | background
  /-- ABORT is taken ahead of a running foreground command. -/
  | ahead
deriving DecidableEq, Repr

/-- May the command at the front of its ring start (R462, R463)? A 17th background command waits. -/
def State.mayStart (s : State) (p i : Nat) (kind : CmdKind) : Bool :=
  s.ringsRun p && s.cmdOn p i && s.cmdPi p i ≠ s.cmdCi p i &&
    (s.cmdCi p i + 65536 - s.cmdCh p i) % 65536 < s.cmdSize p i &&
    (kind = .ahead || (s.ring p i).fg.isNone) && (kind ≠ .background || (s.bgOf p i).length < 16)

/-- Start a command (R462 to R466): checks of the descriptor, the issuer and the mode, then `body`. -/
def State.startCmd (s : State) (h : HostCmd) (opcode : Nat) (kind : CmdKind) (issuer mode : Bool)
    (body : CmdRef → State → State) : State :=
  let p := h.part.val
  let i := h.ring.val
  if s.mayStart p i kind then
    let n := s.cmdCi p i
    let c : CmdRef := { part := p, ring := i, tag := h.tag.toNat, opcode := opcode, slot := n % s.cmdSize p i,
                        irq := h.flags.getLsbD 0, epoch := s.epoch p }
    let s := (s.setRegN (aHstCmdq p i + 24) ((n + 1) % 65536)).occur 105 0x010 1
    let s := s.dmaRead 64
    if h.rsv ≠ 0 ∨ h.flags.toNat / 2 ≠ 0 then s.cmdDone c stBadCmd 0
    else if !issuer then s.cmdDone c stDenied 0
    else if !mode then s.cmdDone c stReject 0
    else body c s
  else s

/-- A foreground command goes on running after its start. -/
def State.cmdRuns (s : State) (c : CmdRef) : State :=
  s.setCmdRing c.part c.ring { s.ring c.part c.ring with fg := some c }

/-- A background command is accepted (R463). -/
def State.cmdAccept (s : State) (c : CmdRef) : State :=
  { s with host := { s.host with bg := s.host.bg ++ [c] } }

end Sys2Proof.Machine

/-- `n` bytes of the operands from offset `off`, little-endian (R460). -/
def Sys2Proof.HostCmd.op (h : Sys2Proof.HostCmd) (off n : Nat) : Nat :=
  Sys2Proof.Machine.bitsOf h.ops.toNat (8 * off) (8 * n)
end

