-- ==== Sys2Proof/Machine/Place.lean ====
section
/-! DEFINITION. Placing entries in hashed tables (R274 to R276, R285), for the flow index and the exact-match tables
alike. A position of a bucket g is W * g + way. -/

namespace Sys2Proof.Machine

open Sys2Proof

/-- What the placing procedure asks of a table. -/
structure HashTab where
  /-- Ways of a bucket. -/
  ways : Nat
  /-- Is a position occupied? -/
  used : Nat → Bool
  /-- The other bucket of the entry at a position. -/
  other : Nat → Nat
  /-- The partition whose walk has yet to return the entry at a position (R285). -/
  unseen : Nat → Option Nat
  /-- Free places in that partition's pickup queue. -/
  room : Nat → Nat

/-- The positions of a bucket. -/
def HashTab.cells (t : HashTab) (g : Nat) : List Nat := (upTo t.ways).map (fun i => t.ways * g + i)

/-- The lowest free position of a bucket. -/
def HashTab.freeIn (t : HashTab) (g : Nat) : Option Nat := (t.cells g).find? (fun x => !t.used x)

/-- Is the entry pinned by a full pickup queue, counting what the path would put there (R285)? -/
def HashTab.pinned (t : HashTab) (path : List Nat) (x : Nat) : Bool :=
  match t.unseen x with
  | none => false
  | some p => decide (t.room p ≤ (path.filter (fun y => t.unseen y = some p)).length)

/-- First movable entry of a list of positions that is not in the path, and the pinned ones passed over. -/
def HashTab.scan (t : HashTab) (path : List Nat) : List Nat → Option Nat × List Nat
  | [] => (none, [])
  | x :: xs =>
    if path.contains x then t.scan path xs
    else if t.pinned path x then
      let (r, l) := t.scan path xs
      (r, x :: l)
    else (some x, [])

/-- The search of R274: the path of entries to move, first to last, and the entries passed over. -/
def HashTab.search (t : HashTab) (v : Nat) : Nat → Nat → List Nat → List Nat → Option (List Nat) × List Nat
  | 0, _, _, skip => (none, skip)
  | n + 1, g, path, skip =>
    match t.scan path ((upTo t.ways).map (fun i => t.ways * g + (v + i) % t.ways)) with
    | (none, l) => (none, skip ++ l)
    | (some x, l) =>
      let path := path ++ [x]
      let a := t.other x
      if (t.freeIn a).isSome then (some path, skip ++ l) else t.search v n a path (skip ++ l)

/-- Where a new entry goes: free position of a bucket; path of moves that frees one in b1; or neither. -/
inductive Placing where
  | direct (pos : Nat)
  | path (l : List Nat)
  | neither
deriving DecidableEq, Repr

def HashTab.placing (t : HashTab) (v b1 b2 : Nat) : Placing × List Nat :=
  match t.freeIn b1 with
  | some x => (.direct x, [])
  | none =>
    match t.freeIn b2 with
    | some x => (.direct x, [])
    | none =>
      match t.search v 8 b1 [] [] with
      | (some l, skip) => (.path l, skip)
      | (none, skip) => (.neither, skip)

/-! ### Walks (R282, R285) -/

def walkKey (p t : Nat) : Nat := p * 32 + t
def noWalk : Nat → Option Walk := fun _ => none
def epoch0 : Nat → Bool := fun _ => false
def State.walk (s : State) (p t : Nat) : Option Walk := mget noWalk s.walks.run (walkKey p t)
def State.setWalk (s : State) (p t : Nat) (w : Option Walk) : State :=
  { s with walks := { s.walks with run := mset noWalk s.walks.run (walkKey p t) w } }
def State.epochOf (s : State) (p t : Nat) : Bool := mget epoch0 s.walks.epoch (walkKey p t)
def State.setEpoch (s : State) (p t : Nat) (e : Bool) : State :=
  { s with walks := { s.walks with epoch := mset epoch0 s.walks.epoch (walkKey p t) e } }
def State.restamping (s : State) (p t : Nat) : Bool := mget epoch0 s.walks.restamp (walkKey p t)
def State.setRestamp (s : State) (p t : Nat) (b : Bool) : State :=
  { s with walks := { s.walks with restamp := mset epoch0 s.walks.restamp (walkKey p t) b } }

/-- The E bit of an insert of p into table t (R282, R288). -/
def State.newEpoch (s : State) (p t : Nat) : Bool :=
  if (s.walk p t).isSome || s.restamping p t then !s.epochOf p t else s.epochOf p t

/-- Does a running walk of p have yet to return an entry with epoch bit e? -/
def State.unseen (s : State) (p t : Nat) (e : Bool) : Bool := (s.walk p t).isSome && e = s.epochOf p t

/-- Free places of a pickup queue: 64 for each slice, or for a table (R285). -/
def State.pickRoom (s : State) (p t sub : Nat) : Nat :=
  match s.walk p t with
  | some w => 64 - (w.pickup.filter (fun e => e.1 = sub)).length
  | none => 0

/-- Put an item in a pickup queue. -/
def State.pickUp (s : State) (p t sub : Nat) (item : List Byte) : State :=
  match s.walk p t with
  | some w => s.setWalk p t (some { w with pickup := w.pickup ++ [(sub, item)] })
  | none => s

/-- Count the entries passed over (R285). -/
def State.passedOver (s : State) (l : List (Option Nat)) : State :=
  l.foldl (fun s o => match o with
    | some p => s.bump (aEmtWalkCnt p 1) 1
    | none => s) s

end Sys2Proof.Machine
end

