-- ==== Sys2Proof/Machine/Tasks.lean ====
section
/-! DEFINITION. Packets, versions, the reorder unit, back-pressure, and the ends of tasks: the operations that
the front end, the engines and the delay lists share (R80, R142 to R167, R198 to R200, R335 to R338). -/

namespace Sys2Proof.Machine

open Sys2Proof

/-! ### Domains and partitions -/

/-- The partition that owns domain d (CLS_DOM_OWNER, committed; R209). -/
def State.domOwner (s : State) (d : Nat) : Nat := s.cfld aClsDomOwner (2 * d) 2

/-- The slot of a domain that is marked current (R198). -/
def State.oldSlot (s : State) (d : Nat) : Option Nat :=
  (upTo 4).find? fun v => (s.vslot d v).state = 2

/-- The commit of a domain whose instant T has come and which VERSION_ACTIVATE has yet to carry out. -/
def State.dueCommit (s : State) (d : Nat) : Option VCommit :=
  s.cls.commits.find? fun x => decide (x.dom = d ∧ x.at_ ≤ s.clk.gtc) && x.checked

/-- The version slot that a frame or task stamped now receives, if the domain has one (R198, R199): from T on, that of
the commit. -/
def State.curSlot (s : State) (d : Nat) : Option Nat :=
  match s.dueCommit d with
  | some x => some x.slot
  | none => s.oldSlot d

/-- A packet or task takes its version: the in-flight count rises (R200). -/
def State.verIn (s : State) (d v : Nat) : State :=
  let x := s.vslot d v
  s.setVslot d v { x with count := x.count + 1 }

/-- It ends: the count falls, and a superseded slot at zero becomes free (R198, R200). Frames are stamped in the
step that receives them, so none stamped before T is still to come. -/
def State.verOut (s : State) (d v : Nat) : State :=
  let x := s.vslot d v
  let n := x.count - 1
  if x.state = 3 ∧ n = 0 then s.setVslot d v {} else s.setVslot d v { x with count := n }

/-! ### References -/

def dCell : Nat → CellSt := fun _ => {}
def State.cell (s : State) (c : Nat) : CellSt := mget dCell s.hop.cells c
def State.setCell (s : State) (c : Nat) (x : CellSt) : State :=
  { s with hop := { s.hop with cells := mset dCell s.hop.cells c x } }

/-- Send a decrement of the packet's reference to the Hopper (R336, R338). -/
def State.release (s : State) (cell gen : Nat) : State :=
  { s with hop := { s.hop with rel := s.hop.rel ++ [(cell, gen)] } }

/-- One more reference of a head cell, unless REF would pass 4 095 (R335, R337). -/
def State.refInc (s : State) (c : Nat) : Option State :=
  let x := s.cell c
  if x.ref ≥ 4095 then none else some (s.setCell c { x with ref := x.ref + 1 })

/-- Head cell of a packet, 0 where it has none. -/
def Packet.head (p : Packet) : Nat := p.cells.headD 0

/-- Release the reference a packet's task holds; a task without cells holds none (R241). -/
def State.releasePkt (s : State) (k : Nat) : State :=
  let p := s.pkt k
  if p.cells = [] then s else s.release p.head p.gen

/-! ### Back-pressure (R159) -/

/-- Start and end the three pause causes of a race, counting each pause that starts. -/
def State.pauses (s : State) (r : Nat) : State :=
  let x := s.race r
  let hi := s.cfld (aTskCfg r) 16 10
  let lo := s.cfld (aTskCfg r) 0 10
  let ntq := if x.ntq.length ≥ hi then true else if x.ntq.length ≤ lo then false else x.pauseNtq
  let rob := decide (x.rob.length ≥ 4096)
  let leat := decide (x.leat.length ≥ 128)
  let s1 := s.setRace r { x with pauseNtq := ntq, pauseRob := rob, pauseLeat := leat }
  let s2 := if ntq && !x.pauseNtq then s1.bump (aTskCnt r 0) 1 else s1
  let s3 := if rob && !x.pauseRob then s2.bump (aTskCnt r 1) 1 else s2
  if leat && !x.pauseLeat then s3.bump (aTskCnt r 2) 1 else s3

/-- Sluice admission is paused (R159). -/
def Race.paused (x : Race) : Bool := x.pauseNtq || x.pauseRob || x.pauseLeat

/-- A keepalive or expiry task has waited past its tick: it enters ahead of every Sluice frame (R154). -/
def Race.bareWaits (x : Race) (now : Nat) : Bool := x.dly.any fun d => decide (d.kind ≠ .prog ∧ d.due < now)

/-! ### The reorder unit (R163 to R166) -/

/-- Put what leaves on its way: a descriptor to the descriptor switch, an item to its receive ring. -/
def State.leave (s : State) (r : Nat) : Leaving → State
  | .toQueue d => s.setRace r { s.race r with switch := (s.race r).switch ++ [d] }
  | .toRing i => { s with rx := s.rx ++ [i] }

def State.leaveAll (s : State) (r : Nat) (l : List Leaving) : State := l.foldl (fun s x => s.leave r x) s

/-- The slots that stay and what leaves: an ended packet leaves when no earlier slot of its port is held. -/
def robDrain : List RobSlot → List Nat → List RobSlot × List Leaving
  | [], _ => ([], [])
  | x :: xs, blocked =>
    match x.out with
    | some l =>
      if blocked.contains x.port then
        let (keep, out) := robDrain xs blocked
        (x :: keep, out)
      else
        let (keep, out) := robDrain xs blocked
        (keep, l ++ out)
    | none =>
      let (keep, out) := robDrain xs (x.port :: blocked)
      (x :: keep, out)

/-- Let leave what may leave (REORDER_RELEASE, R163). -/
def State.robRun (s : State) (r : Nat) : State :=
  let x := s.race r
  let (keep, out) := robDrain x.rob []
  ((s.setRace r { x with rob := keep }).leaveAll r out).pauses r

/-- Take a packet's slot away: it holds none from here on. -/
def State.robDrop (s : State) (r k : Nat) : State :=
  let x := s.race r
  let s := s.setRace r { x with rob := x.rob.filter (fun e => e.pkt ≠ k) }
  let s := s.setPkt k { s.pkt k with rob := false }
  s.robRun r

/-- A packet ends with `emit` or `trap`: it leaves in its port's order if it holds a slot, at once if not. -/
def State.robEnd (s : State) (r k : Nat) (l : List Leaving) : State :=
  if (s.pkt k).rob then
    let x := s.race r
    let s := s.setRace r
      { x with rob := x.rob.map (fun e => if e.pkt = k then { e with out := some l } else e) }
    let s := s.setPkt k { s.pkt k with rob := false }
    s.robRun r
  else s.leaveAll r l

/-! ### Ends of packets and tasks -/

/-- A packet or a task without a frame is dropped: slot, version and reference are released (R163, R200, R338). -/
def State.dropPkt (s : State) (k : Nat) : State :=
  let p := s.pkt k
  ((s.robDrop p.race k).verOut p.dom p.slot).releasePkt k

/-- The receive item of a trapped packet: the frame with which it entered the pass (R80, R471). -/
def State.trapItem (s : State) (k ring code kind : Nat) (frame : List Byte) (md : Mem) : RxItem :=
  let p := s.pkt k
  { part := s.domOwner p.dom, ring := ring, pkt := k, cell := p.head, gen := p.gen, frame := frame,
    code := code, kind := kind, md := md, stamp := p.stamp, port := p.port, dom := p.dom, late := p.late }

/-- A packet is trapped without waiting in order: by an exception (R80) or as malformed (R186). -/
def State.trapNow (s : State) (k ring code kind : Nat) : State :=
  let p := s.pkt k
  let it := s.trapItem k ring code kind p.frame []
  ((s.robDrop p.race k).verOut p.dom p.slot).leave p.race (.toRing it)

/-- Leave every ready list of the cluster. -/
def State.unready (s : State) (n : Nat) : State :=
  let c := s.clu (cluOf n)
  s.setClu (cluOf n)
    { c with ready := (c.ready.map (fun e => (e.1, e.2.filter (· ≠ n)))).filter (fun e => e.2 ≠ []) }

def noThreads : Nat → List Nat := fun _ => []

/-- Join the tail of a ready list (R147). -/
def State.join (s : State) (n prio : Nat) : State :=
  let k := cluOf n
  let s := s.unready n
  let c := s.clu k
  s.setClu k { c with ready := mset noThreads c.ready prio (mget noThreads c.ready prio ++ [n]) }

/-- With no thread halted, that cause of reduced coverage ends (R568). -/
def State.haltCover (s : State) : State :=
  if s.threads.any (fun e => e.2.halted.isSome) then s else s.coverageEnd 1

/-- Segments that the service routine of thread n has completed (R112, R114): those before its token's, and, while it
runs, those of 32 slots that have passed since, the spare engine issuing in every cycle of its island clock. -/
def State.svcDone (s : State) (n : Nat) : Nat :=
  let t := s.thr n
  match t.svc with
  | some k =>
    let slots := (s.clk.gtc - t.svcAt) * s.fld (aAgeIsl (64 + raceOf n)) 0 11 / 4000
    min 191 (k.segment - 1 + if t.halted.isSome then 0 else slots / 32)
  | none => 0

/-- SEG of cluster k: the last segment that its spare's self-test has completed (R114, R139). -/
def State.stestSeg (s : State) (k : Nat) : Nat :=
  match (upTo 68).find? fun t => (s.thr (68 * k + t)).svc.any fun v => v.routine = 2 with
  | some t => s.svcDone (68 * k + t)
  | none => s.fld (aUcsStest k) 0 8

/-- The self-test result store of cluster k: the partial signature of the last completed segment (R114). -/
def State.stestSignature (s : State) (k : Nat) : Word64 :=
  if s.stestSeg k = 0 then 0 else Config.segmentSignature (s.stestSeg k)

/-- The thread is free: it leaves its list, and completions still on their way to it are discarded (R80, R142). -/
def State.freeThread (s : State) (n : Nat) : State :=
  let s := s.unready n
  State.haltCover { s.setThr n {} with comps := s.comps.filter (fun c => c.thread ≠ n) }

/-- Did the packet enter its pass with a frame: from a port, from a transmit ring, or through the Leat (R48, R80)? -/
def Packet.hasFrame (p : Packet) : Bool :=
  match p.kind with
  | .frame | .hostTx _ _ => true
  | .keepalive _ => decide (p.pass ≠ 0)
  | .expiry => false

/-- The end of a task by exception `code` (R80, R82): dropped or trapped, counted. -/
def State.excEnd (s : State) (k code : Nat) : State :=
  let p := s.pkt k
  let cfg := aRaceExcCfg p.race
  let s := s.bump (aRaceExcCnt p.race code) 1
  if bitOf (s.regN cfg) code && p.hasFrame then s.trapNow k (s.fld cfg 20 6) code 3
  else s.dropPkt k

/-- The end of a task by an isolation: dropped and counted, never trapped (R40, R155). -/
def State.isolEnd (s : State) (k : Nat) : State := (s.bump (aRaceExcCnt (s.pkt k).race 6) 1).dropPkt k

/-- Exception `code` on a resident thread. -/
def State.exception (s : State) (n code : Nat) : State :=
  match (s.thr n).ctx with
  | some c => (s.freeThread n).excEnd c.pkt code
  | none => s

def excWindow : Nat := 1
def excImage : Nat := 2
def excRecirc : Nat := 3
def excWatchdog : Nat := 4
def excEcc : Nat := 5
def excAbort : Nat := 6

/-! ### Engines and clusters (R37, R40 to R43) -/

def aClu (k : Nat) : Nat := aRaceCluEng (k / 12) (k % 12)

/-- The engine takes part in dispatch: not the spare, not isolated (R37, R43). -/
def State.engActive (s : State) (k e : Nat) : Bool :=
  let a := aClu k
  e < 17 && e != s.fld a 0 5 && e != s.fld a 16 5 && e != s.fld a 21 5 && (s.clu k).deadSpare != some e

def State.activeEngines (s : State) (k : Nat) : Nat := ((upTo 17).filter (s.engActive k)).length

/-- The cluster is isolated (R43). -/
def State.cluOff (s : State) (k : Nat) : Bool := bitOf (s.regN (aClu k)) 30

/-- Number of resident threads of an engine (R142, R145). -/
def State.residents (s : State) (k e : Nat) : Nat :=
  ((upTo 4).filter (fun t => decide ((s.thr ((k * 17 + e) * 4 + t)).ctx ≠ none))).length

/-- A free thread of engine e of cluster k, no service routine on it: the lowest (log 100). -/
def State.freeOn (s : State) (k e : Nat) : Option Nat :=
  ((upTo 4).map (fun t => (k * 17 + e) * 4 + t)).find? fun n =>
    decide ((s.thr n).ctx = none ∧ (s.thr n).svc = none)

/-- The engine that takes the next task of the cluster: fewest residents, then lowest index (R145). -/
def pickEngine (s : State) (k : Nat) : List Nat → Option Nat → Option Nat
  | [], best => best
  | e :: es, best =>
    if s.engActive k e && (s.clu k).swapOut != some e && (s.freeOn k e).isSome then
      match best with
      | some b => pickEngine s k es (if s.residents k e < s.residents k b then some e else some b)
      | none => pickEngine s k es (some e)
    else pickEngine s k es best

/-- The free thread of cluster k that takes the next task. -/
def State.pickThread (s : State) (k : Nat) : Option Nat :=
  match pickEngine s k (upTo 17) none with
  | some e => s.freeOn k e
  | none => none

/-- Start a task on a thread: it joins the ready list of its priority (R44, R147). -/
def State.startOn (s : State) (n : Nat) (c : Ctx) : State :=
  let s := s.setThr n { (s.thr n) with ctx := some { c with task := s.nextTask } }
  { s with nextTask := s.nextTask + 1 }.join n c.prio

/-! ### Isolation of engines and clusters (R40, R41) -/

/-- A service routine ends at a safe point (R108, R113, R114): a self-test is left incomplete, with SEG the last segment
that completed; ended by a drain, it starts again after it. -/
def State.endService (s : State) (n : Nat) : State :=
  let t := s.thr n
  match t.svc with
  | some k =>
    let c := cluOf n
    let seg := s.svcDone n
    let s := (s.setThr n {}).haltCover
    if k.routine = 2 then
      let s := if t.ints.drain && !t.ints.abort && !t.ints.ecc then s.setClu c { s.clu c with testAgain := true } else s
      s.setRegN (aUcsStest c) (4 * 2 ^ 29 + seg)
    else s
  | none => s

/-- What runs on thread n ends: a service routine, or a packet by `f`. -/
def State.threadEnd (s : State) (n : Nat) (f : State → Nat → State) : State :=
  match (s.thr n).ctx with
  | some c => f (s.freeThread n) c.pkt
  | none => s.endService n

/-- Every thread of engine e of cluster k ends: on a drain timeout with exception ABORT (R124), on an isolation as
with it (R40). A thread stands at a safe point between commands, so the abort is taken at once (R105, R108, R110). -/
def State.engineEnd (s : State) (k e : Nat) (isolated : Bool) : State :=
  (upTo 4).foldl (fun s t =>
    let n := (k * 17 + e) * 4 + t
    (s.threadEnd n (fun s p => if isolated then s.isolEnd p else s.excEnd p excAbort)).setThr n {}) s

/-- The cluster receives no packets; its threads end, and so do the due tasks that wait for one of them (R155;
log 27). -/
def State.clusterOff (s : State) (k : Nat) : State :=
  let s := (upTo 17).foldl (fun s e => s.engineEnd k e true) s
  let x := s.race (k / 12)
  let s := s.setRace (k / 12) { x with due := x.due.filter (fun d => decide (d.cluster ≠ k)) }
  let s := (x.due.filter (fun d => decide (d.cluster = k))).foldl (fun s d => s.isolEnd d.ctx.pkt) s
  (s.setFld (aClu k) 30 1 1).event srcWindshaft 0x0203 k

/-- Isolate an active engine: the spare takes its place, or the cluster goes on with 15, or, at a third loss, is
isolated with ISOLATED1 and ISOLATED2 as they stand (R41, R43). -/
def State.isolateEngine (s : State) (k e : Nat) : State :=
  let a := aClu k
  if s.fld a 0 5 = e then (s.setFld a 0 5 0x1F).setClu k { s.clu k with deadSpare := some e }
  else if !s.engActive k e then s
  else
    let s := s.engineEnd k e true
    let third := decide (s.fld a 16 5 ≠ 0x1F ∧ s.fld a 21 5 ≠ 0x1F)
    let s := if s.fld a 16 5 = 0x1F then s.setFld a 16 5 e else if third then s else s.setFld a 21 5 e
    let s := if s.fld a 0 5 = 0x1F then s else (s.setFld a 0 5 0x1F).setFld a 31 1 1
    let s := (s.event srcWindshaft 0x0202 (k + e * 65536)).degrade 31
    if (third ∨ s.activeEngines k < 15) ∧ !s.cluOff k then s.clusterOff k else s

/-! ### Delay lists (R149 to R155) -/

/-- Tasks on the four lists of a race, each 65 536 at most in all (R150). -/
def Race.dlyRoom (x : Race) : Bool := decide (x.dly.length < 65536)

/-- The tick of a delay list in GTC counts. -/
def dlyTick (u : Nat) : Nat :=
  match u with
  | 0 => 400
  | 1 => 4000
  | 2 => 400000
  | _ => 40000000

/-- The first tick at or after t + n units (R149). -/
def dlyDue (u n t : Nat) : Nat :=
  let x := t + n * dlyTick u
  (x + dlyTick u - 1) / dlyTick u * dlyTick u

def Race.progHeld (x : Race) : Nat :=
  (x.dly.filter (fun d => decide (d.kind = .prog))).length
def Race.expHeld (x : Race) : Nat := (x.dly.filter (fun d => decide (d.kind = .expiry))).length

/-- Entries held: keepalive timers included (R172). -/
def Race.dlyHeld (x : Race) : Nat := x.dly.length

/-- May a program of race r take a delay-list entry: under PROG_CAP, and under the total (R150)? -/
def State.delayRoom (s : State) (r : Nat) : Bool :=
  decide ((s.race r).progHeld < s.cfld (aTskDlyCfg r) 0 16) && (s.race r).dlyRoom

/-- Place a delayed program on its list (R77): the thread is freed, its state is saved, and the packet keeps its
slot and its references. For a task without a frame the watchdog's time so far is kept (R167). -/
def State.placeDelay (s : State) (n u count : Nat) (c : Ctx) : State :=
  let r := raceOf n
  let k := cluOf n
  let s := s.freeThread n
  let x := s.race r
  let c' := if (s.pkt c.pkt).hasFrame then c else { c with start := s.clk.gtc - c.start }
  s.setRace r
    { x with
      dly := x.dly ++ [{ kind := .prog, list := u, due := dlyDue u count s.clk.gtc, ctx := c', cluster := k, seq := x.seq }]
      seq := x.seq + 1 }

end Sys2Proof.Machine
end

