-- ==== Sys2Proof/Machine/Weir.lean ====
section
/-! DEFINITION. The tables of the queueing block (R388 to R395) as words, the ranges that own them (R396), and the
meter algorithm of the Weir (R382 to R385). -/

namespace Sys2Proof.Machine

open Sys2Proof

/-! ### Tables -/

def tQueue : Nat := 0
def tSub : Nat := 1
def tGroup : Nat := 2
def tPort : Nat := 3
def tShp : Nat := 4
def tMpr : Nat := 5
def tMcg : Nat := 7
def tMcm : Nat := 8

/-- Key of word w of entry i of table t. -/
def tabKey (t i w : Nat) : Nat := t * 2 ^ 24 + i * 32 + w

/-- The word an entry resets to (R389 to R394). -/
def tabDefault (k : Nat) : Word32 :=
  match k / 2 ^ 24, k % 32 with
  | 0, 0 => 10240
  | 0, 1 => 16
  | 0, 2 => 256
  | 0, 3 => 128
  | 1, 1 => 16
  | 2, 1 => 16
  | 3, 0 => 10240
  | 3, 1 => 16
  | 4, 4 => 20 * 65536 + 10240
  | 5, 4 => 20 * 65536 + 10240
  | _, _ => 0

def State.tabW (s : State) (t i w : Nat) : Nat := (mget tabDefault s.tab (tabKey t i w)).toNat
def State.setTabW (s : State) (t i w v : Nat) : State :=
  { s with tab := mset tabDefault s.tab (tabKey t i w) (BitVec.ofNat 32 v) }
def State.tabF (s : State) (t i w lo n : Nat) : Nat := bitsOf (s.tabW t i w) lo n

/-! ### Ranges of the partitions (R396) -/

inductive RangeKind where
  | sub
  | grp
  | shp
  | mpr
  | mtr
  | mcg
  | mcm
deriving DecidableEq, Repr

/-- First and last of a range in the word store `m`. -/
def qshRange (m : SMap Word32) (p : Nat) (k : RangeKind) : Nat × Nat :=
  let w := fun (i : Nat) => (mget regDefault m (aQshRange p + 4 * i)).toNat
  match k with
  | .sub => (w 0 % 65536, w 0 / 65536)
  | .grp => (bitsOf (w 1) 0 12, bitsOf (w 1) 16 12)
  | .shp => (bitsOf (w 2) 0 14, bitsOf (w 2) 16 14)
  | .mpr => (bitsOf (w 3) 0 12, bitsOf (w 3) 16 12)
  | .mtr => (bitsOf (w 4) 0 20, bitsOf (w 5) 0 20)
  | .mcg => (bitsOf (w 6) 0 14, bitsOf (w 6) 16 14)
  | .mcm => (w 7 % 65536, w 7 / 65536)

def inQsh (m : SMap Word32) (p : Nat) (k : RangeKind) (i : Nat) : Bool :=
  let r := qshRange m p k
  decide (r.1 ≤ i ∧ i ≤ r.2)

/-- Is item i of the kind inside p's committed range? -/
def State.owns (s : State) (p : Nat) (k : RangeKind) (i : Nat) : Bool := inQsh s.committed p k i

/-- A profile of 0 names no profile and passes every range check (R388). -/
def State.ownsProf (s : State) (p : Nat) (k : RangeKind) (i : Nat) : Bool := i = 0 || s.owns p k i

/-! ### Meters (R383 to R385) -/

def colGreen : Nat := 0
def colYellow : Nat := 1
def colRed : Nat := 2

/-- A meter profile (R392). -/
structure MProf where
  cir : Nat
  eir : Nat
  cbs : Nat
  ebs : Nat
  type : Nat
  cf : Bool
deriving DecidableEq, Repr

def State.mprof (s : State) (k : Nat) : MProf :=
  { cir := s.tabW tMpr k 0, eir := s.tabW tMpr k 1, cbs := s.tabF tMpr k 2 0 28, ebs := s.tabF tMpr k 3 0 28,
    type := s.tabF tMpr k 4 30 2, cf := bitOf (s.tabW tMpr k 4) 29 }

/-- The refill part of R384. -/
def refill (f : MProf) (m : Meter) (now : Nat) : Meter :=
  let dt := (now + 2 ^ 52 - 16 * m.last % 2 ^ 52) % 2 ^ 52
  let tc1 := m.tc + f.cir * dt / 2000000
  let over_ := tc1 - 16 * f.cbs
  let add2 := f.eir * dt / 2000000
  let te1 :=
    if f.type = 0 then m.te + over_
    else if f.type = 1 then m.te + add2
    else m.te + (add2 + if f.cf then over_ else 0)
  { m with tc := min (16 * f.cbs) tc1, te := min (16 * f.ebs) te1, last := now / 16 % 2 ^ 48 }

/-- The marking part of R384. -/
def mark (f : MProf) (m : Meter) (bytes inCol : Nat) : Nat × Meter :=
  let b := 16 * bytes
  if f.type = 1 then
    if inCol ≥ colRed ∨ m.te < b then (colRed, m)
    else if inCol = colYellow ∨ m.tc < b then (colYellow, { m with te := m.te - b })
    else (colGreen, { m with te := m.te - b, tc := m.tc - b })
  else if inCol = colGreen ∧ b ≤ m.tc then (colGreen, { m with tc := m.tc - b })
  else if inCol < colRed ∧ b ≤ m.te then (colYellow, { m with te := m.te - b })
  else (colRed, m)

/-- One metering operation (R384); a PROFILE of 0 returns green and changes nothing (R382). -/
def meterRun (f : MProf) (m : Meter) (bytes inCol now : Nat) : Nat × Meter :=
  if m.prof = 0 then (colGreen, m) else mark f (refill f m now) bytes inCol

/-- The two words of a meter's state (R383). -/
def Meter.word0 (m : Meter) : Word64 := BitVec.ofNat 64 (m.tc + m.te * 2 ^ 32)
def Meter.word1 (m : Meter) : Word64 := BitVec.ofNat 64 (m.prof + m.last * 2 ^ 16)

/-- The meter that two words hold. -/
def meterOf (w0 w1 : Word64) : Meter :=
  { te := bitsOf w0.toNat 32 32, tc := bitsOf w0.toNat 0 32, last := bitsOf w1.toNat 16 48,
    prof := bitsOf w1.toNat 0 12 }

/-- The reserved bits [15:12] of word 1 stay as a program wrote them. -/
def meterWord1 (old : Word64) (m : Meter) : Word64 :=
  BitVec.ofNat 64 (m.word1.toNat + bitsOf old.toNat 12 4 * 2 ^ 12)

def dMeter : Nat → Meter := fun _ => {}
def State.meterAt (s : State) (i : Nat) : Meter := mget dMeter s.weir i
def State.setMeter (s : State) (i : Nat) (m : Meter) : State := { s with weir := mset dMeter s.weir i m }

end Sys2Proof.Machine
end

