-- ==== Sys2Proof/Machine/Millstone.lean ====
section
/-! DEFINITION. Millstone: records, index, caches, quotas, the journal, and the operations a home slice applies
(R212 to R254, R274 to R278, R305 to R307). -/

namespace Sys2Proof.Machine

open Sys2Proof

/-! ### Records and index entries -/

def fKeyWords : Nat := 6
def fFlags : Nat := 6
def fLast : Nat := 7
def fPkts : Nat := 8
def fBytes : Nat := 9
def fXlate : Nat := 10
def fMtr0 : Nat := 11
def fMtr1 : Nat := 12
def fCreate : Nat := 15

/-- Positions of a slice: 8 ways of 2^20 buckets, then 1 024 stash positions (R212). -/
def sliceSpan : Nat := 8389632
def stashBase : Nat := 8388608

def dSlice : Nat → Slice := fun i => { free := [{ first := i * 4194304, count := 4194304, freed := none }] }
def State.slice (s : State) (i : Nat) : Slice := mget dSlice s.mst.slices i
def State.setSlice (s : State) (i : Nat) (x : Slice) : State :=
  { s with mst := { s.mst with slices := mset dSlice s.mst.slices i x } }

def dFEntry : Nat → FEntry := fun _ => {}
def State.fent (s : State) (sl pos : Nat) : FEntry := mget dFEntry s.mst.index (sl * sliceSpan + pos)
def State.setFent (s : State) (sl pos : Nat) (e : FEntry) : State :=
  { s with mst := { s.mst with index := mset dFEntry s.mst.index (sl * sliceSpan + pos) e } }

/-- A record word (R221). -/
def State.recW (s : State) (i w : Nat) : Word64 := mget zero64 s.mst.recs (16 * i + w)
def State.setRecW (s : State) (i w : Nat) (v : Word64) : State :=
  { s with mst := { s.mst with recs := mset zero64 s.mst.recs (16 * i + w) v } }
def State.recWords (s : State) (i : Nat) : List Word64 := (upTo 16).map (s.recW i)
def State.setRecWords (s : State) (i : Nat) (l : List Word64) : State :=
  (upTo 16).foldl (fun s w => s.setRecW i w (l.getD w 0)) s

def State.recKey (s : State) (i : Nat) : List Word64 := (upTo 6).map (s.recW i)
def State.recLive (s : State) (i : Nat) : Bool := (s.recW i fFlags).getLsbD 56
def State.recPers (s : State) (i : Nat) : Bool := (s.recW i fFlags).getLsbD 57
def State.recOwn (s : State) (i : Nat) : Nat := bitsOf (s.recW i fFlags).toNat 58 2
def State.recDom (s : State) (i : Nat) : Nat := bitsOf (s.recW i fFlags).toNat 60 4

/-- Indices of the live records that are listed. -/
def State.liveRecs (s : State) : List Nat :=
  (s.mst.recs.filter (fun e => e.1 % 16 = fFlags && e.2.getLsbD 56)).map (fun e => e.1 / 16)

def wordsBytes (l : List Word64) : List Byte := l.flatMap (fun w => leBytes 8 w.toNat)

/-- A seed of MST_SEED in the committed set (R255). -/
def State.mstSeed (s : State) (i : Nat) : Word64 :=
  BitVec.ofNat 64 (s.com (aMstSeed i) + s.com (aMstSeed i + 4) * 2 ^ 32)

/-- h0, h1 and h2 of a key (R214). -/
def State.keyHash (s : State) (i p : Nat) (key : List Word64) : Nat :=
  (hk (s.mstSeed i) p (wordsBytes (key.take 6))).toNat

/-- Home slice of a key (R215). -/
def State.homeOf (s : State) (p : Nat) (key : List Word64) : Nat := s.keyHash 0 p key / 2 ^ 59

/-- The two buckets of a key, within its slice (R215). -/
def State.keyBuckets (s : State) (p : Nat) (key : List Word64) : Nat × Nat :=
  let b1 := s.keyHash 1 p key % 2 ^ 20
  let b2 := s.keyHash 2 p key % 2 ^ 20
  (b1, if b2 = b1 then b1 ^^^ 1 else b2)

/-- Home slice of a record index: index bits [26:22] (R73). -/
def sliceOf (i : Word64) : Nat := bitsOf i.toNat 22 5

/-! ### Caches (R233, R234) -/

/-- Use a line of a set: hit or not, and the set with the line most recently used. -/
def cacheUse (ways k : Nat) (dirty : Bool) (l : List (Nat × Bool)) : Bool × List (Nat × Bool) :=
  match l.find? (fun e => e.1 = k) with
  | some e => (true, (k, e.2 || dirty) :: l.filter (fun e => e.1 ≠ k))
  | none => (false, ((k, dirty) :: l).take ways)

def noLines : Nat → List (Nat × Bool) := fun _ => []

/-- Use a record's line, allocating it (R233). -/
def State.useRec (s : State) (sl i : Nat) (dirty : Bool) : Bool × State :=
  let x := s.slice sl
  let k := Config.recordSet (i % 4194304) % 1536
  let (h, l) := cacheUse 16 i dirty (mget noLines x.recCache k)
  (h, s.setSlice sl { x with recCache := mset noLines x.recCache k l })

/-- Use a bucket's line, allocating it (R234). -/
def State.useBkt (s : State) (sl g : Nat) (dirty : Bool) : Bool × State :=
  let x := s.slice sl
  let (h, l) := cacheUse 8 g dirty (mget noLines x.idxCache (g % 2048))
  (h, s.setSlice sl { x with idxCache := mset noLines x.idxCache (g % 2048) l })

/-- Is the record in its slice's cache? -/
def State.recCached (s : State) (sl i : Nat) : Bool :=
  (mget noLines (s.slice sl).recCache (Config.recordSet (i % 4194304) % 1536)).any (fun e => e.1 = i)

/-- Read a record: a hit is counted; whether DRAM was read (R235). Sweeper visits and checkpoint reads use a cached line
and allocate none (R233): `alloc` is false for them. -/
def State.readRec (s : State) (sl i : Nat) (alloc : Bool := true) : Bool × State :=
  if alloc || s.recCached sl i then
    let (h, s) := s.useRec sl i false
    if h then (false, s.bump (aMstCnt sl 1) 1) else (true, s)
  else (true, s)

/-- A record was written: its line is dirty (R233). -/
def State.dirtyRec (s : State) (sl i : Nat) (alloc : Bool := true) : State :=
  if alloc || s.recCached sl i then (s.useRec sl i true).2 else s

/-- Read a bucket. One with an uncorrectable error is marked failed and rewritten empty (R232). -/
def State.readBkt (s : State) (sl g : Nat) : Bool × State :=
  let (h, s) := s.useBkt sl g false
  let s := if h then s else s.bump (aMstCnt sl 3) 1
  let k := sl * 2 ^ 20 + g
  if s.mst.eccBkt.contains k then
    let s := { s with mst := { s.mst with eccBkt := s.mst.eccBkt.erase k } }
    let s := (upTo 8).foldl (fun s w => s.setFent sl (8 * g + w) {}) s
    let s := s.setSlice sl { s.slice sl with failed := (s.slice sl).failed ++ [g] }
    (!h, (s.bump (aMstCnt sl 7) 1).safety (srcSlice sl) 0x0223 (sl + g * 65536) 5)
  else (!h, s)

/-! ### Finding a key (R219, R220) -/

/-- How a lookup by key ended: no record, the position found, or a record read with an uncorrectable error (R232). -/
inductive Found where
  | absent
  | at_ (pos : Nat)
  | bad (i : Nat)
deriving DecidableEq, Repr

/-- Try the positions in order: those whose fingerprint matches have their record read. -/
def State.findIn (s : State) (sl p fp : Nat) (key : List Word64) : List Nat → Bool → Bool × State × Found
  | [], m => (m, s, .absent)
  | x :: xs, m =>
    let e := s.fent sl x
    if e.valid && e.own = p && e.fp = fp then
      let (r, s) := s.readRec sl e.idx
      if s.mst.eccRec.contains e.idx then (m || r, s, .bad e.idx)
      else if s.recKey e.idx = key then (m || r, s, .at_ x)
      else (s.bump (aMstCnt sl 5) 1).findIn sl p fp key xs (m || r)
    else s.findIn sl p fp key xs m

def bktPositions (g : Nat) : List Nat := (upTo 8).map (fun i => 8 * g + i)

/-- The stash positions in use, ascending. -/
def State.stashUsed (s : State) (sl : Nat) : List Nat :=
  (s.mst.index.filter (fun e => decide (sl * sliceSpan + stashBase ≤ e.1 ∧ e.1 < (sl + 1) * sliceSpan) &&
    e.2.valid)).map (fun e => e.1 - sl * sliceSpan)

/-- Look a key up: did it read DRAM, the state after it, and what it found. -/
def State.findKey (s : State) (sl p : Nat) (key : List Word64) : Bool × State × Found :=
  let (b1, b2) := s.keyBuckets p key
  let (m1, s) := s.readBkt sl b1
  let (m2, s) := s.readBkt sl b2
  s.findIn sl p (s.keyHash 0 p key % 2 ^ 32) key (bktPositions b1 ++ bktPositions b2 ++ s.stashUsed sl) (m1 || m2)

/-! ### The free ring (R229) -/

def freeCount (l : List FreeRun) : Nat := (l.map (·.count)).sum

/-- Take the head of the ring, if it was freed 1 ms or more earlier. -/
def freeTake (now : Nat) : List FreeRun → Option (Nat × Option Nat × List FreeRun)
  | [] => none
  | r :: l =>
    if r.count = 0 then freeTake now l
    else
      let ok := match r.freed with
        | none => true
        | some t => decide (t + 4000000 ≤ now)
      if ok then some (r.first, r.freed, if r.count = 1 then l else { r with first := r.first + 1, count := r.count - 1 } :: l)
      else none

/-- Append an index to the tail. -/
def freePut (now i : Nat) : List FreeRun → List FreeRun
  | [] => [{ first := i, count := 1, freed := some now }]
  | [r] =>
    if r.freed = some now ∧ r.first + r.count = i then [{ r with count := r.count + 1 }]
    else [r, { first := i, count := 1, freed := some now }]
  | r :: x :: l => r :: freePut now i (x :: l)

/-- GTC copy of a slice's island. -/
def State.sliceGtc (s : State) (sl : Nat) : Nat := s.islGtc (islFlow (sl / 8))

/-! ### The journal (R246 to R249) -/

/-- Bytes 0x00 to 0x3B of an entry (R249). -/
def JEntry.body (e : JEntry) : List Byte :=
  leBytes 1 e.type ++ leBytes 1 e.word ++ leBytes 2 0 ++ leBytes 4 e.idx ++ leBytes 8 e.seq ++ leBytes 8 e.a.toNat ++
    leBytes 8 e.b.toNat ++ wordsBytes ((upTo 3).map (fun i => e.c.getD i 0)) ++ leBytes 4 0

/-- The 64 B of an entry (R249). -/
def JEntry.bytes (e : JEntry) : List Byte := e.body ++ leBytes 4 e.crc.toNat

/-- The entry with the CRC-32C that its bytes give. -/
def JEntry.sealed (e : JEntry) : JEntry := { e with crc := crc32cStd e.body }

/-- Does the stored CRC match the bytes? -/
def JEntry.crcOk (e : JEntry) : Bool := e.crc = crc32cStd e.body

/-- An entry is accepted into the tail. -/
def State.jadd (s : State) (e : JEntry) : State :=
  let j := s.mst.jnl
  let e := JEntry.sealed { e with seq := j.seq + 1 }
  { s with mst := { s.mst with jnl := { j with seq := j.seq + 1, tail := j.tail ++ [e] } } }

/-- One journalled change of one or more entries (MST_JNL_CNT[0]). -/
def State.jchange (s : State) (l : List JEntry) : State :=
  let sl := match l with | e :: _ => bitsOf e.idx 22 5 | [] => 0
  ((l.foldl (fun s e => s.jadd e) s).bump (aMstJnlCnt 0) 1).occur (80 + sl / 8) 0x013 1

def State.jInsert (s : State) (i : Nat) : State :=
  s.jchange
    [{ type := 1, idx := i, a := s.recW i fFlags, b := s.recW i fXlate, c := [s.recW i 0, s.recW i 1, s.recW i 2] },
     { type := 2, idx := i, c := [s.recW i 3, s.recW i 4, s.recW i 5] }]
def State.jDelete (s : State) (i : Nat) : State := s.jchange [{ type := 4, idx := i }]
def State.jWrite (s : State) (i w : Nat) : State := s.jchange [{ type := 3, word := w, idx := i, a := s.recW i w }]

/-- Entries of the journal ring (R248). -/
def ringSize : Nat := 2097152

/-- The change fits: the tail buffer of 256 KiB holds 4 096 entries, the journal ring takes what the tail holds
besides a CKPT_START and a CKPT_END (R252, log 104), and after the power-fail warning the tail accepts nothing (R247).
-/
def jFits (s0 s1 : State) : Bool :=
  let j := s1.mst.jnl
  j.seq = s0.mst.jnl.seq ||
    (!s1.top.pfail && decide (j.tail.length ≤ 4096 ∧ j.ring.length + j.tail.length + 2 ≤ ringSize))

/-! ### Placing and deleting -/

/-- Both buckets of the record an entry names. -/
def State.entBuckets (s : State) (e : FEntry) : Nat × Nat := s.keyBuckets e.own (s.recKey e.idx)

def State.fTab (s : State) (sl : Nat) : HashTab where
  ways := 8
  used := fun x => (s.fent sl x).valid
  other := fun x =>
    let b := s.entBuckets (s.fent sl x)
    if x / 8 = b.1 then b.2 else b.1
  unseen := fun x =>
    let e := s.fent sl x
    if s.unseen e.own 16 e.epoch then some e.own else none
  room := fun p => s.pickRoom p 16 sl

/-- The walk item of a record (R284). -/
def State.flowItem (s : State) (sl i : Nat) : List Byte :=
  leBytes 4 i ++ leBytes 4 0 ++ leBytes 8 (s.sliceGtc sl) ++ wordsBytes (s.recWords i)

/-- Move an entry to a free position in one slice-atomic step (R275, R285). -/
def State.fMove (s : State) (sl x y : Nat) : State :=
  let e := s.fent sl x
  let (s, e) :=
    if s.unseen e.own 16 e.epoch then (s.pickUp e.own 16 sl (s.flowItem sl e.idx), { e with epoch := !e.epoch })
    else (s, e)
  let s := (s.setFent sl x {}).setFent sl y e
  let s := if x < stashBase then (s.useBkt sl (x / 8) true).2 else s
  (s.useBkt sl (y / 8) true).2

/-- Move the entries of a path, last first, each to the free slot of its other bucket. -/
def State.fMoves (s : State) (sl : Nat) (l : List Nat) : State :=
  l.reverse.foldl (fun s x =>
    let t := s.fTab sl
    match t.freeIn (t.other x) with
    | some y => (s.fMove sl x y).occur (80 + sl / 8) 0x012 1
    | none => s) s

/-- The lowest free stash position. -/
def State.stashFree (s : State) (sl : Nat) : Option Nat :=
  let l := s.stashUsed sl
  if l.length ≥ 1024 then none
  else ((upTo (l.length + 1)).map (· + stashBase)).find? (fun x => !l.contains x)

/-- How a placement ended: placed, no room, or a record that the search read has an uncorrectable error (R232). -/
inductive Placed where
  | ok
  | full
  | bad (i : Nat)
deriving DecidableEq, Repr

/-- Where the search of R274 stands: did it read DRAM, the path it found, a record in error. -/
structure Search where
  st : State
  miss : Bool
  path : Option (List Nat) := none
  bad : Option Nat := none

/-- The search of R274 for a path of moves. Each step reads the record of the entry it takes and its other bucket
(R277). -/
def State.fSearch (s : State) (sl v : Nat) (alloc : Bool) : Nat → Nat → List Nat → Bool → Search
  | 0, _, _, m => { st := s, miss := m }
  | n + 1, g, path, m =>
    let t := s.fTab sl
    let (r, skip) := t.scan path ((upTo 8).map (fun i => 8 * g + (v + i) % 8))
    let s := s.passedOver (skip.map t.unseen)
    match r with
    | none => { st := s, miss := m }
    | some x =>
      let i := (s.fent sl x).idx
      let (m1, s) := s.readRec sl i alloc
      if s.mst.eccRec.contains i then { st := s, miss := m || m1, bad := some i }
      else
        let a := t.other x
        let (m2, s) := s.readBkt sl a
        let path := path ++ [x]
        if ((s.fTab sl).freeIn a).isSome then { st := s, miss := m || m1 || m2, path := some path }
        else s.fSearch sl v alloc n a path (m || m1 || m2)

/-- Place a new entry (R274): did it read DRAM, the state after it, and how it ended. -/
def State.fPlace (s : State) (sl : Nat) (e : FEntry) (key : List Word64) (alloc : Bool := true) :
    Bool × State × Placed :=
  let (b1, b2) := s.keyBuckets e.own key
  let v := (s.slice sl).v
  let s := s.setSlice sl { s.slice sl with v := v + 1 }
  let put := fun (s : State) (x : Nat) => ((s.setFent sl x e).useBkt sl (x / 8) true).2
  match (s.fTab sl).freeIn b1, (s.fTab sl).freeIn b2 with
  | some x, _ => (false, put s x, .ok)
  | none, some x => (false, put s x, .ok)
  | none, none =>
    let r := s.fSearch sl v alloc 8 b1 [] false
    match r.bad, r.path with
    | some i, _ => (r.miss, r.st, .bad i)
    | none, some l =>
      let s := r.st.fMoves sl l
      match (s.fTab sl).freeIn b1 with
      | some x => (r.miss, put s x, .ok)
      | none => (r.miss, s, .full)
    | none, none =>
      match r.st.stashFree sl with
      | some x => (r.miss, r.st.setFent sl x e, .ok)
      | none => (r.miss, r.st, .full)

/-- A slot of bucket g became free: the lowest stash entry of that bucket moves there (R276). -/
def State.fDrain (s : State) (sl g : Nat) : State :=
  let t := s.fTab sl
  let mine := (s.stashUsed sl).filter fun x =>
    let b := s.entBuckets (s.fent sl x)
    b.1 = g || b.2 = g
  let (r, skip) := t.scan [] mine
  let s := s.passedOver (skip.map t.unseen)
  match r, t.freeIn g with
  | some x, some y => s.fMove sl x y
  | _, _ => s

/-- The position of a record's entry, if it has one. -/
def State.entryOf (s : State) (sl i : Nat) : Option Nat :=
  let (b1, b2) := s.keyBuckets (s.recOwn i) (s.recKey i)
  (bktPositions b1 ++ bktPositions b2 ++ s.stashUsed sl).find? fun x =>
    let e := s.fent sl x
    e.valid && e.idx = i

def State.heldN (s : State) (p : Nat) : Nat := mget zeroN s.mst.held p
def State.pheldN (s : State) (p : Nat) : Nat := mget zeroN s.mst.pheld p
def State.addHeld (s : State) (p : Nat) (pers : Bool) : State :=
  { s with mst := { s.mst with
    held := mset zeroN s.mst.held p (s.heldN p + 1)
    pheld := if pers then mset zeroN s.mst.pheld p (s.pheldN p + 1) else s.mst.pheld } }
def State.subHeld (s : State) (p : Nat) (pers : Bool) : State :=
  { s with mst := { s.mst with
    held := mset zeroN s.mst.held p (s.heldN p - 1)
    pheld := if pers then mset zeroN s.mst.pheld p (s.pheldN p - 1) else s.mst.pheld } }

/-- Delete a live record (R229), journalling it when persistent (R246); its entry is looked for in the buckets of its
key, which are read (R235), and in the stash. A sweeper visit allocates no record line (R233). Did it read DRAM? -/
def State.fDeleteM (s : State) (sl i : Nat) (alloc : Bool := true) : Bool × State :=
  let p := s.recOwn i
  let pers := s.recPers i
  let b := s.keyBuckets p (s.recKey i)
  let (m1, s) := s.readBkt sl b.1
  let (m2, s) := s.readBkt sl b.2
  let at_ := s.entryOf sl i
  let s := if pers then s.jDelete i else s
  let s := (s.setRecW i fFlags (s.recW i fFlags &&& 0xFEFFFFFFFFFFFFFF)).dirtyRec sl i alloc
  let s := s.subHeld p pers
  let s := s.setSlice sl { s.slice sl with free := freePut (s.sliceGtc sl) i (s.slice sl).free }
  (m1 || m2,
    match at_ with
    | none => s
    | some x =>
      let s := s.setFent sl x {}
      if x < stashBase then ((s.useBkt sl (x / 8) true).2).fDrain sl (x / 8) else s)

def State.fDelete (s : State) (sl i : Nat) (alloc : Bool := true) : State := (s.fDeleteM sl i alloc).2

/-! ### Results -/

/-- What an operation answers (R72, R73): the state after it, whether it missed, code, rd, flow-view words, the
record index it names, and whether it met an uncorrectable error. -/
structure OpRes where
  st : State
  miss : Bool
  code : Nat
  rd : Word64 := 0xFFFFFFFFFFFFFFFF
  fv : List (Nat × Word64) := []
  idx : Nat := 0
  ecc : Bool := false

def rcOk : Nat := 1
def rcHit : Nat := 2
def rcMiss : Nat := 3
def rcFull : Nat := 4
def rcExists : Nat := 5
def rcCasFail : Nat := 6
def rcQuota : Nat := 7
def rcDenied : Nat := 8

/-- Flow-view words of a record. -/
def State.recView (s : State) (i : Nat) (mask : Nat) : List (Nat × Word64) :=
  ((upTo 16).filter (bitOf mask)).map (fun w => (w, s.recW i w))

/-- An uncorrectable error in a record just read (R232): it is deleted, and the operation completes with ECC. -/
def State.recEcc (s : State) (sl i : Nat) (miss : Bool) (alloc : Bool := true) : OpRes :=
  let own := s.recOwn i
  let s := { s with mst := { s.mst with eccRec := s.mst.eccRec.erase i } }
  let (m, s) := if s.recLive i then s.fDeleteM sl i alloc else (false, s)
  let s := (s.bump (aMstCnt sl 7) 1).safety (srcSlice sl) 0x0223 (sl + own * 2 ^ 8 + i * 65536) 5
  { st := s, miss := miss || m, code := rcMiss, ecc := true }

/-- Act on the record an index names: MISS if it is not live or bits above 26 are set, DENIED if another
partition's (R73, R231). -/
def State.byIndex (s : State) (sl : Nat) (o : FlowOp) (f : Nat → Bool → State → OpRes) : OpRes :=
  let i := o.index.toNat
  if i / 2 ^ 27 ≠ 0 then { st := s, miss := false, code := rcMiss, idx := i }
  else
    let (m, s) := s.readRec sl i
    if s.mst.eccRec.contains i then s.recEcc sl i m
    else if !s.recLive i then { st := s, miss := m, code := rcMiss, idx := i }
    else if s.recOwn i ≠ o.part then { st := s, miss := m, code := rcDenied, idx := i }
    else f i m s

/-- Act on the record a key names, or on its absence. -/
def State.byKey (s : State) (sl : Nat) (o : FlowOp) (none_ : Bool → State → OpRes) (f : Nat → Bool → State → OpRes) :
    OpRes :=
  match s.findKey sl o.part (o.view.take 6) with
  | (m, s, .absent) => none_ m s
  | (m, s, .at_ x) => f (s.fent sl x).idx m s
  | (m, s, .bad i) => s.recEcc sl i m

def noRecord (m : Bool) (s : State) : OpRes := { st := s, miss := m, code := rcMiss }

/-- Store a record word and mark its line dirty. -/
def State.putW (s : State) (sl i w : Nat) (v : Word64) : State := (s.setRecW i w v).dirtyRec sl i

/-- Write a program's word: F_FLAGS keeps bits [63:56]; the change of a persistent record is journalled (R223,
R246). -/
def State.writeW (s : State) (sl i w : Nat) (v : Word64) : State :=
  let old := s.recW i w
  let v := if w = fFlags then (old &&& 0xFF00000000000000) ||| (v &&& 0x00FFFFFFFFFFFFFF) else v
  let s := s.putW sl i w v
  let changed := if w = fFlags then decide ((old ^^^ v) &&& 0x7FFFFFFF ≠ 0) else w = fXlate && decide (old ≠ v)
  if s.recPers i && changed then s.jWrite i w else s

/-- Words a program may not write (R221). -/
def readOnlyWord (w : Nat) : Bool := w < 6 || w = 15

/-- flow.add (R73, R226): mode 1 accounts, mode 2 saturates. -/
def State.opAdd (s : State) (sl : Nat) (mode : BitVec 2) (w : Nat) (v : Word64) (pkts i : Nat) (m : Bool) : OpRes :=
  if mode = 1 then
    let s := s.putW sl i fPkts (s.recW i fPkts + BitVec.ofNat 64 pkts)
    let s := s.putW sl i fBytes (s.recW i fBytes + v)
    let s := s.putW sl i fLast (BitVec.ofNat 64 (s.sliceGtc sl))
    { st := s, miss := m, code := rcOk, rd := s.recW i fBytes, idx := i }
  else if readOnlyWord w then { st := s, miss := m, code := rcDenied, idx := i }
  else
    let sum := (s.recW i w).toNat + v.toNat
    let r := if mode = 2 then BitVec.ofNat 64 (min sum (2 ^ 64 - 1)) else BitVec.ofNat 64 sum
    let s := s.writeW sl i w r
    { st := s, miss := m, code := rcOk, rd := s.recW i w, idx := i }

/-- flow.cas (R73, R223). -/
def State.opCas (s : State) (sl w : Nat) (cmp new : Word64) (uncond : Bool) (i : Nat) (m : Bool) : OpRes :=
  if readOnlyWord w then { st := s, miss := m, code := rcDenied, idx := i }
  else
    let old := s.recW i w
    if uncond || old = cmp then { st := s.writeW sl i w new, miss := m, code := rcOk, rd := old, idx := i }
    else { st := s, miss := m, code := rcCasFail, rd := old, idx := i }

/-- The service of a balanced insert, if the insert is one (R305). -/
def State.balanced (s : State) (o : FlowOp) : Bool :=
  bitOf (s.com aMstLbDom) o.dom && (o.view.getD fFlags 0).getLsbD 19

/-- May the service n of a balanced insert be used (R306)? -/
def State.lbAllowed (s : State) (o : FlowOp) : Bool :=
  let fl := (o.view.getD fFlags 0).toNat
  let n := bitsOf fl 0 10
  decide (bitsOf fl 10 9 = 0 ∧ s.cfld (aMstLbRange o.part) 0 10 ≤ n ∧ n ≤ s.cfld (aMstLbRange o.part) 16 10) &&
    bitOf (s.regN (aMstLbSvc n)) 31

/-- The new record of an insert (R228, R307). -/
def State.newRecord (s : State) (sl : Nat) (o : FlowOp) (pers lb : Bool) : List Word64 :=
  let now := BitVec.ofNat 64 (s.sliceGtc sl)
  let fl := (o.view.getD fFlags 0).toNat
  let n := bitsOf fl 0 10
  let slot :=
    (mget zero64 s.mst.lb ((natBool (bitOf (s.regN (aMstLbSvc n)) 0) * 1024 + n) * 16384 +
      s.keyHash 0 o.part (o.view.take 6) / 2 ^ 45 % 16384)).toNat
  let low := if lb then putBits fl 0 20 (slot / 2 ^ 48) else fl
  let flags := low % 2 ^ 56 + (o.dom * 16 + o.part * 4 + natBool pers * 2 + 1) * 2 ^ 56
  (upTo 16).map fun w =>
    if w = fFlags then BitVec.ofNat 64 flags
    else if w = fLast ∨ w = fCreate then now
    else if w = fXlate ∧ lb then BitVec.ofNat 64 (putBits (o.view.getD fXlate 0).toNat 0 48 slot)
    else o.view.getD w 0

/-- The checks of R228 after EXISTS, and the insert. -/
def State.insertNew (s : State) (sl : Nat) (o : FlowOp) (pers lb m : Bool) : OpRes :=
  let p := o.part
  let full := fun (m : Bool) (s : State) => ({ st := s.bump (aMstCnt sl 4) 1, miss := m, code := rcFull } : OpRes)
  if s.cfld (aMstQuota p) 0 28 ≤ s.heldN p ∨ (pers ∧ s.cfld (aMstPquota p) 0 21 ≤ s.pheldN p) then
    { st := s, miss := m, code := rcQuota }
  else
    match freeTake (s.sliceGtc sl) (s.slice sl).free with
    | none => full m s
    | some (i, freed, rest) =>
      let rec_ := s.newRecord sl o pers lb
      let e : FEntry := { valid := true, fp := s.keyHash 0 p (o.view.take 6) % 2 ^ 32, idx := i, pers := pers,
                          own := p, epoch := s.newEpoch p 16 }
      let s := s.setSlice sl { s.slice sl with free := rest }
      let back := fun (s : State) =>
        s.setSlice sl { s.slice sl with free := { first := i, count := 1, freed := freed } :: (s.slice sl).free }
      match s.fPlace sl e (o.view.take 6) with
      | (m1, s, .ok) =>
        let s := (s.setRecWords i rec_).dirtyRec sl i
        let s := s.addHeld p pers
        let s := if pers then s.jInsert i else s
        let s := if lb then s.bump (aMstLbCnt p 0) 1 else s
        { st := s, miss := m || m1, code := rcOk, rd := BitVec.ofNat 64 i, fv := if lb then s.recView i 0xFFFF else []
          idx := i }
      | (m1, s, .full) => full (m || m1) (back s)
      | (m1, s, .bad j) => (back s).recEcc sl j (m || m1)

/-- flow.ins and FLOW_INSERT (R228, R306). -/
def State.opIns (s : State) (sl : Nat) (o : FlowOp) (pers : Bool) : OpRes :=
  let lb := s.balanced o
  let absent := fun (m : Bool) (s : State) =>
    if lb && !s.lbAllowed o then
      ({ st := s.bump (aMstLbCnt o.part 2) 1, miss := m, code := rcDenied } : OpRes)
    else s.insertNew sl o pers lb m
  let present := fun (i : Nat) (m : Bool) (s : State) =>
    ({ st := if lb then s.bump (aMstLbCnt o.part 1) 1 else s, miss := m, code := rcExists, rd := BitVec.ofNat 64 i,
       fv := s.recView i 0xFFFF, idx := i } : OpRes)
  s.byKey sl o absent present

/-- Delete the record that an operation names. -/
def opDel (sl i : Nat) (m : Bool) (s : State) : OpRes :=
  let (m1, s) := s.fDeleteM sl i
  { st := s, miss := m || m1, code := rcOk, rd := 0, idx := i }

/-- `meter` with F = 1 (R382): the per-flow meter of the record, with the Weir's profiles, and its counters. -/
def State.opMeter (s : State) (sl : Nat) (o : FlowOp) (bytes : Nat) (aware : Bool) (colour : Nat) : OpRes :=
  let r := s.byIndex sl o fun i m s =>
    let mt := meterOf (s.recW i fMtr0) (s.recW i fMtr1)
    if !s.ownsProf o.part .mpr mt.prof then { st := s, miss := m, code := rcDenied, idx := i }
    else
      let (col, mt') := meterRun (s.mprof mt.prof) mt (bytes % 65536) (if aware then colour else 0) (s.sliceGtc sl)
      let s := if mt.prof = 0 then s
        else (s.putW sl i fMtr0 mt'.word0).putW sl i fMtr1 (meterWord1 (s.recW i fMtr1) mt')
      { st := s.bump (aQshWeirCnt o.part col) 1, miss := m, code := rcOk, rd := BitVec.ofNat 64 col, idx := i }
  if r.code = rcOk ∨ r.ecc then r else { r with st := r.st.bump (aQshWeirCnt o.part 3) 1 }

/-- FLOW_SEARCH (R280): the record as one slice-atomic read. -/
def opSearch (i : Nat) (m : Bool) (s : State) : OpRes :=
  { st := s, miss := m, code := rcHit, rd := BitVec.ofNat 64 i, fv := s.recView i 0xFFFF, idx := i }

def Image.bytes (x : Image) : List Byte :=
  wordsBytes x.key ++ leBytes 8 x.xlate.toNat ++
    leBytes 8 (x.idx % 2 ^ 27 + x.own % 4 * 2 ^ 27 + x.dom % 16 * 2 ^ 29 + x.flags % 2 ^ 31 * 2 ^ 33)

def State.setJnl (s : State) (j : Journal) : State := { s with mst := { s.mst with jnl := j } }

/-- The images of a checkpoint area. -/
def Journal.images (j : Journal) (area : Nat) : List Image := if area = 0 then j.area0 else j.area1
def Journal.setImages (j : Journal) (area : Nat) (l : List Image) : Journal :=
  if area = 0 then { j with area0 := l } else { j with area1 := l }

/-- Step 3 of a checkpoint whose reads are made: CKPT_END with N and the CRC (R251). A power failure before it abandons
the checkpoint (R252). -/
def State.ckptClose (s : State) : State :=
  match s.mst.jnl.ckpt with
  | some k =>
    if k.reads = 0 ∧ !s.top.pfail then
      let l := s.mst.jnl.images k.area
      s.jadd { type := 6, idx := k.area, a := BitVec.ofNat 64 l.length
               b := ((crc32cStd (l.flatMap Image.bytes)).zeroExtend 64 : Word64) }
    else s
  | none => s

/-- A checkpoint read (R251): the image of a persistent record goes to the area; it allocates no line (R233). -/
def State.opCkpt (s : State) (sl i : Nat) : OpRes :=
  match s.mst.jnl.ckpt with
  | some k =>
    let (m, s) := s.readRec sl i false
    let r := if s.mst.eccRec.contains i then s.recEcc sl i m false
      else if s.recLive i && s.recPers i then
        let im : Image := { key := s.recKey i, xlate := s.recW i fXlate, idx := i, own := s.recOwn i, dom := s.recDom i,
                            flags := bitsOf (s.recW i fFlags).toNat 0 31 }
        let j := s.mst.jnl
        { st := s.setJnl (j.setImages k.area (j.images k.area ++ [im])), miss := m, code := rcOk }
      else { st := s, miss := m, code := rcOk }
    let j := r.st.mst.jnl
    { r with st := (r.st.setJnl { j with ckpt := some { k with reads := k.reads - 1 } }).ckptClose }
  | none => { st := s, miss := false, code := rcOk }

/-- Apply one operation at its home slice. -/
def State.applyOp (s : State) (sl : Nat) (o : FlowOp) : OpRes :=
  match o.kind with
  | .get mask => s.byKey sl o noRecord fun i m s =>
      { st := s, miss := m, code := rcHit, rd := BitVec.ofNat 64 i, fv := s.recView i mask.toNat, idx := i }
  | .add mode w v n => s.byIndex sl o fun i m s => s.opAdd sl mode w v n i m
  | .cas w c v u => s.byIndex sl o fun i m s => s.opCas sl w c v u i m
  | .ins pers => s.opIns sl o pers
  | .del => s.byIndex sl o (opDel sl)
  | .meter b a c => s.opMeter sl o b a c
  | .search byIdx _ => if byIdx then s.byIndex sl o opSearch else s.byKey sl o noRecord opSearch
  | .hostDel byIdx => if byIdx then s.byIndex sl o (opDel sl) else s.byKey sl o noRecord (opDel sl)
  | .ckpt => s.opCkpt sl o.index.toNat

/-! ### The way of an operation to its slice (R71, R226, R236) -/

/-- Would the operation read DRAM now (R235)? -/
def State.wouldMiss (s : State) (sl : Nat) (o : FlowOp) : Bool := (s.applyOp sl o).miss

/-- Misses in the slice's miss queue (R236; log 14): operations that wait at the slice and need DRAM. -/
def State.missQ (s : State) (sl : Nat) : Nat := ((s.slice sl).queue.filter (s.wouldMiss sl)).length

/-- Are operations held at their clusters: is the miss queue full, which one of fewer than 256 operations is not, or the
flow island in a block reset (R497)? -/
def State.missFull (s : State) (sl : Nat) : Bool :=
  s.blkOn 1 (sl / 8) || (decide (256 ≤ (s.slice sl).queue.length) && decide (256 ≤ s.missQ sl))

/-- Send an operation to a home slice: operations keep their order (R71). -/
def State.sendFlow (s : State) (sl : Nat) (o : FlowOp) : State :=
  s.setSlice sl { s.slice sl with queue := (s.slice sl).queue ++ [o] }

/-- Hold an operation at its cluster. -/
def State.holdFlow (s : State) (sl : Nat) (o : FlowOp) : State :=
  s.setSlice sl { s.slice sl with held := (s.slice sl).held ++ [o] }

end Sys2Proof.Machine
end

