-- ==== Sys2Proof/Machine/EmTable.lean ====
section
/-! DEFINITION. The exact-match tables (R268 to R276): finding, placing, moving and deleting entries. Table r holds
131 072 bucket positions (bucket b has positions 4 b to 4 b + 3) and, after them, 256 stash positions. -/

namespace Sys2Proof.Machine

open Sys2Proof

def dEm : Nat → EmEntry := fun _ => {}
def emBase (r : Nat) : Nat := r * 131328
def State.emAt (s : State) (r pos : Nat) : EmEntry := mget dEm s.em (emBase r + pos)
def State.setEm (s : State) (r pos : Nat) (e : EmEntry) : State :=
  { s with em := mset dEm s.em (emBase r + pos) e }

/-- A seed of table r (EMT_SEED, R295). -/
def State.emSeed (s : State) (r i : Nat) : Word64 :=
  BitVec.ofNat 64 (s.regN (aEmtSeed r i) + s.regN (aEmtSeed r i + 4) * 2 ^ 32)

/-- The two buckets of a key (R269). -/
def State.emBuckets (s : State) (r p type : Nat) (key : Word64) : Nat × Nat :=
  let kb := leBytes 8 key.toNat ++ [BitVec.ofNat 8 type]
  let b1 := (hk (s.emSeed r 0) p kb).toNat % 32768
  let b2 := (hk (s.emSeed r 1) p kb).toNat % 32768
  (b1, if b2 = b1 then b1 ^^^ 1 else b2)

def wayPositions (b : Nat) : List Nat := [4 * b, 4 * b + 1, 4 * b + 2, 4 * b + 3]
def stashPositions : List Nat := (upTo 256).map (· + 131072)

/-- Where a key is present for partition p (R270). -/
def State.emFind (s : State) (r p type : Nat) (key : Word64) : Option Nat :=
  let (b1, b2) := s.emBuckets r p type key
  let ok := fun (pos : Nat) =>
    let e := s.emAt r pos
    e.valid && e.part == p && e.type == type && e.key == key
  match (wayPositions b1 ++ wayPositions b2).find? ok with
  | some x => some x
  | none =>
    -- the stash is searched through its listed entries
    match s.em.find? (fun e => decide (emBase r + 131072 ≤ e.1 ∧ e.1 < emBase r + 131328) && e.2.valid &&
        e.2.part == p && e.2.type == type && e.2.key == key) with
    | some e => some (e.1 - emBase r)
    | none => none

/-- A lookup: on HIT the entry's AGE becomes 0 (R271). -/
def State.emLookup (s : State) (r p type : Nat) (key : Word64) : Option EmEntry × State :=
  match s.emFind r p type key with
  | some pos =>
    let e := s.emAt r pos
    (some e, s.setEm r pos { e with age := 0 })
  | none => (none, s)

/-! ### Placing and deleting (R274 to R276) -/

/-- The two words of an entry (R268). -/
def EmEntry.bytes (e : EmEntry) (showE : Bool) : List Byte :=
  leBytes 8 e.key.toNat ++
    leBytes 8 (e.data % 2 ^ 40 + e.age % 64 * 2 ^ 41 + e.port % 512 * 2 ^ 47 + e.part % 4 * 2 ^ 56 +
      natBool (showE && e.epoch) * 2 ^ 58 + natBool e.static * 2 ^ 59 + natBool e.valid * 2 ^ 60 + e.type % 8 * 2 ^ 61)

/-- Listed positions in use of table r, ascending. -/
def State.emUsed (s : State) (r : Nat) : List Nat :=
  (s.em.filter (fun e => decide (emBase r ≤ e.1 ∧ e.1 < emBase (r + 1)) && e.2.valid)).map (fun e => e.1 - emBase r)

/-- The positions in use in the order in which a whole table is gone through so that each entry is met once: the stash
first, since an entry of the stash may move to a bucket on the way (R276). -/
def State.emOnce (s : State) (r : Nat) : List Nat :=
  let l := s.emUsed r
  l.filter (fun x => decide (131072 ≤ x)) ++ l.filter (fun x => decide (x < 131072))

def State.emStash (s : State) (r : Nat) : List Nat := (s.emUsed r).filter (fun x => decide (131072 ≤ x))

def State.entryBuckets (s : State) (r : Nat) (e : EmEntry) : Nat × Nat := s.emBuckets r e.part e.type e.key

def State.emTab (s : State) (r : Nat) : HashTab where
  ways := 4
  used := fun x => (s.emAt r x).valid
  other := fun x =>
    let b := s.entryBuckets r (s.emAt r x)
    if x / 4 = b.1 then b.2 else b.1
  unseen := fun x =>
    let e := s.emAt r x
    if s.unseen e.part r e.epoch then some e.part else none
  room := fun p => s.pickRoom p r 0

/-- The walk item of an entry (R284): where is 0 bucket, 1 stash, 2 pickup. -/
def emItem (r : Nat) (e : EmEntry) (where_ bucket : Nat) : List Byte :=
  e.bytes false ++ leBytes 1 r ++ leBytes 1 where_ ++ leBytes 2 0 ++ leBytes 4 bucket ++ leBytes 8 0

/-- Move an entry to a free position in one table cycle (R275, R285). -/
def State.emMove (s : State) (r x y : Nat) : State :=
  let e := s.emAt r x
  let (s, e) :=
    if s.unseen e.part r e.epoch then (s.pickUp e.part r 0 (emItem r e 2 0), { e with epoch := !e.epoch }) else (s, e)
  (s.setEm r x {}).setEm r y e

/-- Place a new entry (R274): the state after it, and where it went, if it found room: 0 a free slot, 1 after moves,
2 the stash. -/
def State.emPlace (s : State) (r : Nat) (e : EmEntry) : State × Option Nat :=
  let (b1, b2) := s.entryBuckets r e
  let x := s.race r
  let t := s.emTab r
  let (pl, skip) := t.placing x.relocV b1 b2
  let s := s.passedOver (skip.map t.unseen)
  let s := s.setRace r { s.race r with relocV := x.relocV + 1 }
  match pl with
  | .direct y => (s.setEm r y e, some 0)
  | .path l =>
    let s := l.reverse.foldl (fun s x =>
      let t := s.emTab r
      match t.freeIn (t.other x) with
      | some y => s.emMove r x y
      | none => s) s
    let s := s.bump (aEmtCnt r 2) 1
    match (s.emTab r).freeIn b1 with
    | some y => (s.setEm r y e, some 1)
    | none => (s, none)
  | .neither =>
    let st := s.emStash r
    if st.length ≥ 256 then (s, none)
    else
      match ((upTo (st.length + 1)).map (· + 131072)).find? (fun y => !st.contains y) with
      | some y => ((s.setEm r y e).bump (aEmtCnt r 3) 1, some 2)
      | none => (s, none)

/-- A slot of bucket g became free: the lowest stash entry of that bucket moves there (R276). -/
def State.emDrain (s : State) (r g : Nat) : State :=
  let t := s.emTab r
  let mine := (s.emStash r).filter fun x =>
    let b := s.entryBuckets r (s.emAt r x)
    b.1 = g || b.2 = g
  let (y, skip) := t.scan [] mine
  let s := s.passedOver (skip.map t.unseen)
  match y, t.freeIn g with
  | some x, some z => s.emMove r x z
  | _, _ => s

/-- Delete the entry at a position. -/
def State.emDelete (s : State) (r x : Nat) : State :=
  let s := s.setEm r x {}
  if x < 131072 then s.emDrain r (x / 4) else s

end Sys2Proof.Machine
end

