-- ==== Sys2Proof/WellFormed.lean ====
section
/-! DEFINITION. Well-formed commands: no reserved encoding of an engine instruction (R52, R53, R57, R61, R64, R65,
R68, R73, R76, R77, R79), and numbers of units and places that exist. -/

namespace Sys2Proof

/-! ### Reserved encodings -/

/-- ALU functions 0x16 to 0x1F (R57). -/
def badFn (fn : BitVec 5) : Bool := decide (0x16 ≤ fn.toNat)
/-- Branch conditions 0xD to 0xF (R61). -/
def badCond (cond : BitVec 4) : Bool := decide (0xD ≤ cond.toNat)
/-- Widths 2 and 3 of csum.adj (R64). -/
def badWidth (width : BitVec 2) : Bool := decide (2 ≤ width.toNat)
/-- sel 3, 6 and 7 of tstamp, and a register with sel 4 or 5 (R65). -/
def badStamp (sel : BitVec 3) (rd : GReg) : Bool := decide (sel.toNat = 3 ∨ 6 ≤ sel.toNat ∨ (4 ≤ sel.toNat ∧ rd.val ≠ 0))
/-- Tag 15 names no operation (R68). -/
def badTag (tag : GReg) : Bool := decide (tag.val = 15)
/-- flow.add: mode 3, a word in mode 1, or a posted one with a result register (R53, R68, R73). -/
def badAdd (rd tag : GReg) (word : BitVec 4) (mode : BitVec 2) : Bool :=
  decide (mode.toNat = 3 ∨ (mode.toNat = 1 ∧ word ≠ 0) ∨ (tag.val = 15 ∧ rd.val ≠ 0))
/-- lkp.em: learn data without learning (R53). -/
def badLookup (tag rb : GReg) (learn : Bool) : Bool := decide (tag.val = 15 ∨ (!learn ∧ rb.val ≠ 0))
/-- wait: kind 3, or a value its kind does not have (R53, R76). -/
def badWait (kind : BitVec 2) (n : BitVec 9) : Bool :=
  let m := n.toNat
  decide (kind.toNat = 3 ∨ (kind.toNat = 0 ∧ 15 < m) ∨ (kind.toNat = 1 ∧ (m = 0 ∨ 256 < m)) ∨ (kind.toNat = 2 ∧ 14 < m))
/-- delay: a count beside a register, or a register without X (R53). -/
def badDelay (x : Bool) (ra : GReg) (count : Half) : Bool :=
  decide ((x = true ∧ count ≠ 0) ∨ (x = false ∧ ra.val ≠ 0))
/-- emit: a queue register without Q (R53). -/
def badEmit (q : Bool) (ra : GReg) : Bool := decide (q = false ∧ ra.val ≠ 0)
/-- drop reasons of exceptions (R79). -/
def badReason (reason : Byte) : Bool := decide (0xE0 ≤ reason.toNat)

/-- The instruction is a reserved encoding (R52, R53). -/
def Instr.reserved : Instr → Bool
  | .aluReg _ _ _ _ _ fn | .aluImm _ _ _ _ fn _ => badFn fn
  | .br _ cond _ => badCond cond
  | .csumAdj _ _ _ _ width => badWidth width
  | .tstamp _ rd sel _ => badStamp sel rd
  | .flowGet _ _ tag _ | .flowCas _ _ tag _ _ _ _ | .flowIns _ _ tag _ | .flowDel _ _ tag _ | .lkpLpm _ _ tag _ _ _ |
    .hashCrc32c _ _ tag _ _ _ | .csumSum _ _ tag _ _ _ | .meter _ _ tag _ _ _ _ | .hashCrc32 _ _ tag _ _ _ |
    .hashH0 _ _ tag _ _ _ => badTag tag
  | .flowAdd _ rd tag _ _ word mode => badAdd rd tag word mode
  | .lkpEm _ _ tag _ rb _ learn => badLookup tag rb learn
  | .wait _ kind n => badWait kind n
  | .delay _ _ x ra count => badDelay x ra count
  | .emit _ q _ ra => badEmit q ra
  | .drop _ reason => badReason reason
  | _ => false

/-! ### Numbers that exist -/

/-- Queues: 262 144 of the subscribers and 4 096 direct ones (R359). -/
def queueCount : Nat := 266240

/-- The unit or place a command names exists. -/
def Instr.placed : Instr → Bool
  | .spillWrite q | .samplerVisit q => decide (q < queueCount)
  | .restampDone t => decide (t < 17)
  | .meterRefresh k => decide (k < 2 ^ 20)
  | .tcamScan _ rule _ => decide (rule < 16384)
  | .registerWrite (.host _) a _ | .lowWordReadLatch (.host _) a =>
    decide ((a < 2 ^ 28 ∨ (2 ^ 32 ≤ a ∧ a < 2 ^ 32 + 2 ^ 30) ∨ (2 ^ 33 ≤ a ∧ a < 2 ^ 33 + 4096)) ∧ a % 4 = 0)
  | .registerWrite .eosta a _ | .lowWordReadLatch .eosta a | .stagedCommitGo _ a | .stagedCommitDiscard _ a =>
    decide (a < 2 ^ 28 ∧ a % 4 = 0)
  | .ageingMeasure islands canaries => islands.all (fun e => decide (e.1 < 107)) && canaries.all (fun e => decide (e.1 < 3264))
  | _ => true

/-- A well-formed command. -/
def Instr.wf (c : Instr) : Bool := !c.reserved && c.placed

end Sys2Proof
end

