-- ==== Sys2Proof/Machine/Encode.lean ====
section
/-! DEFINITION. The instruction words of R52 and R53, field by field, and their slot costs (R54). -/

namespace Sys2Proof.Machine

open Sys2Proof

def op6 (n : Nat) : BitVec 6 := BitVec.ofNat 6 n
def r4 (r : GReg) : BitVec 4 := BitVec.ofNat 4 r.val
def bit1 (b : Bool) : BitVec 1 := BitVec.ofBool b

/-- Format R. -/
def encR (rd ra rb : GReg) (f : Bool) (fn : BitVec 5) : Word32 :=
  op6 0x01 ++ r4 rd ++ r4 ra ++ r4 rb ++ bit1 f ++ fn ++ 0#8
/-- Format I. -/
def encI (rd ra : GReg) (f : Bool) (fn : BitVec 5) (imm : BitVec 12) : Word32 :=
  op6 0x02 ++ r4 rd ++ r4 ra ++ bit1 f ++ fn ++ imm
/-- Format W. -/
def encW (rd : GReg) (sub : BitVec 2) (imm : Half) : Word32 :=
  op6 0x03 ++ r4 rd ++ sub ++ 0#4 ++ imm
/-- Format M. -/
def encM (op : Nat) (rd : GReg) (space size : BitVec 2) (x : Bool) (ra : GReg) (off : Byte) : Word32 :=
  op6 op ++ r4 rd ++ space ++ size ++ bit1 x ++ r4 ra ++ 0#5 ++ off
/-- Format E. -/
def encE (op : Nat) (rd ra : GReg) (pos len1 : BitVec 6) : Word32 :=
  op6 op ++ r4 rd ++ r4 ra ++ pos ++ len1 ++ 0#6
/-- Format B. -/
def encB (op : Nat) (a : BitVec 4) (off : Half) : Word32 := op6 op ++ a ++ 0#6 ++ off
/-- Format BR. -/
def encBR (ra : GReg) : Word32 := op6 0x0A ++ 0#4 ++ r4 ra ++ 0#18
/-- Format BC. -/
def encBC (tag : GReg) (code : BitVec 4) (s : Bool) (off : Half) : Word32 :=
  op6 0x0B ++ r4 tag ++ code ++ bit1 s ++ 0#1 ++ off
/-- Format C. -/
def encC (rd ra rb : GReg) (width : BitVec 2) : Word32 :=
  op6 0x0C ++ r4 rd ++ r4 ra ++ r4 rb ++ width ++ 0#12
/-- Format T. -/
def encT (rd : GReg) (sel : BitVec 3) (off : Byte) : Word32 := op6 0x0D ++ r4 rd ++ sel ++ 0#11 ++ off
/-- Format A: opcode, rd, tag, and 18 bits of the operation. -/
def encA (op : Nat) (rd tag : GReg) (rest : BitVec 18) : Word32 := op6 op ++ r4 rd ++ r4 tag ++ rest
def encFlowGet (rd tag : GReg) (mask : Half) : Word32 := encA 0x10 rd tag (0#2 ++ mask)
def encFlowAdd (rd tag ra rb : GReg) (word : BitVec 4) (mode : BitVec 2) : Word32 :=
  encA 0x11 rd tag (r4 ra ++ r4 rb ++ word ++ mode ++ 0#4)
def encFlowCas (rd tag ra rb : GReg) (word : BitVec 4) (u : Bool) : Word32 :=
  encA 0x12 rd tag (r4 ra ++ r4 rb ++ word ++ bit1 u ++ 0#5)
def encFlowIns (rd tag : GReg) (p : Bool) : Word32 := encA 0x13 rd tag (bit1 p ++ 0#17)
def encFlowDel (rd tag ra : GReg) : Word32 := encA 0x14 rd tag (r4 ra ++ 0#14)
def encLkpEm (rd tag ra rb : GReg) (type : BitVec 3) (l : Bool) : Word32 :=
  encA 0x18 rd tag (r4 ra ++ r4 rb ++ type ++ bit1 l ++ 0#6)
def encLkpLpm (rd tag ra : GReg) (v6 : Bool) (off : Byte) : Word32 :=
  encA 0x19 rd tag (r4 ra ++ bit1 v6 ++ 0#5 ++ off)
/-- hash.* and csum.sum: opcodes 0x1A, 0x1B, 0x1D, 0x1E. -/
def encHash (op : Nat) (rd tag : GReg) (space : BitVec 2) (len off : Byte) : Word32 :=
  encA op rd tag (space ++ len ++ off)
def encMeter (rd tag ra rb : GReg) (f c : Bool) : Word32 :=
  encA 0x1C rd tag (r4 ra ++ r4 rb ++ bit1 f ++ bit1 c ++ 0#8)
def encWait (kind : BitVec 2) (n : BitVec 9) : Word32 := op6 0x20 ++ kind ++ 0#15 ++ n
def encDelay (unit : BitVec 2) (x : Bool) (ra : GReg) (count : Half) : Word32 :=
  op6 0x21 ++ unit ++ bit1 x ++ 0#3 ++ r4 ra ++ count
def encYield : Word32 := op6 0x22 ++ 0#26
def encOrdrel : Word32 := op6 0x23 ++ 0#26
def encEmit (q m : Bool) (ra : GReg) : Word32 := op6 0x30 ++ bit1 q ++ bit1 m ++ 0#2 ++ r4 ra ++ 0#18
def encDrop (reason : Byte) : Word32 := op6 0x31 ++ 0#18 ++ reason
def encTrap (ring : BitVec 6) (code : Byte) : Word32 := op6 0x32 ++ ring ++ 0#12 ++ code
def encRecirc : Word32 := op6 0x33 ++ 0#26

/-- Issue slots of an instruction word in the vertical and the two-level format (R54, R55); a branch is charged
as taken or not by its caller. -/
def slotCost (two taken : Bool) (w : Word32) : Nat :=
  let op := bitsOf w.toNat 26 6
  let n := bitsOf w.toNat 8 8 + 1
  if op = 0x01 then (if bitsOf w.toNat 8 5 = 0x0A then 2 else 1)
  else if op = 0x02 then (if bitsOf w.toNat 12 5 = 0x0A then 2 else 1)
  else if op = 0x08 ∨ op = 0x0B then (if taken then (if two then 3 else 2) else 1)
  else if op = 0x09 ∨ op = 0x0A then (if two then 3 else 2)
  else if op = 0x0C then (if two then 4 else 6)
  else if op = 0x10 then 3
  else if op = 0x13 then 7
  else if op = 0x1A ∨ op = 0x1B ∨ op = 0x1D ∨ op = 0x1E then
    (if two then 1 + (n + 23) / 24 else 1 + (n + 15) / 16)
  else if op = 0x11 ∨ op = 0x12 ∨ op = 0x14 ∨ op = 0x18 ∨ op = 0x19 ∨ op = 0x1C ∨ op = 0x31 then 2
  else if op = 0x21 then (if two then 10 else 12)
  else if op = 0x30 ∨ op = 0x32 ∨ op = 0x33 then (if two then 3 else 4)
  else 1

end Sys2Proof.Machine
end

