-- ==== Sys2Proof/Machine/Flags.lean ====
section
/-! DEFINITION. The arithmetic of R57, the program flags of R58, the conditions of R61. -/

namespace Sys2Proof.Machine

open Sys2Proof

def popcN (x : Word64) : Nat := ((upTo 64).filter (fun i => x.getLsbD i)).length

def clzFrom (x : Word64) : Nat → Nat
  | 0 => 0
  | n + 1 => if x.getLsbD n then 0 else 1 + clzFrom x n

/-- Swap the `n` low bytes of a word, zero-extended. -/
def bswap (n : Nat) (x : Word64) : Word64 := BitVec.ofNat 64 (beNat (leBytes n x.toNat))

/-- The result of function `fn` on ra and b (R57); cmp and tst give what their flags test. -/
def aluResult (fn : Nat) (a b : Word64) : Word64 :=
  let n := b.toNat % 64
  match fn with
  | 0x00 => a + b
  | 0x01 => a - b
  | 0x02 => a &&& b
  | 0x03 => a ||| b
  | 0x04 => a ^^^ b
  | 0x05 => a &&& ~~~ b
  | 0x06 => a <<< n
  | 0x07 => a >>> n
  | 0x08 => a.sshiftRight n
  | 0x09 => a.rotateLeft n
  | 0x0A => a * b
  | 0x0B => if a.toNat ≤ b.toNat then a else b
  | 0x0C => if a.toNat ≤ b.toNat then b else a
  | 0x0D => a - b
  | 0x0E => a &&& b
  | 0x0F => b
  | 0x10 => ~~~ b
  | 0x11 => bswap 2 b
  | 0x12 => bswap 4 b
  | 0x13 => bswap 8 b
  | 0x14 => BitVec.ofNat 64 (popcN b)
  | _ => BitVec.ofNat 64 (clzFrom b 64)

/-- The carry flag of R58. -/
def aluCarry (fn : Nat) (a b : Word64) : Bool :=
  let n := b.toNat % 64
  match fn with
  | 0x00 => decide (a.toNat + b.toNat ≥ 2 ^ 64)
  | 0x01 | 0x0D => decide (b.toNat ≤ a.toNat)
  | 0x06 => if n = 0 then false else a.getLsbD (64 - n)
  | 0x07 | 0x08 => if n = 0 then false else a.getLsbD (n - 1)
  | 0x09 => if n = 0 then false else (a.rotateLeft n).getLsbD 0
  | _ => false

/-- The overflow flag of R58: the exact signed result does not fit 64 bits. -/
def aluOverflow (fn : Nat) (a b : Word64) : Bool :=
  let fits := fun (x : Int) => decide (-(2 ^ 63) ≤ x ∧ x < 2 ^ 63)
  match fn with
  | 0x00 => !fits (a.toInt + b.toInt)
  | 0x01 | 0x0D => !fits (a.toInt - b.toInt)
  | _ => false

/-- cmp and tst write flags only (R57). -/
def aluFlagsOnly (fn : Nat) : Bool := fn = 0x0D ∨ fn = 0x0E

/-- Does the instruction set the flags (R58)? -/
def aluSetsFlags (fn : Nat) (f : Bool) : Bool := f || aluFlagsOnly fn

/-- imm12 of format I: sign-extended for 0x00, 0x01, 0x0A to 0x0D and 0x0F, zero-extended otherwise (R57). -/
def aluImm (fn : Nat) (imm : BitVec 12) : Word64 :=
  if fn = 0 ∨ fn = 1 ∨ (0x0A ≤ fn ∧ fn ≤ 0x0D) ∨ fn = 0x0F then imm.signExtend 64 else imm.zeroExtend 64

/-- The branch conditions of R61. -/
def condHolds (cond : Nat) (z n c v : Bool) : Bool :=
  match cond with
  | 0x0 => true
  | 0x1 => z
  | 0x2 => !z
  | 0x3 => n != v
  | 0x4 => n == v
  | 0x5 => !c
  | 0x6 => c
  | 0x7 => !z && n == v
  | 0x8 => z || n != v
  | 0x9 => c && !z
  | 0xA => !c || z
  | 0xB => n
  | _ => !n

/-- Bits pos to pos + len - 1 of x, bits above 63 reading 0 (R60). -/
def extField (x : Word64) (pos len : Nat) : Word64 :=
  BitVec.ofNat 64 (bitsOf x.toNat pos len)

/-- x with bits pos to pos + len - 1 replaced by the low bits of y, bits above 63 discarded (R60). -/
def insField (x y : Word64) (pos len : Nat) : Word64 :=
  let m : Word64 := BitVec.ofNat 64 ((2 ^ len - 1) * 2 ^ pos)
  (x &&& ~~~ m) ||| (BitVec.ofNat 64 (y.toNat * 2 ^ pos) &&& m)

end Sys2Proof.Machine
end

