-- ==== Sys2Proof/Machine/Operands.lean ====
section
/-! DEFINITION. What an engine instruction reads and writes: registers, the four windows (R45 to R51), the image
in the program bank (R83 to R85), and the branch targets (R62). -/

namespace Sys2Proof.Machine

open Sys2Proof

/-! ### Registers and result codes -/

/-- g0 reads 0 (R45). -/
def Ctx.gr (c : Ctx) (r : GReg) : Word64 := if r.val = 0 then 0 else mget zero64 c.g r.val

/-- A write to g0 is discarded (R45). -/
def Ctx.setGr (c : Ctx) (r : GReg) (v : Word64) : Ctx :=
  if r.val = 0 then c else { c with g := mset zero64 c.g r.val v }

/-- Result codes reset to OK (R44, R72). -/
def rc0 : Nat → BitVec 4 := fun _ => 1
def Ctx.rcOf (c : Ctx) (t : Nat) : BitVec 4 := mget rc0 c.rc t
def Ctx.setRc (c : Ctx) (t : Nat) (v : BitVec 4) : Ctx := { c with rc := mset rc0 c.rc t v }

/-! ### The image (R83) -/

def bankBase (r : Nat) : Nat := r * 524288

/-- A number of the image of `c` in its race's bank. -/
def State.img (s : State) (r : Nat) (c : Ctx) (off n : Nat) : Nat := memLe s.mems.prog (bankBase r + c.img + off) n

def roundUp64 (n : Nat) : Nat := (n + 63) / 64 * 64
/-- Offset of the constant pool: after the entry table, rounded up to 64. -/
def State.poolOff (s : State) (r : Nat) (c : Ctx) : Nat := roundUp64 (0x40 + 4 * s.img r c 6 2)
def State.codeOff (s : State) (r : Nat) (c : Ctx) : Nat := s.poolOff r c + 256
/-- N, the number of code words. -/
def State.codeLen (s : State) (r : Nat) (c : Ctx) : Nat := s.img r c 8 4
/-- The instruction word at the thread's pc. -/
def State.fetch (s : State) (r : Nat) (c : Ctx) : Nat := s.img r c (s.codeOff r c + 4 * c.pc.toNat) 4

/-- Its place in the program store. -/
def State.fetchAddr (s : State) (r : Nat) (c : Ctx) : Nat := bankBase r + c.img + s.codeOff r c + 4 * c.pc.toNat

/-! ### Windows (R46, R47) -/

def winSize (space : Nat) : Nat := if space = 0 then 256 else if space = 1 then 64 else if space = 2 then 128 else 256

def noByte : Nat → Option Byte := fun _ => none

/-- H of R47. -/
def Packet.hlen (p : Packet) : Nat := min p.frame.length 192

/-- Byte `i` of the header window: what the pass stored, else the frame, else 0 (R47). -/
def hdrByte (p : Packet) (c : Ctx) (i : Nat) : Byte :=
  match mget noByte c.hdr i with
  | some b => b
  | none => if i < p.hlen then p.frame.getD i 0 else 0

def fvByte (c : Ctx) (i : Nat) : Byte := BitVec.ofNat 8 (bitsOf (mget zero64 c.fv (i / 8)).toNat (8 * (i % 8)) 8)

def State.winByte (s : State) (r : Nat) (c : Ctx) (space i : Nat) : Byte :=
  match space with
  | 0 => hdrByte (s.pkt c.pkt) c i
  | 1 => getByte c.md i
  | 2 => fvByte c i
  | _ => getByte s.mems.prog (bankBase r + c.img + s.poolOff r c + i)

def State.winBytes (s : State) (r : Nat) (c : Ctx) (space off : Nat) : Nat → List Byte
  | 0 => []
  | n + 1 => s.winByte r c space off :: s.winBytes r c space (off + 1) n

/-- Spaces 0 and 3 are big-endian, 1 and 2 little-endian (R46). -/
def winNat (space : Nat) (l : List Byte) : Nat := if space = 0 ∨ space = 3 then beNat l else leNat l

/-- A read of `n` bytes of the header window from `off` on waits for those below H that have not arrived, stored over or
not (R47). Answers the arrival count the read needs. -/
def hdrNeed (p : Packet) (off : Nat) : Nat → Nat
  | 0 => 0
  | n + 1 => if off + n < p.hlen ∧ p.arrived ≤ off + n then off + n + 1 else hdrNeed p off n

def setFvByte (c : Ctx) (i : Nat) (b : Byte) : Ctx :=
  let w := (mget zero64 c.fv (i / 8)).toNat
  { c with fv := mset zero64 c.fv (i / 8) (BitVec.ofNat 64 (putBits w (8 * (i % 8)) 8 b.toNat)) }

def setWinByte (c : Ctx) (space i : Nat) (b : Byte) : Ctx :=
  match space with
  | 0 => { c with hdr := mset noByte c.hdr i (some b) }
  | 1 => { c with md := setByte c.md i b }
  | _ => setFvByte c i b

def setWinBytes (c : Ctx) (space i : Nat) : List Byte → Ctx
  | [] => c
  | b :: l => setWinBytes (setWinByte c space i b) space (i + 1) l

/-- The address of format M: off plus ra when X is set, an exact sum (R52; log 25). -/
def memAddr (c : Ctx) (x : Bool) (ra : GReg) (off : Byte) : Nat := off.toNat + if x then (c.gr ra).toNat else 0

/-- Metadata fields of R183. -/
def Ctx.mdN (c : Ctx) (off n : Nat) : Nat := memLe c.md off n
def Ctx.adj (c : Ctx) : Int := (BitVec.ofNat 16 (c.mdN 2 2)).toInt

/-- The frame with which the packet leaves (R49), or none when the bounds of R49 are broken. -/
def State.outFrame (s : State) (r : Nat) (c : Ctx) : Option (List Byte) :=
  let p := s.pkt c.pkt
  let l := (p.hlen : Int) + c.adj
  if l < 0 ∨ 256 < l then none
  else some (s.winBytes r c 0 0 l.toNat ++ p.frame.drop p.hlen)

/-- Do the one-step stamps of sel 4 and 5 lie within the first H + adj bytes (R65)? -/
def stampsFit (p : Packet) (c : Ctx) : Bool :=
  c.stamps.all fun (res, off) => decide (((off + if res then 8 else 10 : Nat) : Int) ≤ (p.hlen : Int) + c.adj)

/-! ### Watchpoints and breakpoints (R633, R634) -/

/-- Threads of a race halted by breakpoints or watchpoints. -/
def State.haltedByHits (s : State) (r : Nat) : Nat :=
  (s.threads.filter (fun e => raceOf e.1 = r &&
    match e.2.halted with
    | some (.breakpoint _) | some (.watchpoint _) => true
    | _ => false)).length

/-- Count a hit: whether it halts its thread, and the state with HITS, MISSED and EN updated. -/
def State.hit (s : State) (r a : Nat) : Bool × State :=
  let st := aDbgRaceStat r
  let once := bitOf (s.regN a) 30
  let s1 := s.setFld st 16 16 (s.fld st 16 16 + 1)
  if once then (true, s1.setFld a 31 1 0)
  else if s.haltedByHits r < 16 then (true, s1)
  else (false, s1.setFld st 0 16 (s.fld st 0 16 + 1))

/-- The breakpoint that names the instruction at the thread's pc. -/
def State.bpFind (s : State) (r : Nat) (c : Ctx) : Option Nat :=
  (upTo 8).find? fun i =>
    let v := s.regN (aDbgBp r i)
    bitOf v 31 && bitsOf v 17 13 * 64 == c.img && bitsOf v 0 15 == c.pc.toNat

/-- Does watchpoint `i` match an access to `n` bytes at `off` of a window; space 3 names a record word (R634)? -/
def State.wpMatch (s : State) (r i : Nat) (write : Bool) (space off n : Nat) : Bool :=
  let v := s.regN (aDbgWp r i)
  let kind := bitsOf v 28 2
  let o := bitsOf v 0 8
  let l := bitsOf v 17 9
  bitOf v 31 && bitsOf v 26 2 == space && bitOf kind (natBool write) &&
    (if space = 3 then o % 16 == off else decide (o < off + n ∧ off < o + l))

/-- Note the watchpoints that an instruction's accesses (offset, length) match: the thread halts at its next instruction
boundary, with the first that halts it as the cause. -/
def State.watchAll (s : State) (n : Nat) (write : Bool) (space : Nat) (spans : List (Nat × Nat)) : State :=
  (upTo 4).foldl (fun s i =>
    if spans.any (fun e => s.wpMatch (raceOf n) i write space e.1 e.2) then
      let (halts, s1) := s.hit (raceOf n) (aDbgWp (raceOf n) i)
      let x := s1.thr n
      if halts && x.wpHit.isNone then s1.setThr n { x with wpHit := some i } else s1
    else s) s

/-- One access. -/
def State.watch (s : State) (n : Nat) (write : Bool) (space off len : Nat) : State :=
  s.watchAll n write space [(off, len)]

end Sys2Proof.Machine
end

