-- ==== Sys2Proof/Machine/Micro.lean ====
section
/-! DEFINITION. The control store (R88 to R118): the micro-address space, microwords of both formats, operand selectors,
micro-conditions, gates, redirection into patch RAM, and the walk through a routine. What ROM words hold, and what a
unit gives for a FUNC, is the device's (log 8). -/

namespace Sys2Proof.Machine

open Sys2Proof

/-- A micro-operation: the body of R95, or the 52-bit field of R100 with MOD and IMM. -/
structure MOp where
  unit : Nat
  func : Nat
  dst : Nat
  srcA : Nat
  srcB : Nat
  mod : Nat := 0
  imm : Nat := 0
deriving DecidableEq, Repr

/-- A microword of either format: SP, SEQ, COND or GCOND, TARGET or the gate operand selector, its operations, and the
address that follows it under NEXT. -/
structure MWord where
  sp : Bool
  seq : Nat
  cond : Nat
  target : Nat
  ops : List MOp
  next : Nat
deriving DecidableEq, Repr

/-! ### The formats (R95, R99, R100) -/

/-- The operation body of R95. -/
def narrowOp (b : Nat) : MOp :=
  { unit := bitsOf b 24 4, func := bitsOf b 18 6, dst := bitsOf b 12 6, srcA := bitsOf b 6 6, srcB := bitsOf b 0 6 }

/-- The operation field of R100. -/
def wideOp (b : Nat) : MOp :=
  { unit := bitsOf b 48 4, func := bitsOf b 42 6, dst := bitsOf b 36 6, srcA := bitsOf b 30 6, srcB := bitsOf b 24 6
    mod := bitsOf b 16 8, imm := bitsOf b 0 16 }

/-- A vertical microword (R95): SEQ 0, 1 and 5 carry an operation, 2 to 4 a branch body, 6 a gate body. -/
def verticalWord (w next : Nat) : MWord :=
  let seq := bitsOf w 28 3
  { sp := bitOf w 31, seq := seq, next := next
    cond := if seq = 6 then bitsOf w 25 3 else bitsOf w 24 4
    target := if seq = 6 then bitsOf w 19 6 else bitsOf w 0 16
    ops := if seq = 0 ∨ seq = 1 ∨ seq = 5 then [narrowOp w] else [] }

/-- SEQ of a nano-word under PSEQ of its pointer (R99). -/
def pointedSeq (pseq seq : Nat) : Nat :=
  if pseq = 1 ∧ seq = 0 then 1 else if pseq = 2 ∧ seq = 1 then 0 else seq

/-- The nano-word that a micro-pointer selects (R99, R100). -/
def nanoWord (pointer nano next : Nat) : MWord :=
  let seq := pointedSeq (bitsOf pointer 13 2) (bitsOf nano 125 3)
  { sp := bitOf pointer 15, seq := seq, next := next
    cond := if seq = 6 then bitsOf nano 122 3 else bitsOf nano 121 4
    target := if seq = 6 then bitsOf nano 104 6 else bitsOf nano 104 16
    ops := wideOp (bitsOf nano 52 52) :: if bitOf nano 120 then [wideOp (bitsOf nano 0 52)] else [] }

/-- `n` bytes of the ROMs, at their offsets of access space 5 (R629), lowest first (log 8). -/
def romBytes (off n : Nat) : Nat := leNat ((upTo n).map fun i => Config.microRom (off + i))

/-- The ROM word at a micro-address below 0x8000 in an image (R89). -/
def romWord (two : Bool) (a : Nat) : MWord :=
  if two then
    let p := romBytes (0x20000 + 2 * a) 2
    nanoWord p (romBytes (0x30000 + 16 * bitsOf p 0 11) 16) (a + 1)
  else verticalWord (romBytes (4 * a) 4) (a + 1)

/-- The micro-address that follows a patch RAM word (R117): under NEXT its NEXT field, 0xFFFF for the word behind it. -/
def patchNext (w : BitVec 48) (a : Nat) : Nat :=
  let next := bitsOf w.toNat 32 16
  if bitsOf w.toNat 28 3 = 0 ∧ next ≠ 0xFFFF then next else a + 1

def patch0 : Nat → BitVec 48 := fun _ => 0

/-- The word of patch RAM at a micro-address: the vertical format in both images (R117). -/
def Cluster.patchWord (c : Cluster) (a : Nat) : MWord :=
  let w := mget patch0 c.patch (a - 0x8000)
  verticalWord (bitsOf w.toNat 0 32) (patchNext w a)

/-! ### Fetching (R89, R90, R116) -/

/-- PTGT of the active match register that names a micro-address (R115, R116); the lowest, where several do (log 103).
-/
def Cluster.matched (c : Cluster) (a : Nat) : Option Nat :=
  (c.matchReg.find? fun e => bitOf e.2.toNat 31 && bitsOf e.2.toNat 0 15 == a).map fun e => bitsOf e.2.toNat 16 10

/-- The address fetched for micro-address `a`: redirected unless the last word came from patch RAM (R116). -/
def Cluster.fetched (c : Cluster) (a : Nat) (patch : Bool) : Nat :=
  if patch || decide (0x8000 ≤ a) then a
  else match c.matched a with
    | some t => 0x8000 + t
    | none => a

/-- The word at a fetched address; 0x8400 and above are never fetched (R89). -/
def Cluster.wordAt (c : Cluster) (two : Bool) (a : Nat) : Option MWord :=
  if a < 0x8000 then some (romWord two a) else if a < 0x8400 then some (c.patchWord a) else none

/-- Index of an instruction in the dispatch table (R90). -/
def dispatchIndex (w : Nat) : Nat :=
  let op := bitsOf w 26 6
  32 * op + (if op = 1 then bitsOf w 8 5 else if op = 2 then bitsOf w 12 5 else 0)

/-! ### Operands and conditions (R97, R98) -/

/-- `tag` of an instruction: of br.rc, of wait, or of format A (R52). -/
def wordTag (w : Nat) : Nat :=
  let op := bitsOf w 26 6
  if op = 0x0B then bitsOf w 22 4 else if op = 0x20 then bitsOf w 0 4 else bitsOf w 18 4

/-- Place of `ra` in an instruction word (R52). -/
def raAt (op : Nat) : Nat :=
  if op = 0x04 ∨ op = 0x05 then 13
  else if op = 0x21 then 16
  else if op = 0x11 ∨ op = 0x12 ∨ op = 0x14 ∨ op = 0x18 ∨ op = 0x19 ∨ op = 0x1C then 14
  else 18

/-- Place of `rb` (R52). -/
def rbAt (op : Nat) : Nat := if op = 0x11 ∨ op = 0x12 ∨ op = 0x18 ∨ op = 0x1C then 10 else 14

/-- The instruction's immediate, extended as its format defines (R52, R57, R59; log 103). -/
def wordImm (w : Nat) : Word64 :=
  let op := bitsOf w 26 6
  if op = 0x02 then aluImm (bitsOf w 12 5) (BitVec.ofNat 12 w)
  else if op = 0x03 ∧ bitsOf w 20 2 = 0 ∨ op = 0x08 ∨ op = 0x09 ∨ op = 0x0B then (BitVec.ofNat 16 w).signExtend 64
  else if op = 0x03 ∨ op = 0x10 ∨ op = 0x21 then BitVec.ofNat 64 (bitsOf w 0 16)
  else if op = 0x06 ∨ op = 0x07 then BitVec.ofNat 64 (bitsOf w 6 12)
  else if op = 0x20 then BitVec.ofNat 64 (bitsOf w 0 9)
  else BitVec.ofNat 64 (bitsOf w 0 8)

/-- What a microword sees beside its own state: the thread's program state, the instruction word, the resume token. -/
structure MView where
  c : Ctx
  w : Nat
  token : Word64 := 0

/-- The operand that a selector names (R97). -/
def MView.operand (v : MView) (m : Micro) (sel : Nat) : Word64 :=
  let g := fun (i : Nat) => v.c.gr (Fin.ofNat 16 i)
  let op := bitsOf v.w 26 6
  match sel with
  | 0x00 => g (bitsOf v.w 22 4)
  | 0x01 => g (bitsOf v.w (raAt op) 4)
  | 0x02 => g (bitsOf v.w (rbAt op) 4)
  | 0x03 => wordImm v.w
  | 0x04 => BitVec.ofNat 64 v.w
  | 0x05 => v.c.pc.zeroExtend 64
  | 0x06 => BitVec.ofNat 64 (natBool v.c.z * 8 + natBool v.c.n * 4 + natBool v.c.c * 2 + natBool v.c.v)
  | 0x07 => (v.c.rcOf (wordTag v.w)).zeroExtend 64
  | 0x08 => v.c.dc.zeroExtend 64
  | 0x09 => v.token
  | n =>
    if 0x10 ≤ n ∧ n < 0x18 then mget zero64 m.u (n - 0x10)
    else if 0x20 ≤ n ∧ n < 0x30 then g (n - 0x20)
    else Config.reservedOperand n

/-- The micro-conditions (R98). -/
def MView.cond (v : MView) (m : Micro) (cond : Nat) : Bool :=
  let prog := condHolds (bitsOf v.w 22 4) v.c.z v.c.n v.c.c v.c.v
  let code := v.c.rcOf (wordTag v.w) == BitVec.ofNat 4 (bitsOf v.w 18 4)
  match cond with
  | 0x0 => true
  | 0x1 => m.uz
  | 0x2 => !m.uz
  | 0x3 => m.uc
  | 0x4 => !m.uc
  | 0x5 => prog
  | 0x6 => !prog
  | 0x7 => code
  | 0x8 => !code
  | 0x9 => mget zero64 m.u 7 == 0
  | n => (Config.reservedOperand (64 + n)).getLsbD 0

/-! ### Executing a word (R96, R98, R101, R103) -/

/-- One operation, its sources read in `old`: UNIT 0 does nothing; the ALU and the field unit set uZ and uC; a DST of u0
to u7 is written. The instruction's own effects come with its END (log 103). -/
def MView.run (v : MView) (old m : Micro) (o : MOp) : Micro :=
  if o.unit = 0 then m
  else
    let (x, z, k) := Config.unitResult o.unit o.func o.mod o.imm (v.operand old o.srcA) (v.operand old o.srcB)
    let m := if o.unit = 1 ∨ o.unit = 2 then { m with uz := z, uc := k } else m
    if 0x10 ≤ o.dst ∧ o.dst < 0x18 then { m with u := mset zero64 m.u (o.dst - 0x10) x } else m

/-- The operations of a word issue together: each reads every source as it was before the word (R101). -/
def MView.runAll (v : MView) (m : Micro) (l : List MOp) : Micro := l.foldl (fun x o => v.run m x o) m

/-- The micro-address after a word (R95), none at END; conditions see the micro-flags as before the word. A reserved SEQ
goes on at a free address (log 8). -/
def MView.nextAddr (v : MView) (m : Micro) (x : MWord) (a : Nat) : Option Nat :=
  match x.seq with
  | 0 => some x.next
  | 1 => none
  | 2 | 4 => some x.target
  | 3 => some (if v.cond m x.cond then x.target else a + 1)
  | 5 => some m.link
  | 6 => some (a + 1)
  | _ => some ((Config.reservedOperand (128 + a)).toNat % 65536)

/-- Carry out the word at the fetched address `a`. -/
def MView.exec (v : MView) (m : Micro) (x : MWord) (a : Nat) : Micro :=
  { v.runAll m x.ops with
    addr := v.nextAddr m x a
    link := if x.seq = 4 then a + 1 else m.link
    patch := decide (0x8000 ≤ a)
    safe := x.sp || x.seq == 1 }

/-- The gate of a thread that a gate word stands for (R104); REPLY names the instruction's tag by selector 0x07, else a
tag by value (log 103). Reserved conditions hold at once. -/
def MView.gate (v : MView) (m : Micro) (cond sel : Nat) : Option Gate :=
  let x := (v.operand m sel).toNat
  match cond with
  | 0 => some (.dcLe x)
  | 1 => some (.hdr x)
  | 2 => some .grant
  | 3 => some (.reply (Fin.ofNat 16 (if sel = 7 then wordTag v.w else x)))
  | 4 => some .tick
  | _ => none

/-! ### Walking a routine (R102, R106, R116) -/

/-- The addresses that a routine fetches from `a` on, its gates passed, and how often it enters patch RAM. -/
def MView.walk (v : MView) (c : Cluster) (two : Bool) : Nat → Micro → Nat → List Nat × Nat
  | 0, _, _ => ([], 0)
  | fuel + 1, m, a =>
    let f := c.fetched a m.patch
    match c.wordAt two f with
    | none => ([f], 0)
    | some x =>
      let m' := v.exec m x f
      let entry := natBool (!m.patch && decide (0x8000 ≤ f))
      match m'.addr with
      | none => ([f], entry)
      | some b =>
        let (l, n) := v.walk c two fuel m' b
        (f :: l, n + entry)

/-- Does cluster k run the two-level image (R93, R132)? -/
def State.twoLevel (s : State) (k : Nat) : Bool := bitOf (s.regN (aUcsCfg k)) 0

/-- Entry micro-address of an instruction in cluster k (R90). -/
def State.microEntry (s : State) (k w : Nat) : Nat := (Config.dispatchRom (s.twoLevel k) (dispatchIndex w)).toNat

/-- The walk through the routine of an instruction: 32 slots lie between safe points at most (R107). -/
def State.routine (s : State) (k : Nat) (c : Ctx) (w : Nat) : List Nat × Nat :=
  MView.walk { c := c, w := w } (s.clu k) (s.twoLevel k) 32 {} (s.microEntry k w)

/-- Issue slots that redirection adds to an instruction: one for each entry into patch RAM in the two-level image (R55,
R102, R118). -/
def State.patchSlots (s : State) (k : Nat) (c : Ctx) (w : Nat) : Nat :=
  if s.twoLevel k && (s.clu k).matchReg.any (fun e => bitOf e.2.toNat 31) then (s.routine k c w).2 else 0

/-- Does the routine of an instruction fetch the word of micro-address `m` (R106)? -/
def State.meets (s : State) (k : Nat) (c : Ctx) (w m : Nat) : Bool := (s.routine k c w).1.contains m

/-! ### The resume token (R112) -/

/-- The 64-bit resume token. -/
def Token.word (t : Token) : Word64 :=
  BitVec.ofNat 64 (t.routine % 2 ^ 8 * 2 ^ 56 + t.segment % 2 ^ 16 * 2 ^ 32 + t.addr.toNat * 2 ^ 16 + t.ver.toNat)

end Sys2Proof.Machine
end

