-- ==== Sys2Proof/Machine/Engine.lean ====
section
/-! DEFINITION. The engine instructions (R52 to R79). An instruction command takes effect when its thread is to
issue it: its word is the one the thread fetches, nothing holds the thread back, and no thread of its engine
stands before it (R38, R104, R110; log 4, 5). -/

namespace Sys2Proof.Machine

open Sys2Proof

/-! ### Issue -/

def Ints.any (i : Ints) : Bool := i.ecc || i.abort || i.watchdog || i.halt || i.drain

/-- Does the thread stand at a safe point: at an instruction boundary, or behind a word with SP = 1 (R107)? -/
def Thread.atSafe (x : Thread) : Bool := x.micro.addr.isNone || x.micro.safe

/-- Does a thread of the engine have an interrupt pending that it will take (R110)? -/
def State.intsOn (s : State) (n : Nat) : Bool :=
  (upTo 4).any fun t =>
    let x := s.thr (n / 4 * 4 + t)
    x.ints.any && x.halted.isNone && !x.mstep && x.atSafe

/-- Does a ready thread of the same engine stand on a higher list, or before this one on its list (R38, R148)? -/
def State.outranked (s : State) (n prio : Nat) : Bool :=
  (s.clu (cluOf n)).ready.any fun e =>
    (decide (prio < e.1) && e.2.any fun m => decide (engOf m = engOf n)) ||
    (decide (prio = e.1) && (e.2.takeWhile (· ≠ n)).any fun m => decide (engOf m = engOf n))

/-- The thread has had its slot: among threads of its engine and priority the turn goes round (R38), so it goes to the
tail of their list. Alone there it stays where it is. -/
def State.turn (s : State) (n prio : Nat) : State :=
  let l := mget noThreads (s.clu (cluOf n)).ready prio
  if l.contains n && l.any (fun m => decide (m ≠ n ∧ engOf m = engOf n)) then s.join n prio else s

/-- May the thread issue an instruction now? -/
def State.selectable (s : State) (n : Nat) : Bool :=
  let t := s.thr n
  s.runs && t.gate.isNone && t.halted.isNone && !s.intsOn n && s.engActive (cluOf n) (engOf n % 17) &&
    !s.cluOff (cluOf n) &&
    match t.ctx with
    | some c => !s.outranked n c.prio
    | none => false

/-- The token of thread n's service routine, its segments so far counted, with the patch version (R112). -/
def State.tokenNow (s : State) (n : Nat) : Option Token :=
  (s.thr n).svc.map fun k =>
    let next := s.svcDone n + 1
    { k with segment := next, addr := Config.segmentAddr (s.twoLevel (cluOf n)) k.routine next
             ver := (s.reg (aUcsPatchVersion (cluOf n))).truncate 16 }

/-- Halt a thread (R632): it leaves its list; SAF_STATUS notes the cause (R568). A service routine halts at its next
safe point, with its token saved (R108, R112). -/
def State.haltThread (s : State) (n : Nat) (h : HaltCause) : State :=
  let s := (s.unready n).setThr n
    { (s.thr n) with halted := some h, haltAt := s.clk.gtc, stepping := false, mstep := false, wpHit := none,
                     svc := s.tokenNow n }
  s.coverage 1

/-- The instruction boundary after an instruction (R631, R634): the turn goes round, and a step or a watchpoint match
halts here. -/
def State.boundary (s : State) (n task : Nat) : State :=
  let t := s.thr n
  match t.ctx with
  | none => s
  | some c =>
    if c.task ≠ task ∨ t.gate ≠ none then s
    else
      let s := (s.setThr n { t with bpPass := false, micro := {} }).turn n c.prio
      match t.wpHit with
      | some i => s.haltThread n (.watchpoint i)
      | none => if t.stepping then s.haltThread n .step else s

/-- A control-store fault met at a fetch (R106): exception ECC, a safety event; a patch word is rewritten; a second
ROM error at the same micro-address within 1 s calls for reaction C (R560). A service routine ends there (R108). -/
def State.csFaultAt (s : State) (n m : Nat) : State :=
  let k := cluOf n
  let c := s.clu k
  let last := mget zeroN c.romErr m
  let rom := decide (m < 0x8000)
  let again := rom && decide (last ≠ 0 ∧ s.clk.gtc + 1 ≤ last + 4000000000)
  let s := s.setClu k { c with csFault := none, romErr := if rom then mset zeroN c.romErr m (s.clk.gtc + 1) else c.romErr }
  let s := s.threadEnd n (fun s p => s.excEnd p excEcc)
  let s := s.safety (srcCluster (k / 12) (k % 12)) 0x0222 (k + m * 65536) 6
  if again then s.dueC 0x0222 5 k else s

/-- Does the branch of word `w` branch, for the thread's flags and result codes (R61, R63)? -/
def branchTaken (c : Ctx) (w : Word32) : Bool :=
  if bitsOf w.toNat 26 6 = 0x08 then condHolds (bitsOf w.toNat 22 4) c.z c.n c.c c.v
  else ((c.rcOf (bitsOf w.toNat 22 4)).toNat == bitsOf w.toNat 18 4) != bitOf w.toNat 17

/-- Count the issue slots of an instruction that has issued, not of one that waits (R54, R55, R102, R526). -/
def State.slotsSpent (s : State) (n : Nat) (c : Ctx) (w : Word32) : State :=
  let k := cluOf n
  s.occur (64 + raceOf n) 0x013 (slotCost (s.twoLevel k) (branchTaken c w) w + s.patchSlots k c w.toNat)

/-- Those of the instruction that thread n issues with state `c`. -/
def State.issued (s : State) (n : Nat) (c : Ctx) (w : Word32) : State :=
  let y := s.thr n
  let waits := match y.ctx with
    | some d => decide (d.task = c.task ∧ y.gate ≠ none)
    | none => false
  if waits then s else s.slotsSpent n c w

/-! ### Reserved encodings (R52, R484 case 10) -/

/-- The `k`-th free word from now. -/
def State.freeAt (s : State) (k : Nat) : Word64 := Config.freeWord (s.clk.free + k)

/-- Free bytes in place of words `k` on. -/
def State.freeBytes (s : State) (k n : Nat) : List Byte :=
  (upTo n).flatMap fun i => leBytes 8 (s.freeAt (k + i)).toNat

/-- The thread's state with free registers, flags, windows and pc: what some program of its domain may have left. -/
def State.havoc (s : State) (r : Nat) (c : Ctx) : Ctx :=
  let f := (s.freeAt 1).toNat
  let g := (upTo 16).foldl (fun c i => c.setGr (Fin.ofNat 16 i) (s.freeAt (2 + i))) c
  let fv := (upTo 16).foldl (fun m i => mset zero64 m i (s.freeAt (18 + i))) ([] : SMap Word64)
  let md := setBytes ([] : Mem) 0 (s.freeBytes 34 8)
  setWinBytes { g with z := bitOf f 0, n := bitOf f 1, c := bitOf f 2, v := bitOf f 3, fv := fv, md := md
                       pc := BitVec.ofNat 15 (f / 16 % max 1 (s.codeLen r c)) } 0 0 (s.freeBytes 42 32)

/-- Executing a reserved encoding: the thread may do anything a program of its domain may do, ending within the watchdog
(R484 case 10). Free values choose: it stands still, it ends as with `drop`, or it goes on in a free state (log 19). -/
def State.anything (s : State) (n : Nat) (c : Ctx) : State :=
  let t : State := { s with clk := { s.clk with free := s.clk.free + 74 } }
  match (s.freeAt 0).toNat % 3 with
  | 0 => t
  | 1 => if c.dc ≠ 0 then t else ((t.freeThread n).bump (aRaceExcCnt (raceOf n) 0) 1).dropPkt c.pkt
  | _ => t.setThr n { (s.thr n) with ctx := some (s.havoc (raceOf n) c) }

/-- The effect of an instruction at its boundary, or of a reserved encoding. -/
def State.effect (s : State) (n : Nat) (c : Ctx) (w : Word32) (bad : Bool) (body : Nat → Ctx → State → State) : State :=
  (((if bad then s.anything n c else body n c s)).issued n c w).boundary n c.task

/-- The control-store word in error that the instruction's routine would fetch (R106). -/
def State.badMicro (s : State) (n : Nat) (c : Ctx) (w : Word32) : Option Nat :=
  match (s.clu (cluOf n)).csFault with
  | some m => if s.meets (cluOf n) c w.toNat m then some m else none
  | none => none

/-- Issue an instruction whose word is `w`; `bad` says that R52 and R53 make the word a reserved encoding. A word of the
image that no command spells is issued by none, and its thread stands until its watchdog (log 19, case 10). -/
def issue (t : ThreadId) (w : Word32) (bad : Bool) (s : State) (body : Nat → Ctx → State → State) :
    Host.Outcome State Fault Refusal :=
  let n := thrNum t
  match (s.thr n).ctx with
  | none => .next s
  | some c =>
    if s.selectable n ∧ s.fetch t.race.val c = w.toNat ∧ c.pc.toNat < s.codeLen t.race.val c then
      match s.badMicro n c w with
      | some m => .next (s.csFaultAt n m)
      | none =>
      if s.mems.progBad.contains (s.fetchAddr t.race.val c) then
        .next ((s.exception n excEcc).safety (srcCluster t.race.val t.cluster.val) 0x0220 (s.fetchAddr t.race.val c) 5)
      else
        match if (s.thr n).bpPass then none else s.bpFind t.race.val c with
        | some i =>
          let (halts, s1) := s.hit t.race.val (aDbgBp t.race.val i)
          if halts then .next (s1.haltThread n (.breakpoint i))
          else .next ((s1.setThr n { (s1.thr n) with bpPass := true }).effect n c w bad body)
        | none => .next (s.effect n c w bad body)
    else .next s

/-- Write the thread's state back. -/
def State.putCtx (s : State) (n : Nat) (c : Ctx) : State := s.setThr n { (s.thr n) with ctx := some c }

/-- Go on at code offset `a`, which raises IMAGE outside the image's code (R62). -/
def State.goTo (s : State) (n : Nat) (c : Ctx) (a : Int) : State :=
  if 0 ≤ a ∧ a < (s.codeLen (raceOf n) c : Int) then s.putCtx n { c with pc := BitVec.ofInt 15 a }
  else s.exception n excImage

/-- Go on with the next instruction. -/
def State.retire (s : State) (n : Nat) (c : Ctx) : State := s.goTo n c (c.pc.toNat + 1)

/-- Wait at a gate: the thread leaves its ready list and stands before the instruction (R104, R105, R147). -/
def State.waitAt (s : State) (n : Nat) (g : Gate) : State :=
  (s.unready n).setThr n { (s.thr n) with gate := some g }

/-! ### Arithmetic and logic -/

def doAlu (rd : GReg) (f : Bool) (fn : Nat) (a b : Word64) (n : Nat) (c : Ctx) (s : State) : State :=
  let r := aluResult fn a b
  let c1 := if aluFlagsOnly fn then c else c.setGr rd r
  let c2 := if aluSetsFlags fn f then
      { c1 with z := decide (r = 0), n := r.getLsbD 63, c := aluCarry fn a b, v := aluOverflow fn a b }
    else c1
  s.retire n c2

/-- ALU_REG (R57, R58). -/
def execAluReg (t : ThreadId) (rd ra rb : GReg) (f : Bool) (fn : BitVec 5) (s : State) :=
  issue t (encR rd ra rb f fn) (badFn fn) s fun n c s =>
    doAlu rd f fn.toNat (c.gr ra) (c.gr rb) n c s

/-- ALU_IMM (R57, R58). -/
def execAluImm (t : ThreadId) (rd ra : GReg) (f : Bool) (fn : BitVec 5) (imm : BitVec 12) (s : State) :=
  issue t (encI rd ra f fn imm) (badFn fn) s fun n c s =>
    doAlu rd f fn.toNat (c.gr ra) (aluImm fn.toNat imm) n c s

/-- ALU_LI (R59): sign-extended. -/
def execAluLi (t : ThreadId) (rd : GReg) (imm : Half) (s : State) :=
  issue t (encW rd 0 imm) false s fun n c s => s.retire n (c.setGr rd (imm.signExtend 64))

/-- ALU_LIH (R59). -/
def execAluLih (t : ThreadId) (rd : GReg) (imm : Half) (s : State) :=
  issue t (encW rd 1 imm) false s fun n c s =>
    s.retire n (c.setGr rd ((c.gr rd <<< 16) ||| imm.zeroExtend 64))

/-! ### Loads and stores -/

/-- Does a read of `k` bytes at `a` of a window meet a word of the constant pool with an uncorrectable error (R80)? -/
def State.poolBad (s : State) (r : Nat) (c : Ctx) (sp a k : Nat) : Option Nat :=
  let w := bankBase r + c.img + s.poolOff r c + a
  if sp = 3 ∧ s.mems.progBad.any (fun b => decide (b < w + k ∧ w < b + 4)) then some w else none

/-- Exception ECC for a word of the program store, with its safety event (R80, R562). -/
def State.codeEcc (s : State) (n a : Nat) : State :=
  (s.exception n excEcc).safety (srcCluster (raceOf n) (cluOf n % 12)) 0x0220 a 5

/-- LD (R46, R47): waits for header bytes, raises WINDOW outside the window. -/
def execLd (t : ThreadId) (rd : GReg) (space size : BitVec 2) (x : Bool) (ra : GReg) (off : Byte) (s : State) :=
  issue t (encM 0x04 rd space size x ra off) false s fun n c s =>
    let r := raceOf n
    let sp := space.toNat
    let k := 2 ^ size.toNat
    let a := memAddr c x ra off
    if winSize sp < a + k then s.exception n excWindow
    else
      let need := if sp = 0 then hdrNeed (s.pkt c.pkt) a k else 0
      if need ≠ 0 then s.waitAt n (.hdr need)
      else match s.poolBad r c sp a k with
      | some w => s.codeEcc n w
      | none =>
        let v := winNat sp (s.winBytes r c sp a k)
        let s := if sp < 3 then s.watch n false sp a k else s
        s.retire n (c.setGr rd (BitVec.ofNat 64 v))

/-- The bytes a store writes: a store at P + 64 or above of a packet that arrived with a frame is undefined
behaviour, and its bytes are free values (R48, R484 case 4). A later pass of a keepalive came through the Leat with a
frame and is one (log 19). -/
def storeBytes (s : State) (c : Ctx) (sp a k : Nat) (v : Word64) : List Byte × State :=
  let p := s.pkt c.pkt
  if sp = 0 ∧ p.hasFrame ∧ p.frame.length + 64 < a + k then
    let f := s.freeVal.toNat
    let own := (leBytes k v.toNat).reverse
    let free := leBytes k f
    ((upTo k).map (fun i => if p.frame.length + 64 ≤ a + i then free.getD i 0 else own.getD i 0), s.useFree)
  else if sp = 0 then ((leBytes k v.toNat).reverse, s)
  else (leBytes k v.toNat, s)

/-- ST (R46, R48): WINDOW outside the window and for the constant pool. -/
def execSt (t : ThreadId) (rd : GReg) (space size : BitVec 2) (x : Bool) (ra : GReg) (off : Byte) (s : State) :=
  issue t (encM 0x05 rd space size x ra off) false s fun n c s =>
    let sp := space.toNat
    let k := 2 ^ size.toNat
    let a := memAddr c x ra off
    if sp = 3 ∨ winSize sp < a + k then s.exception n excWindow
    else
      let (bs, s) := storeBytes s c sp a k (c.gr rd)
      (s.watch n true sp a k).retire n (setWinBytes c sp a bs)

/-- EXT (R60). -/
def execExt (t : ThreadId) (rd ra : GReg) (pos len1 : BitVec 6) (s : State) :=
  issue t (encE 0x06 rd ra pos len1) false s fun n c s =>
    s.retire n (c.setGr rd (extField (c.gr ra) pos.toNat (len1.toNat + 1)))

/-- INS (R60). -/
def execIns (t : ThreadId) (rd ra : GReg) (pos len1 : BitVec 6) (s : State) :=
  issue t (encE 0x07 rd ra pos len1) false s fun n c s =>
    s.retire n (c.setGr rd (insField (c.gr rd) (c.gr ra) pos.toNat (len1.toNat + 1)))

/-! ### Branches -/

/-- The target of an off16 branch: a signed count from the branch's own address (R52). -/
def target (c : Ctx) (off : Half) : Int := (c.pc.toNat : Int) + off.toInt

/-- BR (R61, R62). -/
def execBr (t : ThreadId) (cond : BitVec 4) (off : Half) (s : State) :=
  issue t (encB 0x08 cond off) (badCond cond) s fun n c s =>
    if condHolds cond.toNat c.z c.n c.c c.v then s.goTo n c (target c off) else s.retire n c

/-- BR_LINK (R62): rd receives the code offset of the next instruction. -/
def execBrLink (t : ThreadId) (rd : GReg) (off : Half) (s : State) :=
  issue t (encB 0x09 (r4 rd) off) false s fun n c s =>
    s.goTo n (c.setGr rd (BitVec.ofNat 64 (c.pc.toNat + 1))) (target c off)

/-- BR_REG (R62): IMAGE if ra[63:15] is not 0. -/
def execBrReg (t : ThreadId) (ra : GReg) (s : State) :=
  issue t (encBR ra) false s fun n c s => s.goTo n c (c.gr ra).toNat

/-- BR_RC (R63): waits while rc[tag] is PEND. -/
def execBrRc (t : ThreadId) (tag : GReg) (code : BitVec 4) (sense : Bool) (off : Half) (s : State) :=
  issue t (encBC tag code sense off) false s fun n c s =>
    let v := c.rcOf tag.val
    if v = 0 then s.waitAt n (.reply tag)
    else if (v == code) != sense then s.goTo n c (target c off)
    else s.retire n c

/-! ### Checksum adjustment and time stamps -/

/-- CSUM_ADJ (R64). -/
def execCsumAdj (t : ThreadId) (rd ra rb : GReg) (width : BitVec 2) (s : State) :=
  issue t (encC rd ra rb width) (badWidth width) s fun n c s =>
    let m := (c.gr ra).toNat % 2 ^ 32
    let m' := (c.gr rb).toNat % 2 ^ 32
    s.retire n (c.setGr rd (BitVec.ofNat 64
      (csumAdjust ((c.gr rd).toNat % 65536) m m' (decide (width.toNat = 1)))))

/-- TSTAMP (R65). A keepalive or expiry task carries its creation stamp in its packet (R156, R240). -/
def execTstamp (t : ThreadId) (rd : GReg) (sel : BitVec 3) (off : Byte) (s : State) :=
  issue t (encT rd sel off) (badStamp sel rd) s fun n c s =>
    let p := s.pkt c.pkt
    match sel.toNat with
    | 0 => s.retire n (c.setGr rd (BitVec.ofNat 64 (s.islGtc (islRace (raceOf n)))))
    | 1 => s.retire n (c.setGr rd (BitVec.ofNat 64 p.stamp))
    | 2 => s.retire n (c.setGr rd (BitVec.ofNat 64 (p.ptpS % 2 ^ 32 * 2 ^ 32 + p.ptpNs % 2 ^ 30)))
    | _ =>
      let res := decide (sel.toNat = 5)
      s.retire n { c with stamps := c.stamps.filter (fun e => e.1 ≠ res) ++ [(res, off.toNat)] }

/-! ### Asynchronous operations (R66 to R74) -/

/-- rc[tag] becomes PEND and dc rises (R66). A 16th operation while 15 are outstanding is undefined: dc is a free value,
and so are the results and codes to come (R69, R484 case 7). -/
def State.outstanding (s : State) (c : Ctx) (tag : Nat) : Ctx × State :=
  let c1 := c.setRc tag 0
  if c.dc = 15 then ({ c1 with dc := s.freeVal.truncate 4, wrong := true }, s.useFree)
  else ({ c1 with dc := c.dc + 1 }, s)

/-- Issue an asynchronous operation: it waits while rc[tag] is PEND. -/
def State.asyncIssue (s : State) (n : Nat) (c : Ctx) (rd tag : GReg) (send : OpSrc → State → State) : State :=
  if c.rcOf tag.val = 0 then s.waitAt n (.reply tag)
  else
    let (c1, s) := s.outstanding c tag.val
    (send (.thread n c.task tag.val rd.val) s).retire n c1

/-- Send a result of unit `via` back to the thread it is for (R66); a posted operation returns none (R68). -/
def State.complete (s : State) (via : Nat) (src : OpSrc) (res : Word64) (code : Nat) (fv : List (Nat × Word64)) (ecc : Bool) :
    State :=
  match src with
  | .thread n task tag rd =>
    { s with comps := s.comps ++
        [{ thread := n, task := task, tag := tag, rd := rd, res := res, code := BitVec.ofNat 4 code, fv := fv,
           ecc := ecc, via := via }] }
  | _ => s

/-- The 16 words of the flow view. -/
def Ctx.view (c : Ctx) : List Word64 := (upTo 16).map (mget zero64 c.fv)

/-- h0 of R214 over bytes, for a partition (R216). -/
def State.hash0 (s : State) (p : Nat) (l : List Byte) : Word64 :=
  hk (s.mstSeed 0) p l

def State.flowOp (s : State) (c : Ctx) (src : OpSrc) (kind : FlowKind) (index : Word64) : FlowOp :=
  let p := s.pkt c.pkt
  { src := src, kind := kind, view := c.view, index := index, dom := p.dom, part := s.domOwner p.dom }

/-- Issue a flow operation to slice `sl` (R66, R71). It waits while rc[tag] is PEND, and, held at its cluster, while the
slice's miss queue is full (R236). -/
def State.flowIssue (s : State) (n : Nat) (c : Ctx) (rd tag : GReg) (sl : Nat) (kind : FlowKind) (i : Word64) : State :=
  if c.rcOf tag.val = 0 then s.waitAt n (.reply tag)
  else
    let o := s.flowOp c (.thread n c.task tag.val rd.val) kind i
    if s.missFull sl then (s.holdFlow sl o).waitAt n (.room sl)
    else
      let (c1, s) := s.outstanding c tag.val
      (s.sendFlow sl o).retire n c1

/-- The home slice of the key in the flow view, for the packet's partition. -/
def State.viewHome (s : State) (c : Ctx) : Nat := s.homeOf (s.domOwner (s.pkt c.pkt).dom) c.view

/-- FLOW_GET (R73): tag 15 is reserved (R68). -/
def execFlowGet (t : ThreadId) (rd tag : GReg) (mask : Half) (s : State) :=
  issue t (encFlowGet rd tag mask) (badTag tag) s fun n c s =>
    let s := if c.rcOf tag.val = 0 then s else s.watch n false 2 0 48
    s.flowIssue n c rd tag (s.viewHome c) (.get mask) 0

/-- FLOW_ADD (R68, R73): posted with g0 and tag 15, it changes no dc and no rc. -/
def execFlowAdd (t : ThreadId) (rd tag ra rb : GReg) (word : BitVec 4) (mode : BitVec 2) (s : State) :=
  issue t (encFlowAdd rd tag ra rb word mode) (badAdd rd tag word mode) s fun n c s =>
    let i := c.gr ra
    let k := FlowKind.add mode word.toNat (c.gr rb) 1
    let s := if tag.val ≠ 15 ∧ c.rcOf tag.val = 0 then s else s.watch n true 3 word.toNat 1
    if tag.val = 15 then
      let o := s.flowOp c (.posted n c.task) k i
      if s.missFull (sliceOf i) then (s.holdFlow (sliceOf i) o).waitAt n (.room (sliceOf i))
      else (s.sendFlow (sliceOf i) o).retire n c
    else s.flowIssue n c rd tag (sliceOf i) k i

/-- FLOW_CAS (R73). -/
def execFlowCas (t : ThreadId) (rd tag ra rb : GReg) (word : BitVec 4) (u : Bool) (s : State) :=
  issue t (encFlowCas rd tag ra rb word u) (badTag tag) s fun n c s =>
    let i := c.gr ra
    let s := if c.rcOf tag.val = 0 then s else s.watch n true 3 word.toNat 1
    s.flowIssue n c rd tag (sliceOf i) (.cas word.toNat (c.gr rd) (c.gr rb) u) i

/-- FLOW_INS (R73). -/
def execFlowIns (t : ThreadId) (rd tag : GReg) (persist : Bool) (s : State) :=
  issue t (encFlowIns rd tag persist) (badTag tag) s fun n c s =>
    let s := if c.rcOf tag.val = 0 then s else s.watch n false 2 0 128
    s.flowIssue n c rd tag (s.viewHome c) (.ins persist) 0

/-- FLOW_DEL (R73). -/
def execFlowDel (t : ThreadId) (rd tag ra : GReg) (s : State) :=
  issue t (encFlowDel rd tag ra) (badTag tag) s fun n c s =>
    let s := if c.rcOf tag.val = 0 then s else s.watch n true 3 0 16
    s.flowIssue n c rd tag (sliceOf (c.gr ra)) .del (c.gr ra)

/-- LKP_EM (R74): rb is 0 when L = 0 (R53). -/
def execLkpEm (t : ThreadId) (rd tag ra rb : GReg) (type : BitVec 3) (learn : Bool) (s : State) :=
  issue t (encLkpEm rd tag ra rb type learn) (badLookup tag rb learn) s fun n c s =>
    s.asyncIssue n c rd tag fun src s =>
      let p := s.pkt c.pkt
      let r := raceOf n
      let o : EmOp :=
        { src := src, key := c.gr ra, type := type.toNat, learn := if learn then some (c.gr rb) else none,
          part := s.domOwner p.dom, dom := p.dom, port := p.port,
          seen := ekey (s.islGtc (islRace r)) (srcCluster r (cluOf n % 12)) }
      s.setRace r { s.race r with emq := (s.race r).emq ++ [o] }

/-- LKP_LPM (R74, R195): WINDOW when the address leaves the header window; waits for its bytes. -/
def execLkpLpm (t : ThreadId) (rd tag ra : GReg) (v6 : Bool) (off : Byte) (s : State) :=
  issue t (encLkpLpm rd tag ra v6 off) (badTag tag) s fun n c s =>
    let k := if v6 then 16 else 4
    let r := raceOf n
    if 256 < off.toNat + k then s.exception n excWindow
    else
      let need := hdrNeed (s.pkt c.pkt) off.toNat k
      if need ≠ 0 then s.waitAt n (.hdr need)
      else
        let s := if c.rcOf tag.val = 0 then s else s.watch n false 0 off.toNat k
        s.asyncIssue n c rd tag fun src s =>
          let o : LpmOp :=
            { src := src, table := (c.gr ra).toNat % 65536, v6 := v6,
              addr := BitVec.ofNat 128 (beNat (s.winBytes r c 0 off.toNat k)),
              part := s.domOwner (s.pkt c.pkt).dom }
          s.setRace r { s.race r with lpmq := (s.race r).lpmq ++ [o] }

/-- hash.* and csum.sum over a window (R74): WINDOW when the range leaves it, and nothing is issued. -/
def issueHash (t : ThreadId) (op : Nat) (kind : HashKind) (rd tag : GReg) (space : BitVec 2) (len off : Byte)
    (s : State) :=
  issue t (encHash op rd tag space len off) (badTag tag) s fun n c s =>
    let k := len.toNat + 1
    let r := raceOf n
    let sp := space.toNat
    if winSize sp < off.toNat + k then s.exception n excWindow
    else
      let need := if sp = 0 then hdrNeed (s.pkt c.pkt) off.toNat k else 0
      if need ≠ 0 then s.waitAt n (.hdr need)
      else match s.poolBad r c sp off.toNat k with
      | some w => s.codeEcc n w
      | none =>
        let s := if sp < 3 ∧ c.rcOf tag.val ≠ 0 then s.watch n false sp off.toNat k else s
        s.asyncIssue n c rd tag fun src s =>
          let o : HashOp := { src := src, kind := kind, seed := c.gr rd, bytes := s.winBytes r c sp off.toNat k }
          s.setClu (cluOf n) { s.clu (cluOf n) with hashq := (s.clu (cluOf n)).hashq ++ [o] }

/-- HASH_CRC32C (R74). -/
def execHashCrc32c (t : ThreadId) (rd tag : GReg) (space : BitVec 2) (len off : Byte) (s : State) :=
  issueHash t 0x1A .crc32c rd tag space len off s

/-- CSUM_SUM (R74). -/
def execCsumSum (t : ThreadId) (rd tag : GReg) (space : BitVec 2) (len off : Byte) (s : State) :=
  issueHash t 0x1B .csum rd tag space len off s

/-- HASH_CRC32 (R74). -/
def execHashCrc32 (t : ThreadId) (rd tag : GReg) (space : BitVec 2) (len off : Byte) (s : State) :=
  issueHash t 0x1D .crc32 rd tag space len off s

/-- HASH_H0 (R74, R216). -/
def execHashH0 (t : ThreadId) (rd tag : GReg) (space : BitVec 2) (len off : Byte) (s : State) :=
  issueHash t 0x1E .h0 rd tag space len off s

/-- METER (R74): a Weir meter, or the per-flow meter of a record at its home slice (F = 1). -/
def execMeter (t : ThreadId) (rd tag ra rb : GReg) (f c' : Bool) (s : State) :=
  issue t (encMeter rd tag ra rb f c') (badTag tag) s fun n c s =>
    let bytes := (c.gr rb).toNat
    let col := c.mdN 0x0A 1 % 4
    let s := if c' = true ∧ c.rcOf tag.val ≠ 0 then s.watch n false 1 0x0A 1 else s
    if f then s.flowIssue n c rd tag (sliceOf (c.gr ra)) (.meter bytes c' col) (c.gr ra)
    else
      s.asyncIssue n c rd tag fun src s =>
        { s with weirq := s.weirq ++ [{ src := src, meter := (c.gr ra).toNat % 2 ^ 20, bytes := bytes, aware := c',
                                        colour := col, part := s.domOwner (s.pkt c.pkt).dom }] }

/-! ### Waiting, delay and ending (R76 to R79) -/

/-- WAIT (R76): reserved kinds and counts are reserved encodings (R53). -/
def execWait (t : ThreadId) (kind : BitVec 2) (cnt : BitVec 9) (s : State) :=
  let m := cnt.toNat
  issue t (encWait kind cnt) (badWait kind cnt) s fun n c s =>
    let p := s.pkt c.pkt
    match kind.toNat with
    | 0 => if c.dc.toNat ≤ m then s.retire n c else s.waitAt n (.dcLe m)
    | 1 => if m ≤ p.arrived ∨ p.frame.length ≤ p.arrived then s.retire n c else s.waitAt n (.hdr m)
    | _ => if c.rcOf m = 0 then s.waitAt n (.reply (Fin.ofNat 16 m)) else s.retire n c

/-- YIELD (R78, R148): to the tail of its ready list. -/
def execYield (t : ThreadId) (s : State) :=
  issue t encYield false s fun n c s => (s.join n c.prio).retire n c

/-- DELAY (R77, R152): waits for dc = 0 and for a delay-list entry; a count of 0 acts as `yield`. -/
def execDelay (t : ThreadId) (unit : BitVec 2) (x : Bool) (ra : GReg) (count : Half) (s : State) :=
  issue t (encDelay unit x ra count) (badDelay x ra count) s fun n c s =>
    let k := if x then (c.gr ra).toNat % 65536 else count.toNat
    if c.dc ≠ 0 then s.waitAt n (.dcLe 0)
    else if k = 0 then (s.join n c.prio).retire n c
    else if s.codeLen (raceOf n) c ≤ c.pc.toNat + 1 then s.exception n excImage
    else if s.delayRoom (raceOf n) then
      s.placeDelay n unit.toNat k { c with pc := c.pc + 1 }
    else (s.bump (aTskCnt (raceOf n) 4) 1).waitAt n .entry

/-- ORDREL (R78, R163, R164, R166). -/
def execOrdrel (t : ThreadId) (s : State) :=
  issue t encOrdrel false s fun n c s =>
    let p := s.pkt c.pkt
    let s := if p.rob then
        ((s.setPkt c.pkt { p with ordrel := true }).bump (aRaceOrdrelCnt (raceOf n)) 1).robDrop (raceOf n) c.pkt
      else s
    s.retire n { c with ordrel := true }

/-- A thread ends: it is free. -/
def State.endThread (s : State) (n : Nat) : State := s.freeThread n

/-- The Tailrace that counts for a packet as a whole (R363): its ingress race, 0 for a host's. -/
def Packet.homeTail (p : Packet) : Nat :=
  match p.kind with
  | .hostTx _ _ => 0
  | _ => p.race

/-- The descriptor of the packet as it ends with `emit`. -/
def emitDesc (s : State) (c : Ctx) (frame : List Byte) (queue : Nat) : Desc :=
  let p := s.pkt c.pkt
  { pkt := c.pkt, cell := p.head, gen := p.gen, queue := queue, frame := frame, port := p.port,
    ingress := if p.kind = .frame then some p.port else none, tail := p.homeTail, dom := p.dom,
    part := s.domOwner p.dom, colour := c.mdN 0x0A 1 % 4, cls := p.cls, stamp := p.stamp, stamps := c.stamps }

/-- The mirror copy of `emit.m`: it holds a reference of its own (R335, R337, R364). -/
def State.mirrorOf (s : State) (d : Desc) (session : Nat) : State × List Leaving :=
  if session = 0 then (s, [])
  else
    match s.refInc d.cell with
    | some s1 => (s1, [.toQueue { d with queue := session, mirror := true }])
    | none => (s.bump (aHopCnt 5) 1, [])

/-- EMIT (R49, R70, R79). An expiry task has no frame: WINDOW (R241). With Q = 1 the queue is the low 20 bits of ra
(log 106). -/
def execEmit (t : ThreadId) (q m : Bool) (ra : GReg) (s : State) :=
  issue t (encEmit q m ra) (badEmit q ra) s fun n c s =>
    let p := s.pkt c.pkt
    if c.dc ≠ 0 then s.waitAt n (.dcLe 0)
    else if p.kind = .expiry then s.exception n excWindow
    else
      match s.outFrame (raceOf n) c with
      | none => s.exception n excWindow
      | some f =>
        if stampsFit p c then
          let queue := (if q then (c.gr ra).toNat else c.mdN 0x0C 4) % 2 ^ 20
          let d := emitDesc s c f queue
          let (s, mir) := if m then s.mirrorOf d (c.mdN 0x10 2) else (s, [])
          ((s.endThread n).robEnd (raceOf n) c.pkt (.toQueue d :: mir)).verOut p.dom p.slot
        else s.exception n excWindow

/-- DROP (R79, R82): reasons 0xE0 to 0xFF are reserved encodings. -/
def execDrop (t : ThreadId) (reason : Byte) (s : State) :=
  issue t (encDrop reason) (badReason reason) s fun n c s =>
    if c.dc ≠ 0 then s.waitAt n (.dcLe 0)
    else ((s.endThread n).bump (aRaceExcCnt (raceOf n) 0) 1).dropPkt c.pkt

/-- TRAP (R79): to a receive ring of the partition that owns the packet's domain. -/
def execTrap (t : ThreadId) (ring : BitVec 6) (code : Byte) (s : State) :=
  issue t (encTrap ring code) false s fun n c s =>
    let p := s.pkt c.pkt
    if c.dc ≠ 0 then s.waitAt n (.dcLe 0)
    else if p.kind = .expiry then s.exception n excWindow
    else
      match s.outFrame (raceOf n) c with
      | none => s.exception n excWindow
      | some f =>
        let it := s.trapItem c.pkt ring.toNat code.toNat 1 f c.md
        ((s.endThread n).robEnd (raceOf n) c.pkt [.toRing it]).verOut p.dom p.slot

/-- RECIRC (R50, R70, R79, R160): through the Leat queue of 256 passes; RECIRC on the fourth pass. -/
def execRecirc (t : ThreadId) (s : State) :=
  issue t encRecirc false s fun n c s =>
    let p := s.pkt c.pkt
    let r := raceOf n
    if c.dc ≠ 0 then s.waitAt n (.dcLe 0)
    else if p.kind = .expiry then s.exception n excWindow
    else if p.pass = 3 then s.exception n excRecirc
    else
      match s.outFrame r c with
      | none => s.exception n excWindow
      | some f =>
        let s := s.endThread n
        if 256 ≤ (s.race r).leat.length then (s.bump (aTskCnt r 3) 1).dropPkt c.pkt
        else
          let carry := (upTo 16).foldl (fun m i => setByte m i (getByte c.md (48 + i))) ([] : Mem)
          let s := s.setPkt c.pkt
            { p with frame := f, arrived := f.length - (p.frame.length - p.arrived), pass := p.pass + 1,
                     carry := carry, stamps := c.stamps }
          let s := s.setRace r { s.race r with leat := (s.race r).leat ++ [c.pkt] }
          s.pauses r

end Sys2Proof.Machine
end

