-- ==== Sys2Proof/Machine/Hopper.lean ====
section
/-! DEFINITION. The Hopper: free rings, grants, references, quarantine, pauses (R320 to R342), and the happenings
CELL_REQUEST, NO_CELL_DROP, REF_RELEASE. -/

namespace Sys2Proof.Machine

open Sys2Proof

/-! ### Runs of free buffers (log 18) -/

def runCount (l : List (Nat × Nat)) : Nat := (l.map (·.2)).sum

/-- The first buffer of a ring. -/
def runTake : List (Nat × Nat) → Option (Nat × List (Nat × Nat))
  | [] => none
  | (_, 0) :: l => runTake l
  | (a, n + 1) :: l => some (a, if n = 0 then l else (a + 1, n) :: l)

/-- Put a buffer at the tail. -/
def runPut : List (Nat × Nat) → Nat → List (Nat × Nat)
  | [], c => [(c, 1)]
  | [(a, n)], c => if a + n = c then [(a, n + 1)] else [(a, n), (c, 1)]
  | x :: y :: l, c => x :: runPut (y :: l) c

def runAppend (l m : List (Nat × Nat)) : List (Nat × Nat) := l ++ m

/-- The first `k` buffers, and the rest. -/
def runSplit : Nat → List (Nat × Nat) → List (Nat × Nat) × List (Nat × Nat)
  | _, [] => ([], [])
  | k, (a, n) :: l =>
    if k = 0 then ([], (a, n) :: l)
    else if n ≤ k then
      let (x, y) := runSplit (k - n) l
      ((a, n) :: x, y)
    else ([(a, k)], (a + k, n - k) :: l)

/-! ### Accounting (R325, R326) -/

def dOwn : Nat → OwnerUse := fun _ => {}
def State.own (s : State) (o : Nat) : OwnerUse := mget dOwn s.hop.own o
def State.setOwn (s : State) (o : Nat) (x : OwnerUse) : State :=
  { s with hop := { s.hop with own := mset dOwn s.hop.own o x } }

/-- Fields of HOP_OWN in the set `m`. -/
def ownMin (m : SMap Word32) (o : Nat) : Nat := bitsOf (mget regDefault m (aHopOwn o)).toNat 0 20
def ownAlpha (m : SMap Word32) (o : Nat) : Nat := bitsOf (mget regDefault m (aHopOwn o)).toNat 24 4
def ownCap (m : SMap Word32) (o : Nat) : Nat := bitsOf (mget regDefault m (aHopOwn o + 4)).toNat 0 20
def ownHeadroom (m : SMap Word32) (o : Nat) : Nat := bitsOf (mget regDefault m (aHopOwn o + 8)).toNat 0 16
def ownXon (m : SMap Word32) (o : Nat) : Nat := bitsOf (mget regDefault m (aHopOwn o + 8)).toNat 16 16
def ownPageCap (m : SMap Word32) (o : Nat) : Nat := bitsOf (mget regDefault m (aHopOwn o + 12)).toNat 0 23

/-- R of R326: the reset sum 69 632 with the differences of the listed words of HOP_OWN. -/
def ownReserve (m : SMap Word32) : Int :=
  m.foldl (fun (acc : Int) e =>
    if 0x00810000 ≤ e.1 ∧ e.1 < 0x00810000 + 4100 * 16 then
      let w := (e.1 - 0x00810000) / 4 % 4
      if w = 0 then acc + (bitsOf e.2.toNat 0 20 : Int) - (bitsOf (regDefault e.1).toNat 0 20 : Int)
      else if w = 2 then acc + (bitsOf e.2.toNat 0 16 : Int) - (bitsOf (regDefault e.1).toNat 0 16 : Int)
      else acc
    else acc) 69632

/-- s(o): what the owner holds of the shared part. -/
def sharedOf (m : SMap Word32) (o : Nat) (x : OwnerUse) : Nat := x.u - x.h - ownMin m o

/-- S of R326. -/
def State.sharedSum (s : State) : Nat := (s.hop.own.map (fun e => sharedOf s.committed e.1 e.2)).sum

/-- F of R326, signed. -/
def State.freeShared (s : State) : Int :=
  (786432 : Int) - s.hop.quarCells - ownReserve s.committed - s.sharedSum

/-- Free cells in the ring and the caches (R356). -/
def State.freeCells (s : State) : Nat := runCount s.hop.ring + (s.hop.caches.map (fun e => runCount e.2)).sum

/-- Is priority flow control enabled for the owner (PORT_MAC.PFC_EN)? -/
def State.pfcOn (s : State) (o : Nat) : Bool :=
  decide (o < 4096) && bitOf (s.com (aPortMac (o / 8))) (o % 8)

/-- s < 2^(alpha - 7) * F. -/
def belowAlpha (sh alpha : Nat) (f : Int) : Bool := decide ((sh : Int) * 128 < 2 ^ alpha * f)

inductive Grant where
  | reserved
  | shared
  | headroom
  | refused (counter : Nat)
deriving DecidableEq, Repr

/-- The decision of R327, with the counter of R330 for a refusal; without a free cell it is HOP_CNT[2] (R328). -/
def State.grantCase (s : State) (o : Nat) : Grant :=
  let x := s.own o
  let m := s.committed
  let f := s.freeShared
  let any := 0 < s.freeCells
  if x.u - x.h < ownMin m o then (if any then .reserved else .refused 2)
  else
    let cause : Option Nat :=
      if ownCap m o ≤ x.u - x.h then some 0
      else if 1 ≤ f ∧ belowAlpha (sharedOf m o x) (ownAlpha m o) f then none
      else if 1 ≤ f then some 1 else some 2
    match cause with
    | none => if any then .shared else .refused 2
    | some k =>
      if s.pfcOn o then
        if x.h < ownHeadroom m o then (if any then .headroom else .refused 2) else .refused 3
      else .refused k

/-! ### Taking and returning cells (R320, R321, R340) -/

def noRuns : Nat → List (Nat × Nat) := fun _ => []
def State.cache (s : State) (r : Nat) : List (Nat × Nat) := mget noRuns s.hop.caches r
def State.setCache (s : State) (r : Nat) (l : List (Nat × Nat)) : State :=
  { s with hop := { s.hop with caches := mset noRuns s.hop.caches r l } }
def State.setRing (s : State) (l : List (Nat × Nat)) : State := { s with hop := { s.hop with ring := l } }

/-- Every cache keeps `k` cells and returns the rest to the ring (CELL_CACHE_RETURN, R321). -/
def State.cacheReturn (s : State) (k : Nat) : State :=
  (upTo 16).foldl (fun s r =>
    let (keep, back) := runSplit k (s.cache r)
    (s.setCache r keep).setRing (s.hop.ring ++ back)) s

/-- The caches follow the ring's level (R321). -/
def State.cacheLevel (s : State) : State :=
  let n := runCount s.hop.ring
  if n < 256 then s.cacheReturn 0 else if n < 4096 then s.cacheReturn 16 else s

/-- A quarantined cell at the head of the ring leaves the pool (R340). Fuel: the cells in quarantine. -/
def State.ringPurge (s : State) : Nat → State
  | 0 => s
  | f + 1 =>
    match runTake s.hop.ring with
    | some (c, l) =>
      if (s.cell c).quar then
        let s := s.setRing l
        { s with hop := { s.hop with quarCells := s.hop.quarCells + 1 } }.ringPurge f
      else s
    | none => s

/-- Whatever quarantined cells stand at the head of the ring leave it: none is ever left there. -/
def State.purge (s : State) : State := s.ringPurge (s.hop.cells.filter (fun e => e.2.quar)).length

/-- The cell at the head of the ring. -/
def State.ringTake (s : State) : Option (Nat × State) :=
  match runTake s.hop.ring with
  | some (c, l) => some (c, (s.setRing l).purge)
  | none => none

/-- Take cells from the head of the ring into a cache one by one, which quarantined ones never enter (R340). -/
def State.cacheTake (s : State) (r : Nat) : Nat → State
  | 0 => s
  | n + 1 =>
    match s.ringTake with
    | some (c, s1) => (s1.setCache r (runPut (s1.cache r) c)).cacheTake r n
    | none => s

/-- A cache that a grant leaves below 128 takes 64 cells from the head of the ring (R320), while the ring is not low. -/
def State.cacheFill (s : State) (r : Nat) : State :=
  if runCount (s.cache r) < 128 ∧ 4096 ≤ runCount s.hop.ring then
    let (take, rest) := runSplit 64 s.hop.ring
    if s.hop.cells.any (fun e => e.2.quar && take.any fun x => decide (x.1 ≤ e.1 ∧ e.1 < x.1 + x.2)) then s.cacheTake r 64
    else ((s.setRing rest).setCache r (s.cache r ++ take)).purge
  else s

/-- A cell for race r: from its cache, else from the ring; for a host request from the ring, else any cache. -/
def State.takeCell (s : State) (r : Option Nat) : Option (Nat × State) :=
  let refill := fun (s : State) => match r with
    | some r => (s.cacheFill r).cacheLevel
    | none => s.cacheLevel
  let fromCache := fun (s : State) (r : Nat) =>
    match runTake (s.cache r) with
    | some (c, l) => some (c, s.setCache r l)
    | none => none
  match r.bind (fromCache s) with
  | some (c, s1) => some (c, refill s1)
  | none =>
    match s.ringTake with
    | some (c, s1) => some (c, refill s1)
    | none => (upTo 16).findSome? (fromCache s)

/-- Charge a cell to its owner and set its state word; a first headroom grant starts a pause (R329). -/
def State.charge (s : State) (o c ownp : Nat) (host head : Bool) (g : Grant) : State :=
  let x := s.own o
  let hd := decide (g = .headroom)
  let start := hd && !x.pause
  let y := s.cell c
  let s := (s.setOwn o { x with u := x.u + 1, h := x.h + natBool hd, pause := x.pause || hd }).occur 88 0x010 1
  let s := s.setCell c { y with ref := if head && !host then 1 else 0, gen := (y.gen + 1) % 256, ownp := ownp,
                                host := host, head := head, next := 0, owner := o }
  if start then
    { s with hop := { s.hop with pauseTx := s.hop.pauseTx ++
        [(o / 8, o % 8, bitsOf (s.com (aPortMac (o / 8))) 16 16)] } }
  else s

/-- Grant one cell to owner `o`, or say which counter the refusal raises. -/
def State.grant (s : State) (o : Nat) (r : Option Nat) (ownp : Nat) (host head : Bool) :
    (Nat × State) ⊕ Nat :=
  match s.grantCase o with
  | .refused k => .inr k
  | g =>
    match s.takeCell r with
    | some (c, s1) => .inl (c, s1.charge o c ownp host head g)
    | none => .inr 2

/-- Grant `n` cells as one request, all or none (R332). The cells, in order. -/
def State.grantAll (s : State) (o ownp : Nat) (host : Bool) : Nat → Bool → (List Nat × State) ⊕ Nat
  | 0, _ => .inl ([], s)
  | n + 1, head =>
    match s.grant o none ownp host head with
    | .inr k => .inr k
    | .inl (c, s1) =>
      match s1.grantAll o ownp host n false with
      | .inr k => .inr k
      | .inl (cs, s2) => .inl (c :: cs, s2)

/-- End a pause when R329 says so: a pause frame with time 0 follows (PFC_PAUSE_END). -/
def State.pauseEnd (s : State) (o : Nat) : State :=
  let x := s.own o
  let m := s.committed
  let low := decide ((sharedOf m o x : Int) * 128 ≤ 2 ^ ownAlpha m o * s.freeShared - 128 * (ownXon m o : Int))
  if x.pause ∧ x.h = 0 ∧ (x.u ≤ ownMin m o ∨ low) then
    let s := s.setOwn o { x with pause := false }
    { s with hop := { s.hop with pauseTx := s.hop.pauseTx ++ [(o / 8, o % 8, 0)] } }
  else s

/-- Every owner whose pause may end now: F has risen, or the committed set has changed (R329). -/
def State.pauseEnds (s : State) : State :=
  (s.hop.own.filter (fun e => e.2.pause)).foldl (fun s e => s.pauseEnd e.1) s

/-- Free one cell: headroom first, then shared, then reserved (R327); a quarantined cell leaves the pool. -/
def State.freeCell (s : State) (c : Nat) : State :=
  let y := s.cell c
  let x := s.own y.owner
  let s := (s.setOwn y.owner { x with u := x.u - 1, h := x.h - 1 }).occur 88 0x011 1
  let s := s.setCell c { y with ref := 0, host := false, head := false, next := 0 }
  let s := if y.quar then { s with hop := { s.hop with quarCells := s.hop.quarCells + 1 } }
    else s.setRing (runPut s.hop.ring c)
  s.pauseEnds

/-- The last reference of packet k is released: its cells go back in NEXT order (R339), and what it still asked
for is withdrawn. -/
def State.freePkt (s : State) (k : Nat) : State :=
  let p := s.pkt k
  let s := p.cells.foldl (fun s c => s.freeCell c) s
  let s := { s with hop := { s.hop with
    reqs := s.hop.reqs.filter (fun q => decide (q.who ≠ ReqFor.frame k))
    nocell := s.hop.nocell.filter (· ≠ k) } }
  s.setPkt k {}

/-- The packet whose head is this cell under this generation. -/
def State.pktOfHead (s : State) (c gen : Nat) : Option Nat :=
  match s.pkts.find? (fun e => e.2.cells.headD 786432 = c && e.2.gen = gen) with
  | some e => some e.1
  | none => none

/-- The chain from a cell through NEXT, as far as the packet that holds it goes; the cell alone where none does. -/
def State.chain (s : State) (c : Nat) : List Nat :=
  match s.pkts.find? (fun e => e.2.cells.contains c) with
  | some e => e.2.cells.dropWhile (· ≠ c)
  | none => [c]

/-- Mark a cell quarantined; one in a race's cache leaves the pool at once (R340). -/
def State.quarCell (s : State) (c : Nat) : State :=
  let s := s.setCell c { s.cell c with quar := true }
  match (upTo 16).find? (fun r => (s.cache r).any fun e => decide (e.1 ≤ c ∧ c < e.1 + e.2)) with
  | some r =>
    let l := (s.cache r).flatMap fun e =>
      if e.1 ≤ c ∧ c < e.1 + e.2 then
        (if e.1 < c then [(e.1, c - e.1)] else []) ++ (if c + 1 < e.1 + e.2 then [(c + 1, e.1 + e.2 - c - 1)] else [])
      else [e]
    let s := s.setCache r l
    { s with hop := { s.hop with quarCells := s.hop.quarCells + 1 } }
  | none => s.purge

/-- A reference-count fault (REFCOUNT_FAULT, R340). -/
def State.refFault (s : State) (c : Nat) : State :=
  let s := (s.chain c).foldl (fun s c => s.quarCell c) s
  ((s.bump (aHopCnt 6) 1).safety srcHopper 0x0224 c 10).reacted 1

/-- Apply one decrement (R336, R339, R340). -/
def State.decRef (s : State) (c gen : Nat) : State :=
  let y := s.cell c
  if y.ref = 0 ∨ y.gen ≠ gen then s.refFault c
  else
    let s := s.setCell c { y with ref := y.ref - 1 }
    if y.ref = 1 then
      match s.pktOfHead c gen with
      | some k => s.freePkt k
      | none => s.freeCell c
    else s

/-- REF_RELEASE: the next decrement on its way to the Hopper. -/
def execRefRelease (s : State) : Host.Outcome State Fault Refusal :=
  match s.hop.rel with
  | [] => .next s
  | (c, g) :: l =>
    if s.runs then .next ({ s with hop := { s.hop with rel := l } }.decRef c g) else .next s

/-- The request with the lowest key, in arrival order among equals (R331). -/
def lowestReq : List CellReq → Option CellReq
  | [] => none
  | q :: l =>
    match lowestReq l with
    | some b => if b.key < q.key then some b else some q
    | none => some q

/-- The first cell of a packet is its head: its GEN is the packet's. -/
def Packet.addCell (p : Packet) (c gen : Nat) : Packet :=
  { p with cells := p.cells ++ [c], gen := if p.cells = [] then gen else p.gen, want := p.want - 1 }

/-- NEXT of the last cell names the new one (R323). -/
def State.linkCell (s : State) (p : Packet) (c : Nat) : State :=
  match p.cells.getLast? with
  | some l => s.setCell l { s.cell l with next := c }
  | none => s

/-- Send the Hopper a request from source `src` on island `u`, under its event order key (R25, R331). -/
def State.askHopper (s : State) (u src owner : Nat) (w : ReqFor) : State :=
  { s with hop := { s.hop with reqs := s.hop.reqs ++ [{ key := ekey (s.islGtc u) src, owner := owner, who := w }] } }

/-- Is a request of this kind on its way? -/
def State.asks (s : State) (w : ReqFor) : Bool := s.hop.reqs.any fun q => decide (q.who = w)

/-- Withdraw requests. -/
def State.withdraw (s : State) (f : ReqFor → Bool) : State :=
  { s with hop := { s.hop with reqs := s.hop.reqs.filter fun q => !f q.who } }

/-- A frame received whole, with all its cells, counts at its port (R411, R653). -/
def State.countRx (s : State) (p : Packet) : State :=
  (s.bump (aPortCnt p.port 0) 1).bump (aPortCnt p.port 1) (p.frame.length + 4)

/-- The decision on one cell of frame k (R327 to R333): a refusal is told once, and the frame asks for no more. A frame
that had ended without its last cell counts as received with it (R653). -/
def State.frameDecide (s : State) (owner k : Nat) : State :=
  let p := s.pkt k
  match s.grant owner (some p.race) (s.domOwner p.dom) false (decide (p.cells = [])) with
  | .inl (c, s1) =>
    let q := p.addCell c (s1.cell c).gen
    let s2 := (s1.linkCell p c).setPkt k q
    if q.ended ∧ q.want = 0 ∧ q.kind = .frame then s2.countRx q else s2
  | .inr i =>
    let s := (s.bump (aHopCnt i) 1).withdraw (fun w => decide (w = .frame k))
    { s with hop := { s.hop with nocell := s.hop.nocell ++ [k] } }

/-- Has the parser admitted the packet (it is in no Sluice)? -/
def State.admitted (s : State) (k : Nat) : Bool := !((s.race (s.pkt k).race).sluice.contains k)

/-- Drop a frame the parser has not admitted: its cells are freed at once, its version's count falls. -/
def State.sluiceDrop (s : State) (k : Nat) : State :=
  let p := s.pkt k
  let x := s.race p.race
  let s := s.setRace p.race { x with sluice := x.sluice.filter (· ≠ k) }
  (s.verOut p.dom p.slot).freePkt k

/-- NO_CELL_DROP (R333, R653): the Sluice drops the frame, which has passed the checks of R411 if it has ended, or
marks an admitted packet bad. -/
def execNoCellDrop (s : State) : Host.Outcome State Fault Refusal :=
  match s.hop.nocell with
  | [] => .next s
  | k :: l =>
    let s := { s with hop := { s.hop with nocell := l
                                          reqs := s.hop.reqs.filter (fun q => decide (q.who ≠ ReqFor.frame k)) } }
    let p := s.pkt k
    let s := s.bump (aHopDropExhaust p.owner) 1
    let s := if (s.race p.race).paused then s.bump (aTskCnt p.race 7) 1 else s
    if s.admitted k then
      let cut := ((s.eg.ports.flatMap fun e => e.2.tx.toList ++ e.2.susp.toList).filter
        (fun t => decide (t.d.pkt = k))).length
      .next ((s.setPkt k { p with bad := true, ended := true, want := 0, arrived := p.frame.length }).bump (aHopCnt 7) cut)
    else .next ((if p.ended ∧ p.want ≠ 0 then s.countRx p else s).sluiceDrop k)

end Sys2Proof.Machine
end

