-- ==== Sys2Proof/Machine/Ptp.lean ====
section
/-! DEFINITION. The PTP time counter (R422 to R425) as a function of the GTC. -/

namespace Sys2Proof.Machine

open Sys2Proof

/-- One nanosecond and one second of PTP time, in units of 2^-58 ns. -/
def nsUnit : Nat := 2 ^ 58
def secNs : Nat := 1000000000
def secUnit : Nat := secNs * nsUnit

/-- The counter holds 48 bits of seconds: where it wraps. -/
def ptpWrap : Nat := 2 ^ 48 * secUnit

/-- PTP time at GTC count g, in units of 2^-58 ns: 0.25 ns × (1 + RATE × 2^-56) a count (R422). -/
def State.ptpTotal (s : State) (g : Nat) : Nat :=
  (((s.ptp.total : Int) + ((g : Int) - s.ptp.at_) * (2 ^ 56 + s.ptp.rate)) % (ptpWrap : Int)).toNat

/-- Seconds and nanoseconds of a PTP time. -/
def ptpSplit (t : Nat) : Nat × Nat := (t / secUnit, t / nsUnit % secNs)
/-- Its fraction of a nanosecond in 16 bits. -/
def ptpFrac (t : Nat) : Nat := t % nsUnit / 2 ^ 42

/-- PTP time in whole nanoseconds. -/
def State.ptpNow (s : State) : Nat := s.ptpTotal s.clk.gtc
def State.ptpNs (s : State) : Nat := s.ptpNow / nsUnit

/-- PTP time at this instant (R65). -/
def State.ptpAt (s : State) : Nat × Nat := ptpSplit s.ptpNow

/-- Apply a step or a set at GTC count g: PTP_STAT and its LAST (R423, R447). -/
def State.ptpStepped (s : State) (g total : Nat) : State :=
  { s with ptp := { s.ptp with total := total % ptpWrap, at_ := g, steps := (s.ptp.steps + 1) % 65536, lastStep := g } }

end Sys2Proof.Machine
end

