-- ==== Sys2Proof/Machine/Sched.lean ====
section
/-! DEFINITION. What happens to threads and tasks beside their instructions: interrupts, gates, completions, the
hash unit (R66, R76, R104 to R113), dealing, delay lists, keepalive timers, timeouts (R141 to R167). -/

namespace Sys2Proof.Machine

open Sys2Proof

/-! ### Interrupts, gates, completions -/

/-- The interrupt that R109 takes first, on a packet thread or a service routine (R108). A halted thread takes an
abort only (R109, R631). -/
def State.takeInt (s : State) (n : Nat) (i : Ints) : State :=
  let t := s.thr n
  if t.halted.isSome then
    if i.abort then (if t.ctx.isSome then s.exception n excAbort else s.endService n) else s
  else
    match t.ctx with
    | some _ =>
      if i.ecc then (s.exception n excEcc).safety (srcCluster (raceOf n) (cluOf n % 12)) 0x0220 n 5
      else if i.abort then s.exception n excAbort
      else if i.watchdog then s.exception n excWatchdog
      else if i.halt then (s.setThr n { t with ints := { i with halt := false } }).haltThread n .request
      else s.setThr n { t with ints := { i with drain := false } }
    | none =>
      match t.svc with
      | none => s.setThr n { t with ints := {} }
      | some _ =>
        if i.ecc then (s.endService n).safety (srcCluster (raceOf n) (cluOf n % 12)) 0x0220 n 5
        else if i.abort then s.endService n
        else if i.halt then (s.setThr n { t with ints := { i with halt := false } }).haltThread n .request
        else if i.drain then s.endService n
        else s

/-- The control-store word in error that the service routine of thread n fetches (R106, R108). -/
def State.badService (s : State) (n : Nat) : Option Nat :=
  let k := cluOf n
  match (s.thr n).ctx, (s.thr n).svc, (s.clu k).csFault with
  | none, some t, some m => if Config.serviceHolds (s.twoLevel k) t.routine m then some m else none
  | _, _, _ => none

/-- INTERRUPT_TAKEN: the thread stands at a safe point (R107), or before a faulty word of its service routine (R106).
`ecc` brings an uncorrectable error found in the thread's state (R108). -/
def execInterruptTaken (t : ThreadId) (ecc : Bool) (s : State) : Host.Outcome State Fault Refusal :=
  let n := thrNum t
  let i := (s.thr n).ints
  if s.runs ∧ !(s.thr n).mstep ∧ (s.thr n).atSafe then
    match s.badService n with
    | some m => .next (s.csFaultAt n m)
    | none => .next (s.takeInt n { i with ecc := i.ecc || ecc })
  else .next s

/-- Does the gate's condition hold (R104)? -/
def gateHolds (s : State) (c : Ctx) : Gate → Bool
  | .dcLe n => decide (c.dc.toNat ≤ n)
  | .hdr n => decide (n ≤ (s.pkt c.pkt).arrived ∨ (s.pkt c.pkt).frame.length ≤ (s.pkt c.pkt).arrived)
  | .reply tag => decide (c.rcOf tag.val ≠ 0)
  | .grant => decide ((s.pkt c.pkt).want = 0)
  | .tick => s.races.all fun e => e.2.dly.all fun d => decide (d.kind ≠ .prog ∨ d.ctx.task ≠ c.task)
  | .room _ | .entry => false

/-- GATE_CONDITION_TRUE (R104, R147): the thread rejoins the tail of its ready list. -/
def execGateConditionTrue (t : ThreadId) (s : State) : Host.Outcome State Fault Refusal :=
  let n := thrNum t
  let x := s.thr n
  match x.ctx, x.gate with
  | some c, some g =>
    if s.runs ∧ gateHolds s c g then
      let s := s.setThr n { x with gate := none }
      if x.halted.isSome then .next s else .next (s.join n c.prio)
    else .next s
  | _, _ => .next s

/-- The result and code that the thread sees: free values, the code one of R72, once it has had 16 operations
outstanding (R69, R484 case 7). -/
def State.wrongAnswer (s : State) (c : Ctx) (k : Completion) : Word64 × BitVec 4 × State :=
  if c.wrong then (s.freeVal, BitVec.ofNat 4 (s.useFree.freeVal.toNat % 9), s.useFree.useFree)
  else (k.res, k.code, s)

/-- Is a result the next to arrive: no earlier one of the same slice, or of the Weir, is still on its way to the race
(R15)? -/
def State.arrivesNext (s : State) (k : Completion) : Bool :=
  k.via = 0 ||
    (s.comps.find? fun e => decide (e.via = k.via ∧ raceOf e.thread = raceOf k.thread)) == some k

/-- ASYNC_COMPLETE (R66): result, code and dc, as one step seen by the thread. `ecc` brings an uncorrectable error in
the completion's data. -/
def execAsyncComplete (t : ThreadId) (tag : GReg) (ecc : Bool) (s : State) : Host.Outcome State Fault Refusal :=
  let n := thrNum t
  match s.comps.find? (fun k => decide (k.thread = n ∧ k.tag = tag.val)) with
  | none => .next s
  | some k =>
    if s.runs ∧ s.arrivesNext k then
      let s := { s with comps := s.comps.erase k }
      let x := s.thr n
      match x.ctx with
      | none => .next s
      | some c =>
        if c.task ≠ k.task then .next s
        else if ecc || k.ecc then .next (s.setThr n { x with ints := { x.ints with ecc := true } })
        else
          let (res, code, s) := s.wrongAnswer c k
          let c := c.setGr (Fin.ofNat 16 k.rd) res
          let c := { c.setRc k.tag code with dc := c.dc - 1 }
          let c := k.fv.foldl (fun c e => { c with fv := mset zero64 c.fv e.1 e.2 }) c
          let s := s.watchAll n true 2 (k.fv.map (fun e => (8 * e.1, 8)))
          .next (s.setThr n { (s.thr n) with ctx := some c })
    else .next s

/-- The result of the cluster's hash and checksum unit (R74). -/
def State.hashResult (s : State) (o : HashOp) : Word64 :=
  match o.kind with
  | .crc32c => (crc32c (o.seed.truncate 32) o.bytes).zeroExtend 64
  | .crc32 => (crc32 (o.seed.truncate 32) o.bytes).zeroExtend 64
  | .csum => BitVec.ofNat 64 (csumBytes (o.seed.toNat % 65536) o.bytes)
  | .h0 =>
    match o.src with
    | .thread n _ _ _ =>
      match (s.thr n).ctx with
      | some c => s.hash0 (s.domOwner (s.pkt c.pkt).dom) o.bytes
      | none => s.hash0 0 o.bytes
    | _ => s.hash0 0 o.bytes

/-- HASH_APPLY (R74): the unit works off its oldest operation. -/
def execHashApply (race : RaceId) (cluster : ClusterId) (s : State) : Host.Outcome State Fault Refusal :=
  let k := race.val * 12 + cluster.val
  let c := s.clu k
  match c.hashq with
  | [] => .next s
  | o :: l =>
    if s.runs then
      .next ((s.setClu k { c with hashq := l }).complete 0 o.src (s.hashResult o) 1 [] false)
    else .next s

/-! ### Dealing (R142 to R147) -/

def livePos (s : State) (r p : Nat) : Bool :=
  let k := r * 12 + p % 12
  !(s.cluOff k) && !(s.clu k).drain && decide (p / 12 + 1 ≤ s.activeEngines k)

/-- The next live position whose cluster has a free thread for the new-task queue (R143, R144). -/
def State.nextPos (s : State) (r : Nat) : Option (Nat × Nat) :=
  ((upTo 192).map (fun i => ((s.race r).rr + i) % 192)).findSome? fun p =>
    let k := r * 12 + p % 12
    if livePos s r p && !((s.race r).due.any fun d => decide (d.cluster = k)) then
      match s.pickThread k with
      | some n => some (p, n)
      | none => none
    else none

/-- A task starts on thread n; an entry word that names no word of the image's code raises IMAGE (R62, R80). -/
def State.begin_ (s : State) (n : Nat) (c : Ctx) : State :=
  let t := s.startOn n c
  if t.codeLen (raceOf n) c ≤ c.pc.toNat then t.exception n excImage else t

/-- TASK_DEAL: the head of the new-task queue goes to a thread (R144, R145). -/
def execTaskDeal (race : RaceId) (s : State) : Host.Outcome State Fault Refusal :=
  let r := race.val
  let x := s.race r
  match x.ntq, s.nextPos r with
  | t :: l, some (p, n) =>
    if s.runs then
      let s := s.setRace r { x with ntq := l, rr := (p + 1) % 192 }
      .next (((s.begin_ n { t.ctx with start := s.clk.gtc }).occur (64 + r) 0x012 1).pauses r)
    else .next s
  | _, _ => .next s

/-- The due task a cluster takes next: highest priority, then first due, then first placed (R143). -/
def bestDue (k : Nat) : List Delayed → Option Delayed
  | [] => none
  | d :: l =>
    match bestDue k l with
    | none => if d.cluster = k then some d else none
    | some b =>
      if d.cluster = k ∧ (d.ctx.prio > b.ctx.prio ∨ (d.ctx.prio = b.ctx.prio ∧
          (d.due < b.due ∨ (d.due = b.due ∧ d.seq ≤ b.seq)))) then some d else some b

/-- The state with which a delayed task resumes: the watchdog of a task without a frame did not run (R167). -/
def State.resumed (s : State) (c : Ctx) : Ctx :=
  if (s.pkt c.pkt).hasFrame then c else { c with start := s.clk.gtc - c.start }

/-- DUE_TASK_TAKE: a free thread of the cluster, chosen as R145 chooses (log 100), takes a due task (R143), unless the
cluster is being switched (R124, R155). -/
def execDueTaskTake (race : RaceId) (cluster : ClusterId) (s : State) : Host.Outcome State Fault Refusal :=
  let r := race.val
  let k := r * 12 + cluster.val
  let x := s.race r
  match bestDue k x.due, s.pickThread k with
  | some d, some n =>
    if s.runs ∧ (s.clu k).drain = false ∧ s.cluOff k = false then
      .next ((s.setRace r { x with due := x.due.erase d }).startOn n (s.resumed d.ctx))
    else .next s
  | _, _ => .next s

/-- HELD_PASS_ENQUEUE: the first pass the classifier holds enters the new-task queue as an entry frees (R141). -/
def execHeldPassEnqueue (race : RaceId) (s : State) : Host.Outcome State Fault Refusal :=
  let r := race.val
  let x := s.race r
  match x.held with
  | t :: l =>
    if s.runs ∧ x.ntq.length < 1024 then
      .next ((s.setRace r { x with held := l, ntq := x.ntq ++ [t] }).pauses r)
    else .next s
  | [] => .next s

/-! ### Delay lists (R149 to R155) -/

/-- Insert by priority, highest first, then by placement. -/
def dueInsert (d : Delayed) : List Delayed → List Delayed
  | [] => [d]
  | e :: l =>
    if d.due < e.due ∨ (d.due = e.due ∧ (d.ctx.prio > e.ctx.prio ∨ (d.ctx.prio = e.ctx.prio ∧ d.seq < e.seq)))
    then d :: e :: l else e :: dueInsert d l

/-- The program delays of a list that are due, in the order of R154. -/
def Race.dueProgs (x : Race) (u now : Nat) : List Delayed :=
  (x.dly.filter (fun d => decide (d.kind = .prog ∧ d.list = u ∧ d.due ≤ now))).foldl (fun l d => dueInsert d l) []

/-- A program delay leaves its list: to its cluster, or it ends with ABORT when the cluster has been isolated
(R155). -/
def State.leaveList (s : State) (r : Nat) (d : Delayed) : State :=
  let x := s.race r
  let s := s.setRace r { x with dly := x.dly.erase d }
  if s.cluOff d.cluster then s.isolEnd d.ctx.pkt
  else s.setRace r { s.race r with due := (s.race r).due ++ [d] }

/-- DELAY_ENTRY_OBTAINED (R152): a thread that waits at its `delay` obtains an entry, and its count runs from now.
Unit and count are those of the instruction it stands at. -/
def execDelayEntryObtained (t : ThreadId) (s : State) : Host.Outcome State Fault Refusal :=
  let n := thrNum t
  let x := s.thr n
  match x.ctx with
  | some c =>
    let r := raceOf n
    if s.runs ∧ x.gate = some .entry ∧ x.halted = none ∧ s.delayRoom r = true then
      let w := s.fetch r c
      let k := if bitOf w 23 then (c.gr (Fin.ofNat 16 (bitsOf w 16 4))).toNat % 65536 else bitsOf w 0 16
      .next ((s.placeDelay n (bitsOf w 24 2) k { c with pc := c.pc + 1 }).slotsSpent n c (BitVec.ofNat 32 w))
    else .next s
  | none => .next s

/-! ### Tasks without a packet (R141, R154, R156, R157, R241) -/

/-- The entry a class runs (R84, R190): image base, code offset, priority; none drops the packet. -/
def State.classEntry (s : State) (r d v cls : Nat) : Option (Nat × Nat × Nat) :=
  let w1 := s.regN (aClsVd d v + 4)
  let cent := s.regN (aClsCent (bitsOf w1 16 16 + cls))
  if bitsOf w1 0 13 ≤ cls ∨ bitsOf cent 30 2 ≠ 1 then none
  else
    let img := bitsOf cent 16 13 * 64
    let w := memLe s.mems.prog (bankBase r + img + 0x40 + 4 * bitsOf cent 8 8) 4
    some (img, bitsOf w 0 15, bitsOf w 29 3)

/-- The 64-byte metadata block of a task without a frame (R183): port 0x1FF, domain, slot, class. It is neither parsed
nor classified: M_RULE says no rule matched, M_OFF names no header, and the other fields are 0 (log 101). -/
def bareMd (d v cls : Nat) : Mem :=
  let m := setLe [] 4 2 0x1FF
  let m := setLe m 6 1 (d * 16 + v)
  let m := setLe m 8 2 cls
  let m := setLe m 0x12 2 0x8000
  setLe m 0x14 4 0xFFFFFFFF

/-- Add a packet under a fresh number. -/
def State.addPkt (s : State) (p : Packet) : Nat × State :=
  (s.nextPkt, { s.setPkt s.nextPkt p with nextPkt := s.nextPkt + 1 })

/-- A task for the new-task queue. -/
def bareTask (k img pc prio d v cls : Nat) (fv : SMap Word64) : Task :=
  { ctx := { pkt := k, pc := BitVec.ofNat 15 pc, md := bareMd d v cls, fv := fv, prio := prio, img := img } }

/-- The first due time of a timer's series after `now` (R156), and how many it passes over. -/
def nextFiring (due period now : Nat) : Nat × Nat :=
  let first := due + period
  if first > now then (first, 0)
  else
    let k := (now - first) / period + 1
    (first + k * period, k)

/-- The timer's own entry placed again (R156), on the list of the UNIT it now has and a multiple of its new period after
the due time it had (log 101). -/
def State.replace (s : State) (r j : Nat) : State :=
  let x := s.race r
  let w := s.com (aTskKa r j)
  let period := max 1 (bitsOf w 0 16) * dlyTick (bitsOf w 29 2)
  let skipped := (x.dly.filter (fun d => decide (d.kind = .timer j))).foldl
    (fun m d => m + (nextFiring d.due period s.clk.gtc).2) 0
  let move := fun (d : Delayed) =>
    if d.kind = .timer j then { d with due := (nextFiring d.due period s.clk.gtc).1, list := bitsOf w 29 2, seq := x.seq, fired := none } else d
  let s := s.setRace r { x with dly := x.dly.map move, seq := x.seq + 1 }
  if skipped = 0 then s else s.bump (aTskCnt r 5) skipped

/-- No slot: a domain without a current version. -/
def noSlot : Nat := 4

/-- The version slot current in a domain, and the PTP time, at this GTC count. -/
def State.firingNow (s : State) (dom : Nat) : Nat × Nat × Nat :=
  let (ps, pn) := s.ptpAt
  ((s.curSlot dom).getD noSlot, ps, pn)

/-- The domain of a keepalive timer of race r. -/
def State.kaDom (s : State) (r j : Nat) : Nat := bitsOf (s.com (aTskKa r j + 4)) 28 4

/-- A timer that falls due notes the slot current now, whose in-flight count rises, and the PTP time (R65, R157, R199,
R200). -/
def State.stampOne (s : State) (r : Nat) (d : Delayed) : State :=
  match d.kind with
  | .timer j =>
    let f := s.firingNow (s.kaDom r j)
    let x := s.race r
    let s := s.setRace r { x with dly := x.dly.map (fun e => if e = d then { e with fired := some f, firedDom := s.kaDom r j } else e) }
    if f.1 = noSlot then s else s.verIn (s.kaDom r j) f.1
  | _ => s

/-- The timers of race r that fall due with this count. -/
def State.stampFirings (s : State) (r : Nat) : State :=
  ((s.race r).dly.filter (fun d => decide (d.due ≤ s.clk.gtc ∧ d.fired = none))).foldl (fun s d => s.stampOne r d) s

/-- What a firing runs: the slot and the PTP time noted when it fell due, and the image, offset and priority of the
entry. -/
def State.firing (s : State) (r j : Nat) (d : Delayed) : Option (Nat × Nat × Nat × Nat × Nat × Nat) :=
  match d.fired with
  | some (v, ps, pn) =>
    (s.classEntry r d.firedDom v (bitsOf (s.com (aTskKa r j + 4)) 16 12)).map fun e => (v, ps, pn, e)
  | none => none

/-- A firing that creates no task: the timer places itself again (R156, R157, R199). -/
def State.skipFiring (s : State) (r j cnt : Nat) (d : Delayed) : State :=
  let s := (s.bump cnt 1).replace r j
  match d.fired with
  | some (v, _, _) => if v = noSlot then s else s.verOut d.firedDom v
  | none => s

/-- A due timer asks the Hopper for its cell as the race's task scheduler, for the partition that owns its domain
(R24, R156, R157, R331). Without a version at its due time, or a class that runs, the firing makes no task. -/
def State.fireTimer (s : State) (r j : Nat) (d : Delayed) : State :=
  match d.fired with
  | none => s
  | some (v, _, _) =>
    if v = noSlot then s.skipFiring r j (aTskCnt r 5) d
    else
      match s.firing r j d with
      | none => s.skipFiring r j (aClsCnt r 2) d
      | some _ => s.askHopper (islRace r) (32 * r + 3) (4096 + s.domOwner d.firedDom) (.keepalive r j)

/-- The decision on the cell of timer j: the task, which M_LEN 0 and flow-view word 0 describe, enters the new-task
queue, and the timer places itself again (R156, R157). -/
def State.keepaliveDecide (s : State) (r j : Nat) : State :=
  match (s.race r).dly.find? (fun d => decide (d.kind = .timer j)) with
  | none => s
  | some d =>
    let dom := d.firedDom
    let w1 := s.com (aTskKa r j + 4)
    let p := s.domOwner dom
    match s.firing r j d with
    | none => s.skipFiring r j (aClsCnt r 2) d
    | some (v, ps, pn, img, pc, prio) =>
      match s.grant (4096 + p) (some r) p false true with
      | .inr i => (s.bump (aHopCnt i) 1).skipFiring r j (aTskCnt r 5) d
      | .inl (c, s1) =>
        let (k, s2) := s1.addPkt
          { kind := .keepalive j, race := r, dom := dom, slot := v, ended := true, pcs := s.clk.gtc,
            stamp := d.due, ptpS := ps, ptpNs := pn, cells := [c], gen := (s1.cell c).gen, owner := 4096 + p }
        let fv := mset zero64 [] 0 (BitVec.ofNat 64 (j + bitsOf w1 0 16 * 2 ^ 32))
        let t := bareTask k img pc prio dom v (bitsOf w1 16 12) fv
        let s3 := s2.setRace r { s2.race r with ntq := (s2.race r).ntq ++ [t] }
        (s3.replace r j).pauses r

/-- A due expiry task enters the new-task queue with the slot current now; without one it is refused and counted (R199,
R241). A class that runs no program makes no task, counted as a packet's is under R190 (log 101). -/
def State.enterExpiry (s : State) (r : Nat) (d : Delayed) : State :=
  let p := s.pkt d.ctx.pkt
  let x := s.race r
  let s := s.setRace r { x with dly := x.dly.erase d }
  let cls := s.fld (aMstExp p.dom) 16 12
  match s.curSlot p.dom with
  | none => (s.bump (aTskCnt r 6) 1).setPkt d.ctx.pkt {}
  | some v =>
    match s.classEntry r p.dom v cls with
    | none => (s.bump (aClsCnt r 2) 1).setPkt d.ctx.pkt {}
    | some (img, pc, prio) =>
      let s := (s.setPkt d.ctx.pkt { p with slot := v }).verIn p.dom v
      let t := bareTask d.ctx.pkt img pc prio p.dom v cls d.ctx.fv
      (s.setRace r { s.race r with ntq := (s.race r).ntq ++ [t] }).pauses r

/-- The priority of the entry that a keepalive or expiry task would run. -/
def State.barePrio (s : State) (r : Nat) (d : Delayed) : Nat :=
  let dc := match d.kind with
    | .timer j =>
      let w1 := s.com (aTskKa r j + 4)
      (if d.fired.isSome then d.firedDom else bitsOf w1 28 4, bitsOf w1 16 12)
    | _ =>
      let dom := (s.pkt d.ctx.pkt).dom
      (dom, s.fld (aMstExp dom) 16 12)
  let slot := match d.fired with | some f => f.1 | none => (s.curSlot dc.1).getD noSlot
  match s.classEntry r dc.1 slot dc.2 with
  | some (_, _, prio) => if slot = noSlot then 0 else prio
  | none => 0

/-- The due keepalive and expiry tasks of a list, in the order in which they leave it (R154). -/
def State.dueBare (s : State) (r u : Nat) : List Delayed :=
  let l := (s.race r).dly.filter (fun d => decide (d.kind ≠ .prog ∧ d.list = u ∧ d.due ≤ s.clk.gtc))
  let ranked := l.map fun d => { d with ctx := { d.ctx with prio := s.barePrio r d } }
  (ranked.foldl (fun m d => dueInsert d m) []).filterMap fun d => l.find? (fun e => decide (e.kind = d.kind ∧ e.seq = d.seq))

/-- Is a firing of race r waiting for its cell? -/
def State.firingAsks (s : State) (r : Nat) : Nat :=
  (s.hop.reqs.filter fun q => match q.who with | .keepalive x _ => decide (x = r) | _ => false).length

/-- May a due keepalive or expiry task enter the new-task queue? It stands behind the held passes and, when it has
waited past its tick, behind the Leat passes (R154). A timer that has asked for its cell has its place in the queue. -/
def State.bareRoom (s : State) (r : Nat) (d : Delayed) : Bool :=
  let x := s.race r
  s.runs && (match d.kind with | .timer j => !s.asks (.keepalive r j) | _ => decide (s.firingAsks r = 0)) &&
    !s.blockOff 0 r && decide (d.due ≤ s.clk.gtc) && decide (x.ntq.length + s.firingAsks r < 1024) &&
    decide (x.held = []) &&
    (decide (d.due = s.clk.gtc) || decide (x.leat = []))

/-- A due keepalive or expiry task that has room leaves its list. -/
def State.enterBare (s : State) (r : Nat) (d : Delayed) : State :=
  if s.bareRoom r d then
    match d.kind with
    | .timer j => s.fireTimer r j d
    | _ => s.enterExpiry r d
  else s

/-- They enter in order, up to the first that has no room: those behind it wait with it (R154). -/
def State.enterInOrder (s : State) (r : Nat) : List Delayed → State
  | [] => s
  | d :: l => if s.bareRoom r d then (s.enterBare r d).enterInOrder r l else s

/-- DELAY_TICK: the tick of a list. Its resumed tasks that are due leave it, and its due keepalive and expiry tasks
enter the new-task queue while it has room (R149, R154). -/
def execDelayTick (race : RaceId) (unit : Fin 4) (s : State) : Host.Outcome State Fault Refusal :=
  let r := race.val
  if s.runs then
    let s := s.stampFirings r
    let s := ((s.race r).dueProgs unit.val s.clk.gtc).foldl (fun s d => s.leaveList r d) s
    .next (s.enterInOrder r (s.dueBare r unit.val))
  else .next s

/-- KEEPALIVE_FIRE (R156, R157): the timer is due and the first of its list to leave it (R154). -/
def execKeepaliveFire (race : RaceId) (timer : Fin 4096) (s : State) : Host.Outcome State Fault Refusal :=
  let r := race.val
  let s0 := s
  let s := s.stampFirings r
  match (s.race r).dly.find? (fun d => decide (d.kind = .timer timer.val)) with
  | none => .next s0
  | some d => if (s.dueBare r d.list).head? = some d then .next (s.enterBare r d) else .next s0

/-- DUE_TASK_ENQUEUE (R154, R156, R241): the first due keepalive or expiry task of a list enters the new-task queue. -/
def execDueTaskEnqueue (race : RaceId) (unit : Fin 4) (s : State) : Host.Outcome State Fault Refusal :=
  let r := race.val
  let s := s.stampFirings r
  match (s.dueBare r unit.val).head? with
  | none => .next s
  | some d => .next (s.enterBare r d)

/-! ### Timeouts (R164, R167) -/

/-- REORDER_TIMEOUT (R164): the first slot of the race held for RACE_REORDER_TMO or longer is lost, and its packet is
late. -/
def execReorderTimeout (race : RaceId) (s : State) : Host.Outcome State Fault Refusal :=
  let r := race.val
  let tmo := s.fld (aRaceReorderTmo r) 0 16 * 4
  match (s.race r).rob.find? (fun e => decide (e.at_ + tmo ≤ s.clk.gtc)) with
  | none => .next s
  | some e =>
    if s.runs then
      let s := s.setPkt e.pkt { s.pkt e.pkt with late := true }
      let s := s.bump (aRaceLateCnt r) 1
      let s := match e.out with
        | some l => s.leaveAll r l
        | none => s
      .next (s.robDrop r e.pkt)
    else .next s

/-- The 20 µs of the budget watchdog in GTC counts (R167). -/
def budget : Nat := 80000

/-- BUDGET_WATCHDOG (R167): expiry on a thread raises the interrupt; on a delayed packet task, or one waiting for a
thread, the task ends with WATCHDOG. -/
def execBudgetWatchdog (race : RaceId) (task : Nat) (s : State) : Host.Outcome State Fault Refusal :=
  let r := race.val
  let x := s.race r
  let isOver := fun (c : Ctx) => decide (c.task = task ∧ c.start + budget ≤ s.clk.gtc)
  let onThread := s.threads.find? fun e =>
    decide (raceOf e.1 = r) && e.2.halted.isNone && (match e.2.ctx with | some c => isOver c | none => false)
  if s.runs = false then .next s
  else
    match onThread with
    | some (n, t) => .next (s.setThr n { t with ints := { t.ints with watchdog := true } })
    | none =>
      match (x.dly ++ x.due).find? (fun d =>
          decide (d.kind = .prog) && isOver d.ctx && (s.pkt d.ctx.pkt).hasFrame) with
      | some d =>
        .next ((s.setRace r { x with dly := x.dly.erase d, due := x.due.erase d }).excEnd d.ctx.pkt excWatchdog)
      | none => .next s

end Sys2Proof.Machine
end

