-- ==== Sys2Proof/Machine/Frontend.lean ====
section
/-! DEFINITION. The parser and the classifier (R178 to R190), and the admission of Sluice frames and Leat passes
(R141, R159, R160, R163): PARSER_ADMIT and LEAT_ADMIT. -/

namespace Sys2Proof.Machine

open Sys2Proof

/-! ### The walk (R180, R181) -/

/-- What a walk has extracted so far. -/
structure ParseWalk where
  start : Nat := 0
  visits : Nat := 1
  /-- Key area (72 B), flow key (48 B). -/
  area : Mem := []
  key : Mem := []
  offs : Nat := 0xFFFFFFFF
  path : Nat := 0
deriving DecidableEq, Repr

/-- How a node or a walk ends; `wait`: a byte it needs has not arrived (R182). -/
inductive WalkEnd where
  | done
  | goto (node : Nat)
  | fault (code : Nat)
  | wait
deriving DecidableEq, Repr

def fHdrTrunc : Nat := 1
def fHdrWindow : Nat := 2
def fDepth : Nat := 3
def fLenRange : Nat := 4
def fNoTrans : Nat := 5
def fIp4Csum : Nat := 6
def fL3Len : Nat := 7
def fRunt : Nat := 8

/-- Is the byte at frame offset b there: none when it is, else how the walk ends (R180, R182). -/
def byteEnd (p : Packet) (b : Nat) : Option WalkEnd :=
  if p.frame.length ≤ b then (if p.arrived < p.frame.length then some .wait else some (.fault fHdrTrunc))
  else if 192 ≤ b then some (.fault fHdrWindow)
  else if p.arrived ≤ b then some .wait
  else none

def frameByte (p : Packet) (b : Nat) : Nat := (p.frame.getD b 0).toNat

/-- A 16-bit big-endian field at a frame offset. -/
def field16 (p : Packet) (b : Nat) : Nat ⊕ WalkEnd :=
  match byteEnd p b with
  | some e => .inr e
  | none =>
    match byteEnd p (b + 1) with
    | some e => .inr e
    | none => .inl (frameByte p b * 256 + frameByte p (b + 1))

/-- A word of a parse node. -/
def State.node (s : State) (i w : Nat) : Nat := s.regN (aPrsNode i + 4 * w)

/-- Step 1: the header length. -/
def nodeLen (s : State) (p : Packet) (i start : Nat) : Nat ⊕ WalkEnd :=
  let w := s.node i 0
  if bitOf w 31 then
    match field16 p (start + bitsOf w 8 8) with
    | .inr e => .inr e
    | .inl f =>
      let width := if bitsOf w 20 4 = 0 then 16 else bitsOf w 20 4
      .inl (f / 2 ^ bitsOf w 16 4 % 2 ^ width * 2 ^ bitsOf w 24 2 + bitsOf w 0 8)
  else .inl (bitsOf w 0 8)

/-- Step 2: MINLEN and MAXLEN. -/
def lenOk (s : State) (i len : Nat) : Bool :=
  let w := s.node i 1
  let hi := if bitsOf w 8 8 = 0 then 255 else bitsOf w 8 8
  decide (bitsOf w 0 8 ≤ len ∧ len ≤ hi)

/-- Step 3: the whole header is present, judged by its last byte. -/
def headerEnd (p : Packet) (start len : Nat) : Option WalkEnd :=
  if len = 0 then none else byteEnd p (start + len - 1)

/-- Step 4: the check CHK selects (R181). The last byte of a header of odd length counts as the high byte of a word
whose low byte is 0, as in R73's sum (log 106). -/
def nodeCheck (s : State) (p : Packet) (i start len : Nat) : Option WalkEnd :=
  let w := s.node i 1
  match bitsOf w 16 2 with
  | 1 =>
    if fold16 (csumBytes 0 ((p.frame.drop start).take len)) = 0xFFFF then none else some (.fault fIp4Csum)
  | 2 =>
    match field16 p (start + bitsOf w 18 8) with
    | .inr e => some e
    | .inl f =>
      let last := start + f + bitsOf w 26 6
      if last ≤ p.frame.length then (if p.arrived < last then some .wait else none)
      else if p.arrived < p.frame.length then some .wait else some (.fault fL3Len)
  | _ => none

/-- Does an extraction wait for a byte of the header window that has not arrived? One beyond the end of the frame is
waited for until the frame has ended (R182). -/
def extractWaits (p : Packet) (from_ n : Nat) : Bool :=
  (upTo n).any fun j => decide (from_ + j < 192 ∧ p.arrived ≤ from_ + j ∧ p.arrived < p.frame.length)

/-- Copy `n` bytes of the frame into a destination; bytes at min(P, 192) or above read 0 (R180). -/
def copyBytes (p : Packet) (m : Mem) (dst src : Nat) : Nat → Mem
  | 0 => m
  | n + 1 =>
    copyBytes p (setByte m dst (if src < p.hlen then p.frame.getD src 0 else 0)) (dst + 1) (src + 1) n

/-- Step 5, one extraction. -/
def extract (s : State) (p : Packet) (i start x : Nat) (k : ParseWalk) : ParseWalk :=
  let w := s.node i (11 + x)
  if bitOf w 31 then
    let n := bitsOf w 18 4 + 1
    if bitsOf w 29 2 = 0 then { k with area := copyBytes p k.area (bitsOf w 22 7) (start + bitsOf w 0 8) n }
    else { k with key := copyBytes p k.key (bitsOf w 22 7) (start + bitsOf w 0 8) n }
  else k

def nodeExtractWaits (s : State) (p : Packet) (i start : Nat) : Bool :=
  (upTo 4).any fun x =>
    let w := s.node i (11 + x)
    bitOf w 31 && extractWaits p (start + bitsOf w 0 8) (bitsOf w 18 4 + 1)

/-- Step 5: extractions in order, M_OFF and M_PATH. -/
def nodeFill (s : State) (p : Packet) (i start : Nat) (k : ParseWalk) : ParseWalk :=
  let w := s.node i 15
  let k := (upTo 4).foldl (fun k x => extract s p i start x k) k
  let o := bitsOf w 26 3
  let k := if 1 ≤ o ∧ o ≤ 4 then { k with offs := putBits k.offs (8 * (o - 1)) 8 start } else k
  if bitOf w 20 then { k with path := k.path ||| 2 ^ bitsOf w 21 5 } else k

/-- Step 6: the next node. -/
def nodeNext (s : State) (p : Packet) (i start : Nat) : WalkEnd :=
  let w := s.node i 15
  let def_ : WalkEnd := if bitOf w 29 then .goto (bitsOf w 0 10) else .fault fNoTrans
  if bitOf w 30 then .done
  else
    let sel := s.node i 2
    if bitOf sel 8 then
      match field16 p (start + bitsOf sel 0 8) with
      | .inr e => e
      | .inl f =>
        let v := f &&& bitsOf sel 16 16
        match (upTo 8).find? (fun j => bitOf (s.node i (3 + j)) 15 && bitsOf (s.node i (3 + j)) 16 16 == v) with
        | some j => .goto (bitsOf (s.node i (3 + j)) 0 10)
        | none => def_
    else def_

/-- One node: steps 1 to 6. A fault of steps 1 to 4 leaves the walk as it was. -/
def nodeVisit (s : State) (p : Packet) (i : Nat) (k : ParseWalk) : ParseWalk × WalkEnd × Nat :=
  match nodeLen s p i k.start with
  | .inr e => (k, e, 0)
  | .inl len =>
    if lenOk s i len = false then (k, .fault fLenRange, len)
    else
      match headerEnd p k.start len with
      | some e => (k, e, len)
      | none =>
        match nodeCheck s p i k.start len with
        | some e => (k, e, len)
        | none =>
          if nodeExtractWaits s p i k.start then (k, .wait, len)
          else (nodeFill s p i k.start k, nodeNext s p i k.start, len)

/-- The walk from node i, at most 17 visits. -/
def walkFrom (s : State) (p : Packet) : Nat → Nat → ParseWalk → ParseWalk × WalkEnd
  | 0, _, k => (k, .fault fDepth)
  | f + 1, i, k =>
    match nodeVisit s p i k with
    | (k1, .goto j, len) =>
      if k1.visits = 16 then (k1, .fault fDepth)
      else walkFrom s p f j { k1 with start := k1.start + len, visits := k1.visits + 1 }
    | (k1, e, _) => (k1, e)

/-- The nodes that a walk visits. -/
def walkNodes (s : State) (p : Packet) : Nat → Nat → ParseWalk → List Nat
  | 0, _, _ => []
  | f + 1, i, k =>
    i :: match nodeVisit s p i k with
      | (k1, .goto j, len) =>
        if k1.visits = 16 then [] else walkNodes s p f j { k1 with start := k1.start + len, visits := k1.visits + 1 }
      | _ => []

/-- GTC counts within which a class entry or a parse node in error has been rewritten: 10 µs (R562). -/
def badWordTime : Nat := 40000

/-- Does race r's copy hold a word in error among the `n` bytes at register address a, not yet rewritten? When within
its 10 µs that happens is a free value (log 108). -/
def State.readsBad (s : State) (r a n : Nat) : Bool :=
  bitOf s.freeVal.toNat 0 &&
    s.cls.bad.any fun w => decide (w.race = r ∧ a ≤ w.addr ∧ w.addr < a + n ∧ s.clk.gtc < w.at_ + badWordTime)

/-- Does the pass of a packet read a parse node in error (R562)? One that its walk visits. -/
def State.nodesBad (s : State) (p : Packet) : Bool :=
  decide (60 ≤ p.frame.length) &&
    (walkNodes s p 17 (bitsOf (s.regN (aClsVd p.dom p.slot)) 0 10) {}).any fun i => s.readsBad p.race (aPrsNode i) 64

/-- Does the class entry of a packet lie in error (R190, R562)? -/
def State.entryBad (s : State) (p : Packet) (cls : Nat) : Bool :=
  let w1 := s.regN (aClsVd p.dom p.slot + 4)
  decide (cls < bitsOf w1 0 13) && s.readsBad p.race (aClsCent (bitsOf w1 16 16 + cls)) 4

/-- The walk of a packet under its version, with the fault RUNT at admission (R185). -/
def State.parseWalk (s : State) (p : Packet) : ParseWalk × WalkEnd :=
  if p.frame.length < 60 then
    ({}, if p.arrived < p.frame.length then .wait else .fault fRunt)
  else walkFrom s p 17 (bitsOf (s.regN (aClsVd p.dom p.slot)) 0 10) {}

/-! ### Classification (R187 to R190) -/

/-- The 80-byte search key (R187). -/
def tcamKey (p : Packet) (k : ParseWalk) (mal : Bool) : BitVec 640 :=
  let head : List Byte :=
    BitVec.ofNat 8 (p.pass * 4 + natBool mal * 2) :: leBytes 2 (p.port % 512) ++ [0] ++ leBytes 4 k.path
  BitVec.ofNat 640 (leNat (head ++ getBytes k.area 0 72))

/-- Does a rule match (R188)? -/
def Rule.hits (r : Rule) (p : Packet) (key : BitVec 640) : Bool :=
  r.valid && r.dom == p.dom && bitOf r.vmask p.slot && key &&& r.mask == r.value &&& r.mask

/-- The matching rule of lowest index in the race's TCAM. -/
def State.tcamFind (s : State) (r : Nat) (p : Packet) (key : BitVec 640) : Option (Nat × Rule) :=
  match s.cls.tcam.find? (fun e => decide (e.1 / 16384 = r) && e.2.hits p key) with
  | some e => some (e.1 % 16384, e.2)
  | none => none

/-- A side lookup of the classifier (R189): status 2 HIT or 3 MISS, and the data. -/
def State.sideLookup (s : State) (p : Packet) (k : ParseWalk) (sel type : Nat) : Nat × Nat × State :=
  let key := BitVec.ofNat 64 (memLe k.area (8 * sel) 8)
  match s.emLookup p.race (s.domOwner p.dom) type key with
  | (some e, s1) => (2, e.data, s1.bump (aClsCnt p.race 4) 1)
  | (none, s1) => (3, 0, s1.bump (aClsCnt p.race 5) 1)

/-- The metadata block after parsing and classification (R183). -/
def buildMd (p : Packet) (k : ParseWalk) (mal cls colour queue rule : Nat) (st0 d0 st1 d1 : Nat) : Mem :=
  let m := setLe [] 0 2 p.frame.length
  let m := setLe m 4 2 (p.port % 512)
  let m := setLe m 6 1 (p.dom * 16 + p.pass * 4 + p.slot)
  let m := setLe m 7 1 mal
  let m := setLe m 8 2 cls
  let m := setLe m 0x0A 1 colour
  let m := setLe m 0x0B 1 (st0 + 16 * st1)
  let m := setLe m 0x0C 4 queue
  let m := setLe m 0x12 2 rule
  let m := setLe m 0x14 4 k.offs
  let m := setLe m 0x18 4 k.path
  let m := setLe m 0x20 8 d0
  let m := setLe m 0x28 8 d1
  (upTo 16).foldl (fun m i => setByte m (48 + i) (getByte p.carry i)) m

/-- The flow key in flow-view words 0 to 5 (R44). -/
def keyView (k : ParseWalk) : SMap Word64 :=
  (upTo 6).foldl (fun m i => mset zero64 m i (BitVec.ofNat 64 (memLe k.key (8 * i) 8))) []

/-- A classified pass waits for a thread, or with the classifier when the new-task queue is full (R141). -/
def State.enqueueTask (s : State) (r : Nat) (t : Task) : State :=
  let x := s.race r
  if x.held = [] ∧ x.ntq.length < 1024 then (s.setRace r { x with ntq := x.ntq ++ [t] }).pauses r
  else (s.setRace r { x with held := x.held ++ [t] }).pauses r

/-- CLASSIFY (R189, R190): the winning rule or the version's defaults, side lookups, class entry. -/
def State.classify (s : State) (k : Nat) (w : ParseWalk) (mal : Nat) : State :=
  let p := s.pkt k
  let r := p.race
  let vd := aClsVd p.dom p.slot
  let hit := s.tcamFind r p (tcamKey p w (decide (mal ≠ 0)))
  let s := s.bump (aClsCnt r (if hit.isSome then 0 else 1)) 1
  let act0 := match hit with | some (_, x) => x.act0.toNat | none => 0
  let act1 := match hit with | some (_, x) => x.act1.toNat | none => 0
  let rule := match hit with | some (i, _) => i | none => 0x8000
  let cls := if bitOf act0 31 then bitsOf act0 16 12 else s.fld (vd + 8) 0 12
  let colour := if bitOf act0 15 then bitsOf act0 12 2 else s.fld (vd + 8) 12 2
  let queue := if bitOf act1 31 then bitsOf act1 0 20 else s.fld (vd + 12) 0 20
  let (st0, d0, s) := if bitOf act0 11 then s.sideLookup p w (bitsOf act0 4 4) (bitsOf act0 8 3) else (0, 0, s)
  let (st1, d1, s) := if bitOf act1 30 then s.sideLookup p w (bitsOf act1 23 4) (bitsOf act1 27 3) else (0, 0, s)
  let entry := if s.entryBad p cls then none else s.classEntry r p.dom p.slot cls
  let s := if s.cls.bad = [] then s else s.useFree
  match entry with
  | none => (s.bump (aClsCnt r 2) 1).dropPkt k
  | some (img, pc, prio) =>
    s.enqueueTask r
      { ctx := { pkt := k, pc := BitVec.ofNat 15 pc, md := buildMd p w mal cls colour queue rule st0 d0 st1 d1,
                 fv := keyView w, prio := prio, img := img, stamps := p.stamps } }

/-- MALFORMED (R186): counted, then dropped, trapped or marked. -/
def State.malformed (s : State) (k : Nat) (w : ParseWalk) (code : Nat) : State :=
  let p := s.pkt k
  let s := s.bump (aPrsMalCnt p.race code) 1
  match bitsOf (s.regN aPrsMalAct) (2 * code) 2 with
  | 0 => s.dropPkt k
  | 1 => s.trapNow k (s.fld aPrsMalRing 0 6) code 2
  | _ => s.classify k w code

/-- Parse and classify a packet whose walk does not wait. One that meets a parse node in error is dropped as an
invalid class (R562). -/
def State.admitPass (s : State) (k : Nat) : State :=
  let p := s.pkt k
  let pass := fun (s : State) =>
    match s.parseWalk p with
    | (w, .fault code) => s.malformed k w code
    | (w, _) => s.classify k w 0
  if s.cls.bad = [] then pass s
  else if s.nodesBad p then (s.useFree.bump (aClsCnt p.race 2) 1).dropPkt k
  else pass s.useFree

def State.walkWaits (s : State) (k : Nat) : Bool := decide ((s.parseWalk (s.pkt k)).2 = .wait)

/-- PARSER_ADMIT (R159, R163, R180 to R190): the first Sluice frame, when nothing pauses the race, no pass waits
before it, its first cell is granted, and the bytes its walk needs have arrived. -/
def execParserAdmit (race : RaceId) (s : State) : Host.Outcome State Fault Refusal :=
  let r := race.val
  let x := s.race r
  match x.sluice with
  | [] => .next s
  | k :: l =>
    let p := s.pkt k
    if s.runs ∧ x.paused = false ∧ x.held = [] ∧ x.leat = [] ∧ x.bareWaits s.clk.gtc = false ∧ p.cells ≠ [] ∧ s.walkWaits k = false then
      let n := x.rob.length + 1
      let s := s.setRace r { x with sluice := l, rob := x.rob ++ [{ port := p.port, pkt := k, at_ := s.clk.gtc }]
                                    robMax := max x.robMax n }
      let s := s.setPkt k { p with rob := true, admitted := s.clk.gtc }
      .next (((s.occur (64 + r) 0x010 1).pauses r).admitPass k)
    else .next s

/-- LEAT_ADMIT (R50, R160): the first Leat pass, when the new-task queue has a free entry. -/
def execLeatAdmit (race : RaceId) (s : State) : Host.Outcome State Fault Refusal :=
  let r := race.val
  let x := s.race r
  match x.leat with
  | [] => .next s
  | k :: l =>
    if s.runs ∧ x.ntq.length < 1024 ∧ x.held = [] ∧ s.walkWaits k = false then
      .next ((((s.setRace r { x with leat := l }).occur (64 + r) 0x011 1).pauses r).admitPass k)
    else .next s

end Sys2Proof.Machine
end

