-- ==== Sys2Proof/Machine/Gates.lean ====
section
/-! DEFINITION. Ports (R405 to R419), time gates (R374 to R380) and the credit-based shaper (R372): what the egress
commands share. -/

namespace Sys2Proof.Machine

open Sys2Proof

/-! ### Ports -/

def dPortS : Nat → PortS := fun _ => {}
def State.portS (s : State) (n : Nat) : PortS := mget dPortS s.eg.ports n
def State.setPortS (s : State) (n : Nat) (x : PortS) : State :=
  { s with eg := { s.eg with ports := mset dPortS s.eg.ports n x } }

def dQueue : Nat → Queue := fun _ => {}
def State.queue (s : State) (q : Nat) : Queue := mget dQueue s.eg.queues q
def State.setQueue (s : State) (q : Nat) (x : Queue) : State :=
  { s with eg := { s.eg with queues := mset dQueue s.eg.queues q x } }

/-- Port rate in Gbit/s by type (R406); a type without a port has none. -/
def typeRate (t : Nat) : Nat :=
  match t with
  | 1 => 800
  | 2 | 3 => 400
  | 4 | 5 => 200
  | 6 | 7 | 8 => 100
  | 9 => 50
  | 10 => 25
  | 11 => 10
  | _ => 0

def typeLanes (t : Nat) : Nat :=
  match t with
  | 1 | 3 => 8
  | 2 | 5 | 8 => 4
  | 4 | 7 => 2
  | 6 | 9 | 10 | 11 => 1
  | _ => 0

/-- May a port of the type start on lane i of its octet (R406)? -/
def typeStarts (t i : Nat) : Bool := typeLanes t ≠ 0 && i % typeLanes t = 0

/-- Receive and transmit latency in ns (R419). -/
def typeLatency (t fec : Nat) : Nat × Nat :=
  match t with
  | 1 => (64, 22)
  | 2 | 3 => (72, 24)
  | 4 | 5 => (90, 28)
  | 6 | 7 => (118, 34)
  | 8 => (104, 32)
  | 9 => (176, 46)
  | 10 => (262, 66)
  | 11 => if fec = 0 then (26, 18) else (236, 40)
  | _ => (0, 0)

def State.portEn (s : State) (n : Nat) : Bool := bitOf (s.com (aPortCfg n)) 31
def State.portType (s : State) (n : Nat) : Nat := s.cfld (aPortCfg n) 24 4
def State.portRate (s : State) (n : Nat) : Nat := typeRate (s.portType n)
def State.portLatency (s : State) (n : Nat) : Nat × Nat := typeLatency (s.portType n) (s.cfld (aPortCfg n) 23 1)
def State.maxFrm (s : State) (n : Nat) : Nat := s.cfld (aPortCfg n) 0 14
def State.portOwner (s : State) (n : Nat) : Nat := s.cfld (aHstPortOwn (n / 16)) (2 * (n % 16)) 2

/-- Does the Tailrace of port n dequeue for it (R409, R513, R515)? -/
def State.tailRuns (s : State) (n : Nat) : Bool :=
  s.runs && s.portEn n && !s.blockOff 2 (n / 32)

/-- Could the link of port n be up (R409, R515, R564)? -/
def State.portOn (s : State) (n : Nat) : Bool :=
  s.serves && s.tailRuns n && !s.blockOff 3 (n / 8) && !s.top.isolated.contains (0, n / 32)

/-- Does port n pass frames (R409)? -/
def State.passing (s : State) (n : Nat) : Bool := s.portOn n && (s.portS n).link

/-- The signed value of a 32-bit word. -/
def signed32 (v : Nat) : Int := (BitVec.ofNat 32 v).toInt

/-- A signed number of 2^-16 ns in GTC counts, rounded down. -/
def adjCounts (v : Nat) : Int := signed32 v * 4 / 65536

/-- GTC stamps referred to the balls (R420). -/
def State.rxStamp (s : State) (n g : Nat) : Nat :=
  ((g : Int) - 4 * (s.portLatency n).1 + adjCounts (s.regN (aPortTsadj n))).toNat
def State.txStamp (s : State) (n g : Nat) : Nat :=
  ((g : Int) + 4 * (s.portLatency n).2 + adjCounts (s.regN (aPortTsadj n + 4))).toNat

/-- Line time of `b` bytes with preamble and gap, in GTC counts (tx of R375). -/
def lineTime (b rate : Nat) : Nat := ((b + 20) * 32 + rate - 1) / rate

/-! ### Gate lists -/

/-- The bits of gates that a list clears in some entry. -/
def GateList.gated (l : GateList) (c : Nat) : Bool := l.ents.any fun e => !bitOf e.gates c

/-- The entry in force at offset o of the cycle: its index, and what is left of it. -/
def entAt : List GateEnt → Nat → Nat → Option (Nat × Nat)
  | [], _, _ => none
  | e :: l, i, o => if o < e.interval then some (i, e.interval - o) else entAt l (i + 1) (o - e.interval)

/-- Cycle number and entry at PTP time t in ns, and what is left of the entry; none before the cycles run. -/
def PortS.at (x : PortS) (t : Nat) : Option (Nat × Nat × Nat) :=
  if x.op.en && decide (x.runAt ≤ t ∧ 0 < x.op.cycle) then
    match entAt x.op.ents 0 ((t - x.runAt) % x.op.cycle) with
    | some (i, r) => some ((t - x.runAt) / x.op.cycle, i, r)
    | none => none
  else none

def GateList.gatesOf (l : GateList) (i : Nat) : Nat := match l.ents[i]? with | some e => e.gates | none => 255

/-- Gate states at PTP time t in ns: all open with EN = 0, and only the classes never gated before the cycles run
(R374, R380). -/
def PortS.gatesAt (x : PortS) (t : Nat) : Nat :=
  if x.op.en then
    match x.at t with
    | some (_, i, _) => x.op.gatesOf i
    | none => ((upTo 8).map (fun c => if x.op.gated c then 0 else 2 ^ c)).sum
  else 255

/-- Length of the run of open entries from entry i on. -/
def openRun (l : GateList) (c : Nat) : Nat → Nat → Nat
  | 0, _ => 0
  | f + 1, i =>
    match l.ents[i % l.ents.length]? with
    | some e => if bitOf e.gates c then e.interval + openRun l c f (i + 1) else 0
    | none => 0

/-- The close of class c's window that contains t, in ns of PTP time (R375); none when nothing closes it. A pending
list cuts the window at its T_change. -/
def PortS.close (x : PortS) (c t : Nat) : Option Nat :=
  let own :=
    if x.op.gated c then
      match x.at t with
      | some (_, i, r) => some (t + r + openRun x.op c x.op.ents.length (i + 1))
      | none => none
    else none
  match own, x.pend with
  | some a, some _ => some (min a x.chg)
  | none, some _ => some x.chg
  | o, none => o

/-- The test of R375 for a frame of `len` bytes of class c at PTP time t (in 2^-58 ns). -/
def PortS.fits (x : PortS) (c t len rate : Nat) : Bool :=
  bitOf (x.gatesAt (t / nsUnit)) c &&
    match x.close c (t / nsUnit) with
    | none => true
    | some e => decide (t * rate + (len + 20) * 8 * nsUnit ≤ e * nsUnit * rate)

/-- The first instant BASE + n × CYCLE, n ≥ 0, at or after t, in ns of PTP time. -/
def GateList.nextStart (l : GateList) (t : Nat) : Nat :=
  let base := l.baseSec * secNs + l.baseNs
  if t ≤ base then base else base + (t - base + l.cycle - 1) / l.cycle * l.cycle

/-! ### Fragments (R377, R416) -/

def State.minFrag (s : State) (n : Nat) : Nat := (s.cfld (aPortMac n + 4) 28 2 + 1) * 64

/-- Is the port's preemption active? -/
def PortS.preempts (x : PortS) : Bool := x.pre = 2

/-- The largest piece that a fragment started at t may carry when it must be over by `e`, of a frame with `left` bytes
to send: at least the minimum fragment, with 64 B or more to follow (log 46). -/
def State.fragFits (s : State) (n : Nat) (x : PortS) (c t left : Nat) : Option Nat :=
  let rate := s.portRate n
  match x.close c (t / nsUnit) with
  | none => none
  | some e =>
    let room := (e * nsUnit - t) * rate / (8 * nsUnit) - 24
    let b := min room (left - 64)
    if bitOf (x.gatesAt (t / nsUnit)) c ∧ s.minFrag n ≤ b + 4 ∧ 64 + b ≤ left then some b else none

/-! ### Queue numbers (R359) -/

def directBase : Nat := 0x40000
def isDirect (q : Nat) : Bool := decide (directBase ≤ q ∧ q < directBase + 4096)
def isSub (q : Nat) : Bool := decide (q < directBase)
def isMcast (q : Nat) : Bool := decide (0x80000 ≤ q ∧ q < 0x84000)

def State.groupPort (s : State) (g : Nat) : Nat := s.tabF tGroup g 0 0 9
def State.subGroup (s : State) (u : Nat) : Nat := s.tabF tSub u 0 0 12

/-- Egress port of a queue. -/
def State.queuePort (s : State) (q : Nat) : Nat :=
  if isSub q then s.groupPort (s.subGroup (q / 4)) else (q - directBase) / 8

def State.subCls (s : State) (n : Nat) : Nat := s.tabF tPort n 0 24 3

/-- The class whose gate, priority and preemption setting a queue has (R360). -/
def State.queueCls (s : State) (q : Nat) : Nat := if isSub q then s.subCls (s.queuePort q) else (q - directBase) % 8

/-- Is class c preemptable at port n, whose preemption is active? -/
def State.preemptable (s : State) (n c : Nat) : Bool := s.tabF tQueue (directBase + 8 * n + c) 0 30 1 = 1

/-- L of a descriptor: the frame with its FCS. -/
def Desc.len (d : Desc) : Nat := d.frame.length + 4

/-! ### The credit-based shaper (R372) -/

/-- One byte in the units of levels and credits. -/
def unit32 : Nat := 32000000

/-- Is a frame of queue q what `t` holds? -/
def txOf (t : Option Tx) (q : Nat) : Bool := match t with | some u => decide (u.d.queue = q) | none => false

/-- How fast the credit of class c of port n moves, per GTC count. -/
def State.creditSlope (s : State) (n c : Nat) : Int :=
  let q := directBase + 8 * n + c
  let x := s.portS n
  let idle : Int := s.tabF tQueue q 6 0 31
  if txOf x.tx q then idle - s.portRate n * 1000000
  else if txOf x.susp q || !bitOf x.gates c || mget zeroN x.rxPause c ≠ 0 || (s.queue q).fifo = [] then 0
  else idle

/-- Is the queue empty, with nothing of it in transmission? -/
def State.drained (s : State) (n q : Nat) : Bool :=
  let x := s.portS n
  decide ((s.queue q).fifo = []) &&
    !txOf x.tx q && !txOf x.susp q

/-- Bring the credits of a port's direct class queues up to now. -/
def State.settleCbs (s : State) (n : Nat) : State :=
  (upTo 8).foldl (fun s c =>
    let q := directBase + 8 * n + c
    if s.tabF tQueue q 6 31 1 = 1 then
      let x := s.queue q
      let hi : Int := s.tabW tQueue q 7 * unit32
      let v := min hi (x.credit + s.creditSlope n c * ((s.clk.gtc : Int) - x.crAt))
      let v := if s.drained n q && decide (0 < v) then 0 else v
      s.setQueue q { x with credit := v, crAt := s.clk.gtc }
    else s) s

end Sys2Proof.Machine
end

