-- ==== Sys2Proof/Machine/Egress.lean ====
section
/-! DEFINITION. Shapers (R369 to R371), the schedulers' choice (R366, R367), enqueue (R362 to R364) and what leaves a
queue (R338, R341, R345, R386). -/

namespace Sys2Proof.Machine

open Sys2Proof

/-! ### Shapers -/

/-- Kinds of scheduled node. -/
def nQueue : Nat := 0
def nSub : Nat := 1
def nGroup : Nat := 2
def nTier : Nat := 3
def nodeKey (kind i : Nat) : Nat := kind * 2 ^ 20 + i

def noLevel : Nat → Option Level := fun _ => none
def State.level (s : State) (k : Nat) : Option Level := mget noLevel s.eg.levels k
def State.setLevel (s : State) (k : Nat) (l : Option Level) : State :=
  { s with eg := { s.eg with levels := mset noLevel s.eg.levels k l } }

/-- The profile a node names: its entry's SHP. Kinds and tables have the same numbers. -/
def State.nodeShp (s : State) (kind i : Nat) : Nat := s.tabF kind i 0 16 14

/-- Fields of shaper profile k (R392). -/
def State.shpCir (s : State) (k : Nat) : Nat := s.tabW tShp k 0
def State.shpPir (s : State) (k : Nat) : Nat := s.tabW tShp k 1
def State.shpCbs (s : State) (k : Nat) : Nat := s.tabF tShp k 2 0 28
def State.shpPbs (s : State) (k : Nat) : Nat := s.tabF tShp k 3 0 28
def State.shpOvh (s : State) (k : Nat) : Int := (BitVec.ofNat 8 (s.tabF tShp k 4 16 8)).toInt
def State.shpSdu (s : State) (k : Nat) : Nat := s.tabF tShp k 4 0 14

/-- A level under profile k, risen until now. -/
def State.levelNow (s : State) (k : Nat) (l : Level) : Level :=
  let dt : Int := (s.clk.gtc : Int) - l.at_
  { c := min ((s.shpCbs k : Int) * unit32) (l.c + s.shpCir k * dt)
    p := min ((s.shpPbs k : Int) * unit32) (l.p + s.shpPir k * dt), at_ := s.clk.gtc }

/-- Both levels at their bursts. -/
def State.levelFull (s : State) (k : Nat) : Level :=
  { c := (s.shpCbs k : Int) * unit32, p := (s.shpPbs k : Int) * unit32, at_ := s.clk.gtc }

/-- Level of a node now, none where it is unshaped. -/
def State.nodeLevel (s : State) (kind i : Nat) : Option Level :=
  let k := s.nodeShp kind i
  if k = 0 then none
  else match s.level (nodeKey kind i) with
    | some l => some (s.levelNow k l)
    | none => some (s.levelFull k)

/-- The peak level lets the node pass (R369). -/
def State.peakOk (s : State) (kind i : Nat) : Bool :=
  match s.nodeLevel kind i with
  | none => true
  | some l =>
    let pir := s.shpPir (s.nodeShp kind i)
    pir ≠ 0 && (pir = 0xFFFFFFFF || decide (0 ≤ l.p))

/-- The committed phase (R366). -/
def State.committedPhase (s : State) (kind i : Nat) : Bool :=
  match s.nodeLevel kind i with
  | none => true
  | some l => decide (0 ≤ l.c)

/-- Charge a frame of length `len` to a node (R369, R370). -/
def State.chargeNode (s : State) (kind i len : Nat) : State :=
  let k := s.nodeShp kind i
  match s.nodeLevel kind i with
  | none => s
  | some l =>
    let b : Int := max 1 ((len : Int) + s.shpOvh k) * unit32
    let lo : Int := -2 * (s.shpSdu k : Int) * unit32
    s.setLevel (nodeKey kind i) (some { l with c := max lo (l.c - b), p := max lo (l.p - b) })

/-- Charge every shaper on the path of queue q. -/
def State.chargePath (s : State) (q len : Nat) : State :=
  let s := s.chargeNode nQueue q len
  if isSub q then (s.chargeNode nSub (q / 4) len).chargeNode nGroup (s.subGroup (q / 4)) len else s

/-! ### Deficit round robin (R366, R367) -/

/-- A child of a scheduler that may be served: its key, priority, weight, phase, and the packet it offers. -/
structure Child where
  id : Nat
  prio : Nat
  weight : Nat
  excess : Bool
  len : Nat
  queue : Nat
deriving DecidableEq, Repr

/-- Changes a choice makes: deficits, and turns. -/
structure Picked where
  child : Child
  deficits : List (Nat × Nat) := []
  turns : List (Nat × Nat) := []
deriving DecidableEq, Repr

def State.deficit (s : State) (i : Nat) : Nat := mget zeroN s.eg.deficit i
def State.setDeficit (s : State) (i v : Nat) : State :=
  { s with eg := { s.eg with deficit := mset zeroN s.eg.deficit i v } }
def State.turnOf (s : State) (k : Nat) : Nat := mget zeroN s.eg.turn k
def State.setTurn (s : State) (k v : Nat) : State :=
  { s with eg := { s.eg with turn := mset zeroN s.eg.turn k v } }

/-- Turns a child needs until its packet fits its deficit. -/
def State.turnsFor (s : State) (c : Child) : Nat :=
  let q := max 1 c.weight * 64
  max 1 ((c.len - s.deficit c.id + q - 1) / q)

/-- The child served first when turns go round in the order of the list, and its place. -/
def State.soonest (s : State) : List (Nat × Child) → Option (Nat × Child)
  | [] => none
  | (j, c) :: l =>
    match s.soonest l with
    | none => some (j, c)
    | some (j', d) => if s.turnsFor d < s.turnsFor c then some (j', d) else some (j, c)

/-- One scheduler's choice among the offers of its children: phase, priority, deficit round robin; turns go round in
the order of child numbers (log 47). -/
def State.drr (s : State) (sched : Nat) (l : List Picked) : Option Picked :=
  let l := if l.any (fun p => !p.child.excess) then l.filter (fun p => !p.child.excess) else l
  let prio := (l.map (fun p => p.child.prio)).foldl max 0
  let l := l.filter (fun p => decide (p.child.prio = prio))
  let key := sched * 16 + natBool (l.any fun p => p.child.excess) * 8 + prio
  let cur := s.turnOf key
  match l.find? (fun p => decide (p.child.id + 1 = cur ∧ p.child.len ≤ s.deficit p.child.id)) with
  | some p => some p
  | none =>
    let order := l.filter (fun p => decide (cur < p.child.id + 1)) ++ l.filter (fun p => decide (p.child.id + 1 ≤ cur))
    match s.soonest ((order.map (·.child)).zipIdx.map (fun e => (e.2, e.1))) with
    | none => none
    | some (j, c) =>
      match order[j]? with
      | none => none
      | some p =>
        let t := s.turnsFor c
        let add := order.zipIdx.map fun e =>
          let n := if e.2 ≤ j then t else t - 1
          (e.1.child.id, s.deficit e.1.child.id + n * (max 1 e.1.child.weight * 64))
        some { p with deficits := p.deficits ++ add, turns := p.turns ++ [(key, c.id + 1)] }

/-- Record a choice. -/
def State.setPick (s : State) (p : Picked) : State :=
  let s := p.deficits.foldl (fun s e => s.setDeficit e.1 e.2) s
  p.turns.foldl (fun s e => s.setTurn e.1 e.2) s

/-- Numbers of the subscriber queues that hold a packet. -/
def State.busySubQueues (s : State) : List Nat :=
  (s.eg.queues.filter (fun e => isSub e.1 && decide (e.2.fifo ≠ []))).map (·.1)

/-- L of a queue's head packet. -/
def Queue.headLen (x : Queue) : Nat := match x.fifo with | d :: _ => d.len | [] => 0

def State.queueChild (s : State) (q : Nat) : Picked :=
  { child := { id := nodeKey nQueue q, prio := s.tabF tQueue q 1 29 3, weight := s.tabF tQueue q 1 0 16,
               excess := !s.committedPhase nQueue q, len := (s.queue q).headLen, queue := q } }

def State.nodeChild (s : State) (kind i : Nat) (p : Picked) : Picked :=
  { p with child := { p.child with id := nodeKey kind i, prio := s.tabF kind i 1 29 3, weight := s.tabF kind i 1 0 16,
                                   excess := !s.committedPhase kind i } }

/-- What subscriber u offers. -/
def State.pickSub (s : State) (l : List Nat) (u : Nat) : Option Picked :=
  if s.tabF tSub u 0 31 1 = 1 ∧ s.peakOk nSub u then
    (s.drr (nodeKey nSub u) ((l.filter (fun q => decide (q / 4 = u) && s.peakOk nQueue q)).map s.queueChild)).map
      (s.nodeChild nSub u)
  else none

/-- What group g offers. -/
def State.pickGroup (s : State) (l : List Nat) (g : Nat) : Option Picked :=
  if s.tabF tGroup g 0 31 1 = 1 ∧ s.peakOk nGroup g then
    let us := ((l.map (· / 4)).dedup).filter (fun u => decide (s.subGroup u = g))
    (s.drr (nodeKey nGroup g) (us.filterMap (s.pickSub l))).map (s.nodeChild nGroup g)
  else none

/-- What the subscriber tier of port n offers. -/
def State.pickTier (s : State) (n : Nat) : Option Picked :=
  let l := s.busySubQueues
  let gs := ((l.map (fun q => s.subGroup (q / 4))).dedup).filter (fun g => decide (s.groupPort g = n))
  s.drr (nodeKey nTier n) (gs.filterMap (s.pickGroup l))

/-! ### The port scheduler (R367, R373, R376, R377) -/

/-- May a frame of class c start now: fits the window, or, where preemptable, up to a fragment boundary? -/
def State.mayStartTx (s : State) (n c len : Nat) : Bool :=
  let x := s.portS n
  let t := s.ptpNow
  if x.preempts && s.preemptable n c then
    !x.hold && x.susp.isNone && (x.fits c t len (s.portRate n) || (s.fragFits n x c t len).isSome)
  else x.fits c t len (s.portRate n)

/-- Does the direct class queue hold a packet that shapers, credit and pauses let go? -/
def State.directReady (s : State) (n c : Nat) : Bool :=
  let q := directBase + 8 * n + c
  decide ((s.queue q).fifo ≠ []) && mget zeroN (s.portS n).rxPause c = 0 && s.peakOk nQueue q &&
    s.committedPhase nQueue q && (s.tabF tQueue q 6 31 1 = 0 || decide (0 ≤ (s.queue q).credit))

/-- The tier's packet: the one it selected before and still offers, or a new choice (R376). -/
def State.tierOffer (s : State) (n : Nat) : Option Picked :=
  match (s.portS n).tier with
  | some q => if (s.queue q).fifo = [] then s.pickTier n else some (s.queueChild q)
  | none => s.pickTier n

/-- What class c of port n could send now. -/
def State.pickClass (s : State) (n c : Nat) : Option Picked :=
  let q := directBase + 8 * n + c
  let direct := if s.directReady n c && s.mayStartTx n c (s.queue q).headLen then [s.queueChild q] else []
  let tier :=
    if s.subCls n = c ∧ mget zeroN (s.portS n).rxPause c = 0 then
      match s.tierOffer n with
      | some p => if s.mayStartTx n c p.child.len then [p] else []
      | none => []
    else []
  let eq := fun (id weight : Nat) (p : Picked) =>
    { p with child := { p.child with id := id, prio := 0, weight := weight, excess := false } }
  if s.subCls n = c then
    s.drr (2 ^ 20 * 4 + n)
      (direct.map (eq (nodeKey nQueue q) (s.tabF tQueue q 1 0 16)) ++
        tier.map (eq (nodeKey nTier n) (s.tabF tPort n 1 0 16)))
  else direct.head?

/-- The tier keeps the packet it has selected though its gate refuses it (R376). -/
def State.tierKeeps (s : State) (n : Nat) : State :=
  let x := s.portS n
  let c := s.subCls n
  match x.tier, s.pickTier n with
  | none, some p =>
    if s.mayStartTx n c p.child.len then s
    else (s.setPick p).setPortS n { x with tier := some p.child.queue }
  | _, _ => s

/-- Classes from 7 down that are express, or preemptable, at port n. -/
def State.classesOf (s : State) (n : Nat) (express : Bool) : List Nat :=
  [7, 6, 5, 4, 3, 2, 1, 0].filter fun c => ((s.portS n).preempts && s.preemptable n c) != express

/-- The port's choice among express, or among preemptable, children. -/
def State.pickPort (s : State) (n : Nat) (express : Bool) : Option Picked :=
  (s.classesOf n express).findSome? (s.pickClass n)

/-! ### Pages (R322, R344, R345) -/

/-- First DRAM address of the deep packet buffer (R29, R649). -/
def deepBase : Nat := 0x480000000

def State.page (s : State) (k : Nat) : CellSt := mget dCell s.hop.pages k
def State.setPage (s : State) (k : Nat) (x : CellSt) : State :=
  { s with hop := { s.hop with pages := mset dCell s.hop.pages k x } }

/-- The page cache takes 1 024 pages from the ring while it holds fewer than 4 096 and the ring has any (R322). Fuel:
the reads that fill an empty cache. -/
def State.pageFill (s : State) : Nat → State
  | 0 => s
  | f + 1 =>
    if runCount s.hop.pageCache < 4096 ∧ runCount s.hop.pageRing ≠ 0 then
      let (a, b) := runSplit 1024 s.hop.pageRing
      { s with hop := { s.hop with pageCache := s.hop.pageCache ++ a, pageRing := b
                                   pageHead := (s.hop.pageHead + runCount a) % 8388608 } }.pageFill f
    else s

/-- A free page for owner o, below its PAGE_CAP (R344). The cache is filled as it falls (R322). -/
def State.takePage (s : State) (o ownp : Nat) (host : Bool) : Option (Nat × State) :=
  let x := s.own o
  if x.pages < ownPageCap s.committed o then
    let s := s.pageFill 4
    match runTake s.hop.pageCache with
    | some (k, l) =>
      let y := s.page k
      let s := { s with hop := { s.hop with pageCache := l } }
      let s := (s.setOwn o { x with pages := x.pages + 1 }).pageFill 4
      some (k, s.setPage k { y with gen := (y.gen + 1) % 256, ownp := ownp, host := host, owner := o, ref := 0 })
    | none => none
  else none

/-- A freed page goes to the cache, or to the tail of the ring (R322). -/
def State.freePage (s : State) (k : Nat) : State :=
  let y := s.page k
  let x := s.own y.owner
  let s := (s.setOwn y.owner { x with pages := x.pages - 1 }).setPage k { y with ref := 0, host := false }
  if y.quar then { s with hop := { s.hop with quarPages := s.hop.quarPages + 1 } }
  else if runCount s.hop.pageCache < 8192 then
    { s with hop := { s.hop with pageCache := runPut s.hop.pageCache k } }
  else { s with hop := { s.hop with pageRing := runPut s.hop.pageRing k } }

/-- The piece of a page has been read; the last one frees the page (R345). -/
def State.pieceRead (s : State) (q k : Nat) : State :=
  let y := s.page k
  let s := s.setPage k { y with ref := y.ref - 1 }
  if y.ref ≤ 1 then
    let x := s.queue q
    let s := match x.openPage with
      | some (o, _) => if o = k then s.setQueue q { x with openPage := none } else s
      | none => s
    s.freePage k
  else s

/-! ### Leaving a queue -/

/-- Post to the timestamp queue of a partition (R429). -/
def State.tsqPost (s : State) (p : Nat) (e : TsqEntry) : State :=
  let l := mget (fun _ => ([] : List TsqEntry)) s.ptp.tsq p
  if l.length < 64 then
    let s := { s with ptp := { s.ptp with tsq := mset (fun _ => []) s.ptp.tsq p (l ++ [e]) } }
    if l = [] then s.irq p 134 else s
  else
    let a := aPtpTsq p + 16
    (s.bump (aPtpTsqOvf p) 1).setRegN a (s.regN a ||| 2 ^ 31)

/-- A copy's reference, or its pages, are released (R338, R345). -/
def State.letGo (s : State) (d : Desc) : State :=
  if d.pages ≠ [] then d.pages.foldl (fun s k => s.pieceRead d.queue k) s
  else if d.hostBufs ≠ [] then s
  else s.release d.cell d.gen

/-- A transmit descriptor's frame has been read (R349, R473): its DONE may be written back. -/
def State.hostRead_ (s : State) (d : Desc) : State :=
  match d.hostTx with
  | some e => { s with host := { s.host with txDone := s.host.txDone ++ [e] } }
  | none => s

/-- A copy is dropped instead of sent: a two-step request answers DROPPED (R429). -/
def State.dropCopy (s : State) (d : Desc) (port : Nat) : State :=
  let s := (s.letGo d).hostRead_ d
  match d.twoStep with
  | some id => s.tsqPost d.part { id := id, port := port, dropped := true }
  | none => s

/-! ### Enqueue (R362) -/

/-- Does a number name a queue entry? -/
def validQueue (q : Nat) : Bool := isSub q || isDirect q

/-- Owner of a queue (R361). -/
def State.ownsQueue (s : State) (p q : Nat) : Bool :=
  if isSub q then s.owns p .sub (q / 4) else s.portOwner (s.queuePort q) = p

/-- The step of R362 that fails, by its counter. -/
def State.enqueueFails (s : State) (d : Desc) (q : Nat) : Option Nat :=
  let n := s.queuePort q
  let depth := (s.queue q).depth
  let limit := fun (w : Nat) => s.tabF tQueue q w 0 20 * 4096
  if validQueue q = false ∨ s.tabF tQueue q 0 31 1 = 0 then some 0
  else if !s.ownsQueue d.part q then some 1
  else if s.tabF tQueue q 0 0 14 < d.len ∨ (isSub q ∧ s.tabF tPort n 0 0 14 < d.len) then some 2
  else if d.colour = 0 then (if limit 2 < depth + d.len then some 3 else none)
  else if d.colour = 1 then (if limit 3 < depth + d.len then some 4 else none)
  else if limit 4 < depth + d.len then some 5 else none

/-- Enqueue a descriptor at queue q (R362); it holds one reference. An isolated Tailrace drops it (R564). -/
def State.enqueue (s : State) (d : Desc) (q : Nat) : State :=
  let t := if validQueue q then s.queuePort q / 32 else d.tail
  if s.top.isolated.contains (2, t) then s.dropCopy { d with queue := q } (s.queuePort q % 512)
  else match s.enqueueFails d q with
  | some i => (s.bump (aQshCnt t i) 1).dropCopy { d with queue := q } (s.queuePort q % 512)
  | none =>
    let n := s.queuePort q
    let s := s.settleCbs n
    let x := s.queue q
    let spill := s.tabF tQueue q 5 0 20
    let deep := x.fifo.any (fun e => e.toDram) || (decide (spill ≠ 0) && decide (spill * 4096 ≤ x.depth))
    let e := { d with queue := q, at_ := s.islGtc (89 + t), toDram := deep, cut := x.fifo = [] && !deep }
    let s := s.setQueue q { x with fifo := x.fifo ++ [e], depth := x.depth + d.len }
    if deep then s.bump (aQshCnt t 6) 1 else s

/-- One more reference for a copy; host buffers carry no reference counting (R349). -/
def State.copyRef (s : State) (d : Desc) : Option State := if d.hostBufs = [] then s.refInc d.cell else some s

/-- One copy of a group (R363): a reference of its own, then R362. -/
def State.copyTo (s : State) (d : Desc) (q : Nat) : State :=
  match s.copyRef d with
  | none => s.bump (aHopCnt 5) 1
  | some s1 =>
    let joins := (s1.enqueueFails d q).isNone && !s1.top.isolated.contains (2, s1.queuePort q / 32)
    let s2 := s1.enqueue d q
    if joins then s2.bump (aQshCnt (s.queuePort q / 32) 7) 1 else s2

/-- Replicate to multicast group g (R363, R364, R394), and release the reference the descriptor held. -/
def State.replicate (s : State) (d : Desc) (g : Nat) : State :=
  let w := s.tabW tMcg g 0
  let s :=
    if bitOf w 31 = false then s.bump (aQshCnt d.tail 0) 1
    else if !s.owns d.part .mcg g then s.bump (aQshCnt d.tail 1) 1
    else
      (upTo (bitsOf w 16 6 + 1)).foldl (fun s i =>
        let m := s.tabW tMcm (bitsOf w 0 16 + i) 0
        let q := bitsOf m 0 20
        if bitOf m 31 = false ∨ (bitOf m 30 ∧ some (s.queuePort q) = d.ingress) then s else s.copyTo d q) s
  (s.letGo d).hostRead_ d

end Sys2Proof.Machine
end

