-- ==== Sys2Proof/Machine/Tailrace.lean ====
section
/-! DEFINITION. The Tailraces: enqueue and replication, spill, port selection, the end of a transmission, gates and
the sampler (R343 to R346, R359 to R387). -/

namespace Sys2Proof.Machine

open Sys2Proof

/-! ### Enqueue and replication -/

/-- TAILRACE_ENQUEUE (R362): the next descriptor of the race's descriptor switch, unless it names a group. A
Tailrace in a block reset leaves it in the switch (R497). -/
def execTailraceEnqueue (race : RaceId) (s : State) : Host.Outcome State Fault Refusal :=
  let x := s.race race.val
  match x.switch with
  | [] => .next s
  | d :: l =>
    let t := if validQueue d.queue then s.queuePort d.queue / 32 else d.tail
    let s1 := s.setRace race.val { x with switch := l }
    if !s.runs || d.mirror || isMcast d.queue then .next s
    else if s.blockOff 2 t && !s.top.isolated.contains (2, t) then .next s
    else .next (s1.enqueue d d.queue)

/-- Group of a descriptor: of its multicast queue, or of its mirror session (R363, R364). -/
def Desc.group (d : Desc) : Option Nat :=
  if d.mirror then (if 1 ≤ d.queue ∧ d.queue ≤ 16384 then some (d.queue - 1) else none)
  else if isMcast d.queue then some (d.queue - 0x80000) else none

/-- MULTICAST_REPLICATE (R363, R364): the first race whose next descriptor names a group or a session. A session above
16 384 is an invalid queue. -/
def execMulticastReplicate (s : State) : Host.Outcome State Fault Refusal :=
  let heads := (upTo 16).findSome? fun r =>
    match (s.race r).switch with
    | d :: l => if d.mirror || isMcast d.queue then some (r, d, l) else none
    | [] => none
  match heads with
  | none => .next s
  | some (r, d, l) =>
    if s.runs then
      let s := s.setRace r { s.race r with switch := l }
      match d.group with
      | some g => .next (s.replicate d g)
      | none => .next ((s.bump (aQshCnt d.tail 0) 1).letGo d)
    else .next s

/-! ### What a queue loses and what a Tailrace reads -/

/-- A child that has become empty loses its deficit (R366). -/
def State.emptied (s : State) (q : Nat) : State :=
  if (s.queue q).fifo ≠ [] then s
  else
    let s := s.setDeficit (nodeKey nQueue q) 0
    if isSub q then
      let u := q / 4
      let g := s.subGroup u
      let n := s.groupPort g
      let l := s.busySubQueues
      let s := if l.any (fun e => decide (e / 4 = u)) then s else s.setDeficit (nodeKey nSub u) 0
      let s := if l.any (fun e => decide (s.subGroup (e / 4) = g)) then s else s.setDeficit (nodeKey nGroup g) 0
      if l.any (fun e => decide (s.queuePort e = n)) then s else s.setDeficit (nodeKey nTier n) 0
    else s

/-- Take a waiting descriptor out of its queue: the credits are settled first (R372), a child that becomes empty loses
its deficit (R366), and what was selected because of it is selected no more (R376). -/
def State.unqueue (s : State) (q : Nat) (d : Desc) : State :=
  let n := s.queuePort q
  let s := s.settleCbs n
  let x := s.queue q
  let y := s.portS n
  let mine := fun (o : Option Nat) => if o = some q ∧ x.fifo.head? = some d then none else o
  ((s.setQueue q { x with fifo := x.fifo.erase d, depth := x.depth - d.len }).emptied q).setPortS n
    { y with tier := mine y.tier, sel := mine y.sel }

/-- Ownership at the first cell read, or the first host buffer (R341, R351). -/
def State.firstReadOk (s : State) (d : Desc) : Bool :=
  if d.pages ≠ [] then true
  else
    match d.hostBufs with
    | (h, _) :: _ =>
      let y := if bitOf h 31 then s.page (h % 2 ^ 23) else s.cell (h % 2 ^ 23)
      decide (y.ownp = d.part)
    | [] =>
      let y := s.cell d.cell
      decide (y.gen = d.gen ∧ y.ownp = d.part)

/-- Ownership of everything the frame is read from. -/
def State.allReadsOk (s : State) (d : Desc) : Bool :=
  if d.pages ≠ [] then true
  else if d.hostBufs ≠ [] then
    d.hostBufs.all fun e =>
      let y := if bitOf e.1 31 then s.page (e.1 % 2 ^ 23) else s.cell (e.1 % 2 ^ 23)
      decide (y.ownp = d.part)
  else
    s.firstReadOk d && (s.chain d.cell).all fun c => decide ((s.cell c).ownp = d.part)

/-- An ownership mismatch at a read (R341): a safety event with reaction A, and for host buffers a count (R351). -/
def State.ownFault (s : State) (n : Nat) (d : Desc) : State :=
  if d.hostBufs = [] then (s.safety (srcTailrace (n / 32)) 0x0231 (n + d.part * 65536) 9).reacted 1
  else s.bump (aHopHostFault d.part) 1

/-- The frame of a copy that reads host buffers: bytes the manual leaves open where one has been freed and granted
again (R351, R484 case 3). -/
def State.hostFrame (s : State) (d : Desc) : Desc × State :=
  let stale := d.hostBufs.any fun e =>
    let y := if bitOf e.1 31 then s.page (e.1 % 2 ^ 23) else s.cell (e.1 % 2 ^ 23)
    decide (y.gen ≠ e.2)
  if stale then
    let n := d.frame.length
    let f := (upTo n).map fun i => (Config.freeWord (s.clk.free + i)).truncate 8
    ({ d with frame := f }, { s with clk := { s.clk with free := s.clk.free + n } })
  else (d, s)

/-! ### Spill (R344, R345) -/

/-- Write `bytes` into pages of queue q; the pages of the pieces with their places, and whether every page was granted.
Fuel: 2 a page. -/
def State.spillPieces (s : State) (q owner part : Nat) : Nat → List Byte → List (Nat × Nat × Nat) →
    List (Nat × Nat × Nat) × Bool × State
  | 0, _, ps => (ps, false, s)
  | f + 1, bytes, ps =>
    if bytes = [] then (ps, true, s)
    else
      let x := s.queue q
      match x.openPage with
      | some (k, used) =>
        let take := bytes.take (4096 - used)
        let y := s.page k
        let s := (s.setPage k { y with ref := y.ref + 1 })
        let s := { s with mems := { s.mems with dram := setBytes s.mems.dram (deepBase + k * 4096 + used) take } }
        let next := roundUp64 (used + take.length)
        let s := s.setQueue q { s.queue q with openPage := if next < 4096 then some (k, next) else none }
        s.spillPieces q owner part f (bytes.drop take.length) (ps ++ [(k, used, take.length)])
      | none =>
        match s.takePage owner part false with
        | some (k, s) => (s.setQueue q { s.queue q with openPage := some (k, 0) }).spillPieces q owner part f bytes ps
        | none => (ps, false, s)

/-- The bytes of a frame as they are stored, with its FCS (R319). -/
def stored (f : List Byte) : List Byte := f ++ leBytes 4 (crc32Std f).toNat

/-- The frame that the pages of a spilled packet hold (R345). -/
def State.pageFrame (s : State) (d : Desc) : List Byte :=
  ((d.pages.zip d.spans).flatMap fun e => getBytes s.mems.dram (deepBase + e.1 * 4096 + e.2.1) e.2.2).take d.frame.length

/-- The end-to-end CRC-32C over what lies beyond the header window (R20, R345). -/
def endToEnd (f : List Byte) : Word32 := crc32cStd (f.drop 192)

/-- SPILL_WRITE (R344 to R346): the first packet of the queue that waits to be written goes to pages once all of it
has arrived, and its cells are released. A packet whose cells are no longer its own is not written (R341, R351), and a
refused page drops it. -/
def execSpillWrite (queue : Nat) (s : State) : Host.Outcome State Fault Refusal :=
  let x := s.queue queue
  match x.fifo.find? (fun d => d.toDram && decide (d.pages = [])) with
  | none => .next s
  | some d =>
    let p := s.pkt d.pkt
    let n := s.queuePort queue
    if !s.runs || s.blockOff 2 (n / 32) || (d.hostBufs = [] && !p.bad && !(p.ended && p.want = 0)) then .next s
    else if d.hostBufs = [] && p.bad then .next ((s.unqueue queue d).dropCopy d n)
    else if !s.allReadsOk d then .next (((s.unqueue queue d).ownFault n d).dropCopy d n)
    else
      let owner := if d.hostBufs = [] then p.owner else 4096 + d.part
      let (e, s) := s.hostFrame d
      let (ps, ok, s1) := s.spillPieces queue owner d.part 12 (stored e.frame) []
      if ok then
        let y := s1.queue queue
        let d' := { e with pages := ps.map (·.1), spans := ps.map (·.2), hostBufs := [] }
        let s2 := s1.setQueue queue { y with fifo := y.fifo.map (fun f => if f = d then d' else f) }
        .next ((s2.letGo d).hostRead_ d)
      else
        let s2 := ps.foldl (fun s k => s.pieceRead queue k.1) s1
        .next (((s2.unqueue queue d).bump (aHopCnt 4) 1).dropCopy d n)

/-! ### Starting a frame -/

/-- Replace bytes of a list from an offset on. -/
def setAt (l : List Byte) (off : Nat) (bs : List Byte) : List Byte := l.take off ++ bs ++ l.drop (off + bs.length)

/-- The one-step writes of a frame whose transmit stamp is GTC g (R427). -/
def State.stampFrame (s : State) (d : Desc) (g : Nat) : List Byte :=
  let (secs, ns) := ptpSplit (s.ptpTotal g)
  d.stamps.foldl (fun f e =>
    let (res, off) := e
    if res then
      let cf := (BitVec.ofNat 64 (beNat ((f.drop off).take 8))).toInt
      let r : Int := ((g : Int) - d.stamp) * (2 ^ 56 + s.ptp.rate) / 2 ^ 42
      let v := min (cf + r) (2 ^ 63 - 1)
      setAt f off (beBytes 8 (v % 2 ^ 64).toNat)
    else setAt f off (beBytes 6 secs ++ beBytes 4 ns)) d.frame

/-- Deficits fall by L for a packet sent (R366). -/
def State.payDeficits (s : State) (q len : Nat) : State :=
  let pay := fun (s : State) (k : Nat) => s.setDeficit k (s.deficit k - len)
  let s := pay s (nodeKey nQueue q)
  if isSub q then
    pay (pay (pay s (nodeKey nSub (q / 4))) (nodeKey nGroup (s.subGroup (q / 4)))) (nodeKey nTier (s.queuePort q))
  else s

/-- Bin of a delay (R386). -/
def histBin (shift d : Nat) : Nat := if d < 2 ^ shift then 0 else min 15 (Nat.log2 (d / 2 ^ shift) + 1)

/-- Statistics of a dequeue with delay d in ns (R386). -/
def QStat.add (t : QStat) (shift d : Nat) : QStat :=
  let v := min d 0xFFFFFFFF
  let b := histBin shift d
  { t with dmin := min t.dmin v, dmax := max t.dmax v, deq := (t.deq + 1) % 2 ^ 48,
           bins := mset zeroN t.bins b ((mget zeroN t.bins b + 1) % 2 ^ 32) }

/-- The fragment that carries `left` more bytes of a preemptable frame from now on, where its close ends it. -/
def State.pieceOf (s : State) (n c left : Nat) : Option Nat :=
  let x := s.portS n
  if x.preempts && s.preemptable n c && !x.fits c s.ptpNow left (s.portRate n) then s.fragFits n x c s.ptpNow left
  else none

/-- When a fragment, or the rest of a frame, that starts now leaves the line free. -/
def State.overAt (s : State) (n : Nat) (piece : Option Nat) (left : Nat) : Nat :=
  s.clk.gtc + lineTime (match piece with | some b => b + 4 | none => left) (s.portRate n)

/-! ### The gate-time checker (R381) -/

/-- An event of the gate-time checker for a frame of queue q. -/
def State.gateEvent (s : State) (n q : Nat) : State :=
  ((s.bump (aGateCnt (n / 32) 3) 1).safety (srcTailrace (n / 32)) 0x0230 (n + s.queueCls q * 65536) 8).dueC 0x0230 2 (n / 32)

/-- Is GTC `u` more than 1.25 ns after the close of a frame that started after the last step? -/
def State.lateAt (s : State) (t : Tx) (u : Nat) : Bool :=
  t.close ≠ 0 && decide (s.ptp.lastStep ≤ t.start) && decide (t.close + 5 * nsUnit / 4 < s.ptpTotal u)

/-- Did the frame, or its last fragment, end more than 1.25 ns after its close? -/
def State.lateEnd (s : State) (t : Tx) : Bool := s.lateAt t t.until_

/-- A frame of queue q starts now: with its gate closed that is an event. -/
def State.startChecked (s : State) (n q : Nat) : State :=
  if bitOf ((s.portS n).gatesAt s.ptpNs) (s.queueCls q) then s else s.gateEvent n q

/-- An end-to-end CRC-32C failure in Tailrace t (R560): noted in the last 1 ms, and reaction D above CRC_LIMIT. -/
def State.crcNoted (s : State) (t : Nat) : State :=
  let now := s.clk.gtc
  let l := (mget (fun _ => ([] : List Nat)) s.saf.crc t).filter (fun g => decide (now < g + 4000000)) ++ [now]
  let s := { s with saf := { s.saf with crc := mset (fun _ => []) s.saf.crc t l } }
  let lim := s.fld aSafCfg 0 8
  if lim ≠ 0 ∧ lim < l.length then (s.safety (srcTailrace t) 0x0211 t 0).dueD 0x0211 else s

/-- An end-to-end CRC-32C failure at port n: event 0x0210 and reaction A. -/
def State.crcFailed (s : State) (n : Nat) : State :=
  ((s.safety (srcTailrace (n / 32)) 0x0210 (n / 32 + n * 65536) 0).reacted 1).crcNoted (n / 32)

/-- Take the head of queue q and start it at port n (R20, R338, R341, R345, R409, R653). A spilled packet is read from
its pages, and one whose end-to-end CRC fails ends with an inverted FCS. -/
def State.startTx (s : State) (n q : Nat) : State :=
  let x := s.queue q
  match x.fifo with
  | [] => s.setPortS n { s.portS n with sel := none }
  | d :: l =>
    let s := ((s.setQueue q { x with fifo := l, depth := x.depth - d.len }).emptied q).occur (89 + n / 32) 0x010 1
    let y := { s.portS n with sel := none, tier := if isSub q then none else (s.portS n).tier }
    let s := s.setPortS n y
    let p := s.pkt d.pkt
    if !s.passing n then (s.bump (aPortCnt n 15) 1).dropCopy d n
    else if d.pages = [] && d.hostBufs = [] && p.bad then s.dropCopy d n
    else if !s.firstReadOk d then (s.ownFault n d).dropCopy d n
    else
      let (e, s) := s.hostFrame d
      let d := if e.pages = [] then e else { e with frame := s.pageFrame e }
      let crcBad := decide (endToEnd d.frame ≠ endToEnd e.frame)
      let c := s.queueCls q
      let g := s.txStamp n s.clk.gtc
      let (secs, ns) := ptpSplit (s.ptpTotal g)
      let piece := s.pieceOf n c d.len
      let t : Tx :=
        { d := d, frame := s.stampFrame d g, len := d.len, express := !(y.preempts && s.preemptable n c),
          start := s.clk.gtc, from_ := s.clk.gtc, until_ := s.overAt n piece d.len, stampS := secs, stampNs := ns,
          close := (match y.close c s.ptpNs with | some e => e * nsUnit | none => 0), piece := piece, crcBad := crcBad }
      let delay := (s.islGtc (89 + n / 32) - d.at_) / 4
      let z := s.queue q
      let s := s.setQueue q { z with stat := if s.clk.frozen then z.stat else z.stat.add (s.cfld aQshHistCfg 0 4) delay }
      let s := ((s.chargePath q d.len).payDeficits q d.len).emptied q
      let s := if crcBad then s.crcFailed n else s
      (s.setPortS n { y with tx := some t, busy := t.until_ }).startChecked n q

/-- All of the packet is written, or what is left of it is elsewhere (R19, R345). -/
def State.whole (s : State) (d : Desc) : Bool :=
  let p := s.pkt d.pkt
  d.pages ≠ [] || d.hostBufs ≠ [] || (p.ended && p.want = 0) || p.bad || (s.cell d.cell).gen ≠ d.gen

/-- Start the selected packet, or keep it selected until its last cell is written, or its spill is (R19, R345). The tier
offers no other in its place (R376). -/
def State.trySend (s : State) (n q : Nat) : State :=
  match (s.queue q).fifo with
  | [] => s.setPortS n { s.portS n with sel := none }
  | d :: _ =>
    let fast := d.cut && match d.ingress with | some i => decide (s.portRate n ≤ s.portRate i) | none => false
    if (!d.toDram || d.pages ≠ []) && (s.whole d || fast) then s.startTx n q
    else s.setPortS n { s.portS n with sel := some q, tier := if isSub q then some q else (s.portS n).tier }

/-! ### Preemption (R377, R416) -/

/-- End the fragment in transmission after `b` bytes of it: the rest waits. The checker sees its end (R381). -/
def State.suspend (s : State) (n b : Nat) (t : Tx) : State :=
  let x := s.portS n
  let t' := { t with sent := t.sent + b, piece := none }
  let u := t.from_ + lineTime (b + 4) (s.portRate n)
  let s := (s.setPortS n { x with tx := none, susp := some t', busy := u }).bump (aPortCnt n 14) 1
  if s.lateAt t u then s.gateEvent n t.d.queue else s

/-- Preempt the preemptable frame in transmission at the next fragment boundary, if one is left (PREEMPTION, R377). -/
def State.preempt (s : State) (n : Nat) (t : Tx) : State :=
  let gone := (s.clk.gtc - t.from_) * s.portRate n / 32 - 8
  let b := max gone (s.minFrag n - 4)
  if 64 + b ≤ t.len - t.sent then s.suspend n b t else s

/-- The rest of a preempted frame goes on (R377); at once where preemption is no longer active (R417). -/
def State.resume (s : State) (n : Nat) (t : Tx) : State :=
  let x := s.portS n
  let c := s.queueCls t.d.queue
  let left := t.len - t.sent
  let may := !x.preempts || !x.hold && (x.fits c s.ptpNow left (s.portRate n) || (s.fragFits n x c s.ptpNow left).isSome)
  if may then
    let piece := s.pieceOf n c left
    let u := s.overAt n piece left
    s.setPortS n { x with tx := some { t with from_ := s.clk.gtc, until_ := u, piece := piece,
                                              close := (match x.close c s.ptpNs with | some e => e * nsUnit | none => 0) },
                          susp := none, busy := u }
  else s

/-- Pause frames due at a port, one time a class (R414). -/
def State.pausesDue (s : State) (n : Nat) : List (Nat × Nat) :=
  let l := s.hop.pauseTx.filter (fun e => decide (e.1 = n))
  (upTo 8).filterMap fun c =>
    match (l.filter (fun e => decide (e.2.1 = c))).getLast? with
    | some e => some (c, e.2.2)
    | none => none

/-- A frame has left the device (log 45). -/
def State.sendOut (s : State) (e : Sent) : State := { s with eg := { s.eg with sent := s.eg.sent ++ [e] } }

/-- Send one IEEE 802.1Qbb frame for the classes due (R414). -/
def State.sendPause (s : State) (n : Nat) (l : List (Nat × Nat)) : State :=
  let x := s.portS n
  let tp := l.foldl (fun m e => mset zeroN m e.1 (if e.2 = 0 then 0 else s.clk.gtc + 1)) x.txPause
  let s := s.setPortS n { x with txPause := tp, busy := s.clk.gtc + lineTime 64 (s.portRate n) }
  let s := { s with hop := { s.hop with pauseTx := s.hop.pauseTx.filter (fun e => decide (e.1 ≠ n)) } }
  (s.sendOut { port := n, frame := [], ok := true, pfc := l }).bump (aPortCnt n 10) 1

/-- The port chooses anew: express children, then the rest of a preempted frame, then preemptable ones (R377). -/
def State.choose (s : State) (n : Nat) : State :=
  match if (s.portS n).preempts || (s.portS n).susp.isNone then s.pickPort n true else none with
  | some p => (s.setPick p).trySend n p.child.queue
  | none =>
    match (s.portS n).susp with
    | some t => s.resume n t
    | none =>
      match s.pickPort n false with
      | some p => (s.setPick p).trySend n p.child.queue
      | none => s

/-- A Tailrace that selects nothing more still ends a frame it has begun: the rest of a preempted one (R410, R497,
R501). -/
def State.finish (s : State) (n : Nat) : State :=
  let x := s.portS n
  match x.tx, x.susp with
  | none, some t =>
    if (s.runs || s.top.mode = .restart) && decide (x.busy ≤ s.clk.gtc) then (s.settleCbs n).resume n t else s
  | _, _ => s

/-- May the packet selected before still start: its window and its class's pause allow it (R375, R415), and no express
child waits for a preemptable one (R377)? -/
def State.selGoes (s : State) (n q : Nat) : Bool :=
  let c := s.queueCls q
  s.mayStartTx n c (s.queue q).headLen && mget zeroN (s.portS n).rxPause c = 0 &&
    !((s.portS n).preempts && s.preemptable n c && (s.pickPort n true).isSome)

/-- PORT_SELECT (R19, R366 to R377, R409, R414). -/
def execPortSelect (port : PortId) (s : State) : Host.Outcome State Fault Refusal :=
  let n := port.val
  if !s.tailRuns n then .next (s.finish n)
  else
    let s := (s.settleCbs n).tierKeeps n
    let x := s.portS n
    let due := if s.passing n then s.pausesDue n else []
    match x.tx with
    | some t =>
      if x.preempts && !t.express && (due ≠ [] || (s.pickPort n true).isSome) then .next (s.preempt n t) else .next s
    | none =>
      if s.clk.gtc < x.busy then .next s
      else if due ≠ [] then .next (s.sendPause n due)
      else
        match x.sel with
        | some q =>
          if s.selGoes n q then .next (s.trySend n q)
          else .next ((s.setPortS n { x with sel := none }).choose n)
        | none => .next (s.choose n)

/-! ### The end of a transmission -/

/-- FRAME_TX_DONE (R20, R338, R341, R372, R381, R427, R429): the line time is over and the frame's last byte is
there. -/
def execFrameTxDone (port : PortId) (s : State) : Host.Outcome State Fault Refusal :=
  let n := port.val
  let x := s.portS n
  match x.tx with
  | none => .next s
  | some t =>
    let d := t.d
    let p := s.pkt d.pkt
    if t.piece.isSome || decide (s.clk.gtc < t.until_) || !s.whole d then .next s
    else
      let own := s.allReadsOk d
      let bad := t.crcBad || !own || (d.pages = [] && d.hostBufs = [] && p.bad)
      let s := (s.settleCbs n).setPortS n { x with tx := none }
      let s := (s.bump (aPortCnt n 8) 1).bump (aPortCnt n 9) t.len
      let s := if bad then s.bump (aPortCnt n 11) 1 else s
      let s := if t.sent = 0 then s else s.bump (aPortCnt n 14) 1
      let s := if own then s else s.ownFault n d
      let s := if s.lateEnd t then s.gateEvent n d.queue else s
      let s := s.sendOut { port := n, frame := t.frame, ok := !bad }
      let s := match d.twoStep with
        | some id => s.tsqPost d.part { id := id, port := n, secs := t.stampS, ns := t.stampNs }
        | none => s
      .next ((s.letGo d).hostRead_ d)

/-! ### Gates -/

/-- A close ends the fragment whose end was set for it (GATE_CLOSE_CUT, R377). -/
def State.closeCut (s : State) (n : Nat) : State :=
  let x := s.portS n
  match x.tx with
  | some t =>
    match t.piece with
    | some b => if bitOf x.gates (s.queueCls t.d.queue) && !(t.close ≠ 0 && decide (t.close ≤ s.ptpNow)) then s
        else (s.suspend n b t).bump (aGateCnt (n / 32) 0) 1
    | none => s
  | none => s

/-- Set-And-Hold-MAC and Set-And-Release-MAC of the entry just entered (R377). -/
def State.holdOp (s : State) (n op : Nat) : State :=
  let x := s.portS n
  if x.preempts && op = 1 then
    let s := s.setPortS n { x with hold := true }
    match x.tx with
    | some t => if t.express then s else s.preempt n t
    | none => s
  else if x.preempts && op = 2 then s.setPortS n { x with hold := false }
  else s

/-- Openings of class c in one cycle of a list. -/
def GateList.openings (l : GateList) (c : Nat) : Nat :=
  let g := l.ents.map (fun e => bitOf e.gates c)
  ((g.zip (g.getLast?.toList ++ g)).filter (fun e => e.1 && !e.2)).length

/-- Is a frame longer than fits the whole window of class c that opens with entry i (R379)? -/
def State.tooLong (s : State) (n c i len : Nat) : Bool :=
  let x := s.portS n
  let rate := s.portRate n
  let w := openRun x.op c x.op.ents.length i
  let frag := x.preempts && s.preemptable n c &&
    decide (s.minFrag n ≤ min (w * rate / 8 - 24) (len - 64) + 4 ∧ 64 < len)
  decide (w * rate < (len + 20) * 8) && !frag

/-- Note that a head packet fits, or does not fit, the window that opens; at the last opening of a full cycle in a row
that it does not fit, drop it (GATE_OVERSIZE_DROP, R379). -/
def State.oversizeAt (s : State) (n c i slot q : Nat) : State :=
  let x := s.portS n
  match (s.queue q).fifo with
  | [] => s
  | d :: _ =>
    let mark := d.pkt * 2 ^ 20 + q
    let put := fun (s : State) (v : Option (Nat × Nat)) =>
      s.setPortS n { s.portS n with oversize := mset (fun _ => none) (s.portS n).oversize slot v }
    if s.tooLong n c i d.len then
      let k := match mget (fun _ => none) x.oversize slot with
        | some (m, k) => if m = mark then k + 1 else 1
        | none => 1
      if x.op.openings c ≤ k then
        let s := (put s none).unqueue q d
        (s.bump (aGateOversize n) 1).dropCopy d n
      else put s (some (mark, k))
    else put s none

/-- The openings of an entry: heads that fit no window (R379). -/
def State.oversizes (s : State) (n i old : Nat) : State :=
  (upTo 8).foldl (fun s c =>
    if bitOf (s.portS n).gates c && !bitOf old c then
      let s := s.oversizeAt n c i c (directBase + 8 * n + c)
      if s.subCls n = c then
        match (s.portS n).tier with
        | some q => s.oversizeAt n c i 8 q
        | none => s
      else s
    else s) s

/-- Entry i of cycle k of the operating list comes into force. The first one after a step or a warm reset is the restart
that R380 counts. -/
def State.enterGate (s : State) (n k i : Nat) : State :=
  let s := s.settleCbs n
  let x := s.portS n
  let old := x.gates
  let s := if x.restart then s.bump (aGateCnt (n / 32) 2) 1 else s
  let s := s.setPortS n { x with cyc := k, ent := i, gates := x.op.gatesOf i, started := true, restart := false }
  let op := match x.op.ents[i]? with | some e => e.op | none => 0
  (((s.closeCut n).holdOp n op).oversizes n i old)

/-- Start of entry i within a cycle. -/
def GateList.offset (l : GateList) (i : Nat) : Nat := ((l.ents.take i).map (·.interval)).sum

/-- GATE_ENTRY_ADVANCE (R374, R377, R379): the next entry comes into force once its time has come. -/
def execGateEntryAdvance (port : PortId) (s : State) : Host.Outcome State Fault Refusal :=
  let n := port.val
  let x := s.portS n
  if x.op.en && s.runs then
    let (k, i) :=
      if !x.started then (0, 0)
      else if x.ent + 1 < x.op.ents.length then (x.cyc, x.ent + 1) else (x.cyc + 1, 0)
    if x.runAt + k * x.op.cycle + x.op.offset i ≤ s.ptpNs then .next (s.enterGate n k i) else .next s
  else .next s

/-- GATE_LIST_SWITCH (R378): at T_change the pending list becomes operating, at entry 0. -/
def execGateListSwitch (port : PortId) (s : State) : Host.Outcome State Fault Refusal :=
  let n := port.val
  let x := s.portS n
  match x.pend with
  | none => .next s
  | some l =>
    if s.runs && decide (x.chg ≤ s.ptpNs) then
      let s := (s.settleCbs n).setPortS n
        { x with op := l, pend := none, runAt := x.chg, lastChg := x.chg, cyc := 0, ent := 0, started := false, restart := false
                 oversize := [] }
      let s := s.bump (aGateCnt (n / 32) 1) 1
      if l.en then .next (s.enterGate n 0 0)
      else
        let s := s.closeCut n
        .next (s.setPortS n { s.portS n with gates := 255, hold := false })
    else .next s

/-- A frame in transmission completes, with no fragment set to end (R380). -/
def State.unpiece (s : State) (n : Nat) : State :=
  let x := s.portS n
  match x.tx with
  | some t => if t.piece.isNone then s
    else
      let u := t.from_ + lineTime (t.len - t.sent) (s.portRate n)
      s.setPortS n { x with tx := some { t with piece := none, until_ := u }, busy := u }
  | none => s

/-- Restart the operating lists after a PTP step or a warm reset (R380). -/
def State.gatesRestart (s : State) : State :=
  s.eg.ports.foldl (fun s e =>
    let n := e.1
    if (s.portS n).op.en then
      let s := (s.settleCbs n).unpiece n
      let x := s.portS n
      let shut := ((upTo 8).map (fun c => if x.op.gated c then 0 else 2 ^ c)).sum
      s.setPortS n { x with runAt := x.op.nextStart s.ptpNs, cyc := 0, ent := 0, gates := shut, started := false
                            restart := true, oversize := [] }
    else s) s

/-! ### The sampler -/

/-- SAMPLER_VISIT (R387): depth and head age of a queue, in the slots of its number. -/
def execSamplerVisit (queue : Nat) (s : State) : Host.Outcome State Fault Refusal :=
  let slot := s.clk.gtc / 4
  let mine := if isSub queue then decide (slot % 262144 = queue)
    else isDirect queue && decide (slot % 64 = 0 ∧ slot / 64 % 4096 = queue - directBase)
  if s.runs && mine then
    let x := s.queue queue
    let age := match x.fifo with
      | d :: _ => (s.islGtc (89 + s.queuePort queue / 32) - d.at_) / 4
      | [] => 0
    .next (s.setQueue queue
      { x with stat := { x.stat with sdepth := min x.depth 0xFFFFFFFF, ssoj := min age 0xFFFFFFFF } })
  else .next s

end Sys2Proof.Machine
end

