-- ==== Sys2Proof/Machine/Ports.lean ====
section
/-! DEFINITION. The ports: reception (R411, R412), pauses (R414, R415), links and preemption (R407 to R409, R416,
R417), modules (R418). -/

namespace Sys2Proof.Machine

open Sys2Proof

/-! ### Ingress class (R412) -/

def be16 (l : List Byte) (i : Nat) : Nat := (l.getD i 0).toNat * 256 + (l.getD (i + 1) 0).toNat

def isVlan (t : Nat) : Bool := t = 0x8100 || t = 0x88A8

/-- PCP of the outer VLAN tag. -/
def pcpOf (l : List Byte) : Option Nat := if isVlan (be16 l 12) then some ((l.getD 14 0).toNat / 32) else none

/-- DSCP of an IP header behind at most two VLAN tags. -/
def dscpAt (l : List Byte) : Nat → Nat → Option Nat
  | f, i =>
    let t := be16 l i
    let b0 := (l.getD (i + 2) 0).toNat
    let b1 := (l.getD (i + 3) 0).toNat
    if t = 0x0800 ∧ i + 4 ≤ l.length then some (b1 / 4)
    else if t = 0x86DD ∧ i + 4 ≤ l.length then some (b0 % 16 * 4 + b1 / 64)
    else
      match f with
      | 0 => none
      | g + 1 => if isVlan t then dscpAt l g (i + 4) else none

/-- The ingress class of a frame at port n. -/
def State.ingressClass (s : State) (n : Nat) (l : List Byte) : Nat :=
  let a := aPortClsmap n
  let def_ := s.cfld a 0 3
  let byPcp := match pcpOf l with
    | some v => s.cfld (a + 4) (3 * v) 3
    | none => def_
  match s.cfld a 3 2 with
  | 0 => def_
  | 1 => byPcp
  | _ =>
    match dscpAt l 2 12 with
    | some d => bitsOf (((upTo 6).map (fun w => s.com (a + 8 + 4 * w) * 2 ^ (32 * w))).sum) (3 * d) 3
    | none => byPcp

/-! ### Reception -/

def srcSluiceOf (n : Nat) : Nat := srcSluice (n / 32)

/-- Cells that `a` bytes of a frame of P bytes take, its FCS included at the end, no more than MAXFRM (R319, R411). -/
def cellsFor (a p maxFrm : Nat) : Nat :=
  let b := min maxFrm (if p ≤ a then p + 4 else max 1 a)
  (b + 255) / 256

/-- Ask for the cells that the bytes arrived need (R332), unless one has been refused (R333). -/
def State.askCells (s : State) (n k : Nat) : State :=
  let p := s.pkt k
  let need := cellsFor p.arrived p.frame.length (s.maxFrm n)
  let have_ := p.cells.length + p.want
  let r := n / 32
  let q : CellReq := { key := ekey (s.islGtc (islRace r)) (srcSluiceOf n), owner := p.owner, who := .frame k }
  if have_ < need ∧ !p.bad ∧ !s.hop.nocell.contains k then
    let s := s.setPkt k { p with want := p.want + (need - have_) }
    { s with hop := { s.hop with reqs := s.hop.reqs ++ List.replicate (need - have_) q } }
  else s

/-- The Sluice takes a frame (R161, R199, R324, R332): stamped with its port's domain and its current version, or
dropped and counted. -/
def State.sluiceTake (s : State) (n : Nat) (bytes : List Byte) : Option Nat × State :=
  let r := n / 32
  let pd := s.com (aClsPortDom n)
  let dom := pd % 16
  match if bitOf pd 4 then s.curSlot dom else none with
  | none => (none, s.bump (aClsCnt r 3) 1)
  | some v =>
    let cls := s.ingressClass n bytes
    let stamp := s.rxStamp n s.clk.gtc
    let (ps, pn) := ptpSplit (s.ptpTotal stamp)
    let (k, s) := s.addPkt
      { race := r, port := n, dom := dom, slot := v, frame := bytes, pcs := s.clk.gtc, stamp := stamp, ptpS := ps,
        ptpNs := pn, owner := 8 * n + cls, cls := 8 * n + cls }
    let s := s.verIn dom v
    (some k, s.setRace r { s.race r with sluice := (s.race r).sluice ++ [k] })

/-- The frame's start reaches the MAC: MAC control frames and fragments never reach the Sluice (R411), which refuses
every frame while its race, or the Hopper (R353, R358), is reset. -/
def State.rxBegin (s : State) (n : Nat) (bytes : List Byte) : RxFrame × State :=
  let none_ : RxFrame := { bytes := bytes, pkt := none }
  if bytes.length + 4 < 24 ∨ be16 bytes 12 = 0x8808 ∨ s.blockOff 0 (n / 32) then (none_, s)
  else if s.blkOn 4 0 then (none_, s.bump (aHopCnt 2) 1)
  else
    let (k, s) := s.sluiceTake n bytes
    ({ bytes := bytes, pkt := k }, s)

/-- Is packet k still the one this reception made? -/
def State.rxLive (s : State) (k : Nat) : Bool := (s.pkt k).frame ≠ []

/-- A frame fails a check at its end: dropped at the Sluice, or marked bad (R411, R653). -/
def State.rxFail (s : State) (f : RxFrame) : State :=
  match f.pkt with
  | none => s
  | some k =>
    if !s.rxLive k then s
    else if s.admitted k then
      s.setPkt k { s.pkt k with bad := true, ended := true, arrived := (s.pkt k).frame.length }
    else s.sluiceDrop k

/-- A received IEEE 802.1Qbb frame pauses, or releases, classes (R415). -/
def State.pfcIn (s : State) (n mask : Nat) (time : Nat → Nat) : State :=
  let s := (s.settleCbs n).bump (aPortCnt n 5) 1
  let x := s.portS n
  let on := mask &&& s.cfld (aPortMac n) 0 8
  let m := (upTo 8).foldl (fun m c =>
    if bitOf on c then
      mset zeroN m c (if time c = 0 then 0 else s.clk.gtc + (time c * 2048 + s.portRate n - 1) / s.portRate n)
    else m) x.rxPause
  s.setPortS n { x with rxPause := m }

/-- A MAC control frame that has passed its checks (R411, R415). -/
def State.macControl (s : State) (n : Nat) (l : List Byte) : State :=
  if be16 l 14 = 0x0101 then s.pfcIn n (be16 l 16 % 256) (fun c => be16 l (18 + 2 * c))
  else s.bump (aPortCnt n 6) 1

/-- The end of a frame: the four checks in order (R411). A frame that passes them counts once its cells are granted,
unless its packet has been marked bad (R653). -/
def State.rxEnd (s : State) (n : Nat) (f : RxFrame) (fcsOk : Bool) : State :=
  let len := f.bytes.length + 4
  if len < 24 then s.bump (aPortCnt n 4) 1
  else if s.maxFrm n < len then (s.bump (aPortCnt n 3) 1).rxFail f
  else if !fcsOk then (s.bump (aPortCnt n 2) 1).rxFail f
  else if be16 f.bytes 12 = 0x8808 then s.macControl n f.bytes
  else
    let count := fun (s : State) => (s.bump (aPortCnt n 0) 1).bump (aPortCnt n 1) len
    match f.pkt with
    | none => count s
    | some k =>
      let p := s.pkt k
      if !s.rxLive k then count s
      else
        let s := (s.setPkt k { p with arrived := p.frame.length, ended := true }).askCells n k
        if p.bad ∨ (s.pkt k).want ≠ 0 then s else count s

/-- Codewords that the FEC decoder of port n has corrected, or could not correct, as a frame came in: what the line
brings is free (R419, R446; log 107). -/
def State.codewords (s : State) (n : Nat) : State :=
  if s.portType n = 11 ∧ s.cfld (aPortCfg n) 23 1 = 0 then s
  else
    let v := s.freeVal.toNat
    (s.useFree.bump (aPortCnt n 12) (bitsOf v 0 16)).bump (aPortCnt n 13) (bitsOf v 16 16)

/-- The end of a frame in reception never came: a preempted one has failed its reassembly (R416; log 48), another has no
right FCS. -/
def State.rxLost (s : State) (n : Nat) (preempt : Bool) : Option RxFrame → State
  | some f => if preempt then (s.bump (aPortCnt n 7) 1).rxFail f else s.rxEnd n f false
  | none => s

/-- FRAME_RECEIVE (R199, R411, R412): a whole frame, its start (`bytes` is the whole frame without FCS, of which none
has arrived), or its end. A preempted frame is in reception beside an express one. -/
def execFrameReceive (port : PortId) (part : RxPart) (bytes : List Byte) (fcsOk preempt : Bool) (s : State) :
    Host.Outcome State Fault Refusal :=
  let n := port.val
  let x := s.portS n
  let cur := if preempt then x.rxP else x.rxE
  let put := fun (s : State) (f : Option RxFrame) =>
    let x := s.portS n
    s.setPortS n (if preempt then { x with rxP := f } else { x with rxE := f })
  -- a frame under way ends as long as the link is up
  if !(s.passing n || (part = .finish && x.link)) then .next s
  else
    match part with
    | .whole =>
      let (f, s) := (s.rxLost n preempt cur).rxBegin n bytes
      .next (((put s none).codewords n).rxEnd n f fcsOk)
    | .begin =>
      let (f, s) := (s.rxLost n preempt cur).rxBegin n bytes
      let s := put s (some f)
      .next (match f.pkt with | some k => s.askCells n k | none => s)
    | .finish =>
      match cur with
      | some f => .next (((put s none).codewords n).rxEnd n f fcsOk)
      | none => .next s

/-- HEADER_BYTES_ARRIVE (R47, R182): `k` more bytes of the frame in reception, the express one first. -/
def execHeaderBytesArrive (port : PortId) (k : Nat) (s : State) : Host.Outcome State Fault Refusal :=
  let n := port.val
  let x := s.portS n
  match if x.rxE.isSome then x.rxE else x.rxP with
  | some f =>
    match f.pkt with
    | some q =>
      let p := s.pkt q
      if s.rxLive q && !p.ended then
        .next ((s.setPkt q { p with arrived := min (p.arrived + k) p.frame.length }).askCells n q)
      else .next s
    | none => .next s
  | none => .next s

/-! ### Pauses -/

/-- PFC_FRAME_RECEIVED (R415): a received IEEE 802.1Qbb frame, by its class mask and its times. -/
def execPfcFrameReceived (port : PortId) (mask : Byte) (times : BitVec 128) (s : State) :
    Host.Outcome State Fault Refusal :=
  if s.passing port.val then .next (s.pfcIn port.val mask.toNat (fun c => bitsOf times.toNat (16 * c) 16)) else .next s

/-- PFC_PAUSE_EXPIRE (R415): a received pause time has run out. -/
def execPfcPauseExpire (port : PortId) (prio : Fin 8) (s : State) : Host.Outcome State Fault Refusal :=
  let n := port.val
  let e := mget zeroN (s.portS n).rxPause prio.val
  if e ≠ 0 ∧ e ≤ s.clk.gtc then
    let s := s.settleCbs n
    let x := s.portS n
    .next (s.setPortS n { x with rxPause := mset zeroN x.rxPause prio.val 0 })
  else .next s

/-- PFC_REFRESH (R414): half of QUANTA has passed since the port's last pause frame for the class. -/
def execPfcRefresh (port : PortId) (prio : Fin 8) (s : State) : Host.Outcome State Fault Refusal :=
  let n := port.val
  let c := prio.val
  let last := mget zeroN (s.portS n).txPause c
  let quanta := s.cfld (aPortMac n) 16 16
  if (s.own (8 * n + c)).pause && decide (last ≠ 0 ∧ (last - 1) * s.portRate n + quanta * 1024 ≤ s.clk.gtc * s.portRate n)
      && !s.hop.pauseTx.any (fun e => e.1 = n && e.2.1 = c) then
    .next { s with hop := { s.hop with pauseTx := s.hop.pauseTx ++ [(n, c, quanta)] } }
  else .next s

/-! ### Links and preemption -/

/-- Preemption stops being active: a frame under way completes as one frame (R417). -/
def State.preemptOff (s : State) (n pre : Nat) : State :=
  let x := s.portS n
  let tx := x.tx.map fun t =>
    { t with piece := none, until_ := max t.until_ (t.from_ + lineTime (t.len - t.sent) (s.portRate n)) }
  s.setPortS n { x with pre := pre, tx := tx, hold := false }

/-- Start the verify procedure, or go active without it, on a link that is up (R416). -/
def State.verifyStart (s : State) (n : Nat) : State :=
  let w := s.com (aPortMac n + 4)
  let x := s.portS n
  if bitOf w 31 = false then s
  else if bitOf w 30 then s.setPortS n { x with pre := 2 }
  else s.setPortS n { x with pre := 1, tries := 1, verAt := s.clk.gtc }

/-- A link goes down: counted, its receptions fail, preemption ends (R409, R417). What PORT_STATUS shows of the PCS
then the manual leaves open. -/
def State.linkFall (s : State) (n : Nat) : State :=
  let x := s.portS n
  if x.link then
    let s := (s.rxLost n false x.rxE).rxLost n true x.rxP
    let v : BitVec 4 := s.freeVal.truncate 4
    let s := s.useFree.preemptOff n 0
    s.setPortS n { s.portS n with link := false, linkDn := min 255 (x.linkDn + 1), pcs := v, rxE := none, rxP := none }
  else s

/-- LINK_UP (R407, R409, R416). -/
def execLinkUp (port : PortId) (s : State) : Host.Outcome State Fault Refusal :=
  let n := port.val
  let x := s.portS n
  if s.portOn n && !x.link then
    let feclk : BitVec 4 := if s.portType n = 11 ∧ s.cfld (aPortCfg n) 23 1 = 0 then 8 else 12
    .next ((s.setPortS n { x with link := true, pcs := feclk, pre := 0 }).verifyStart n)
  else .next s

/-- LINK_DOWN (R409, R417). -/
def execLinkDown (port : PortId) (s : State) : Host.Outcome State Fault Refusal := .next (s.linkFall port.val)

/-- VERIFY_RESPONSE (R416). -/
def execVerifyResponse (port : PortId) (s : State) : Host.Outcome State Fault Refusal :=
  let x := s.portS port.val
  if x.link && x.pre = 1 then .next (s.setPortS port.val { x with pre := 2 }) else .next s

/-- VERIFY_TIMEOUT (R416): at most 3 attempts. -/
def execVerifyTimeout (port : PortId) (s : State) : Host.Outcome State Fault Refusal :=
  let n := port.val
  let x := s.portS n
  if x.link && x.pre = 1 && decide (x.verAt + s.cfld (aPortMac n + 4) 0 8 * 4000000 ≤ s.clk.gtc) then
    if x.tries < 3 then .next (s.setPortS n { x with tries := x.tries + 1, verAt := s.clk.gtc })
    else .next (s.setPortS n { x with pre := 3 })
  else .next s

/-- What the transmitters of a port carry (R409, R564). -/
inductive LineOut where
  | electricalIdle
  | remoteFault
  | frames
deriving DecidableEq, Repr

/-- The line of port n: frames while it passes them, and to the end of one in transmission; remote fault while an
enabled port's link is down; electrical idle in every mode but SERVICE and DEGRADED, with EN = 0, and when isolated.
-/
def State.lineOut (s : State) (n : Nat) : LineOut :=
  let off := s.top.isolated.any fun e => e == (3, n / 8) || e == (0, n / 32) || e == (2, n / 32)
  if !s.serves || off then .electricalIdle
  else if s.portOn n then (if (s.portS n).link then .frames else .remoteFault)
  else if (s.portS n).tx.isSome then .frames else .electricalIdle

/-! ### Modules (R418, R445) -/

def dModS : Nat → ModS := fun _ => {}
def State.modS (s : State) (k : Nat) : ModS := mget dModS s.eg.mods k
def State.setModS (s : State) (k : Nat) (x : ModS) : State :=
  { s with eg := { s.eg with mods := mset dModS s.eg.mods k x } }

/-- Owner of an octet's management set: of the port that starts on its first lane, else partition 0. -/
def State.modOwner (s : State) (k : Nat) : Nat := if s.portType (8 * k) = 0 then 0 else s.portOwner (8 * k)

/-- A master that may write a partition's registers: the partition itself, and the Eosta port, whose session is
checked before it writes (R629). -/
def masterIs (m : Master) (p : Nat) : Bool :=
  match m with
  | .host q => decide (q.val = p)
  | .eosta => true

/-- A refused access of a host is recorded (R458). -/
def State.denyMaster (s : State) (m : Master) (kind a : Nat) : State :=
  match m with
  | .host p => s.deny p.val kind a
  | .eosta => s

/-- Does an access of the master reach the block? A host's does while its link is up, outside a partition reset and
outside HALT (R482, R635); the debug port's outside COLD and COMMIT (R624). -/
def State.reaches (s : State) (m : Master) : Bool :=
  match m with
  | .host p => s.linkUp p.val && !s.inPreset p.val && s.top.mode != .halt
  | .eosta => s.top.mode != .cold && s.top.mode != .commit

/-- Does a write of the master act? The debug port writes registers at USER and above (R629). -/
def State.mayAct (s : State) (m : Master) : Bool :=
  s.reaches m && (match m with | .host _ => true | .eosta => decide (1 ≤ s.dbg.level))

/-- A write that may act acts; another does nothing. -/
def State.atBus (s : State) (m : Master) (f : State → State) : Host.Outcome State Fault Refusal :=
  if s.mayAct m then .next (f s) else .next s

/-- A write of PORT_MOD with GO = 1: it starts a transaction unless one runs. -/
def State.modGo (s : State) (m : Master) (k : Nat) (wr : Nat) : State :=
  if !masterIs m (s.modOwner k) then s.denyMaster m 2 (aPortMod k)
  else if (s.modS k).run then s
  else (s.setFld (aPortMod k) 30 1 wr).setModS k { s.modS k with run := true, since := s.clk.gtc }

/-- MOD_READ (R418). -/
def execModRead (m : Master) (octet : Fin 64) (s : State) : Host.Outcome State Fault Refusal :=
  s.atBus m fun s => s.modGo m octet.val 0

/-- MOD_WRITE (R418). -/
def execModWrite (m : Master) (octet : Fin 64) (s : State) : Host.Outcome State Fault Refusal :=
  s.atBus m fun s => s.modGo m octet.val 1

/-- MOD_TRANSACTION_DONE (R418): TIMEOUT past 50 ms, NOTFOUND where DEV does not acknowledge, else OK, a read with its
bytes, byte 0 lowest. -/
def execModTransactionDone (octet : Fin 64) (ok : Bool) (data : Word64) (s : State) :
    Host.Outcome State Fault Refusal :=
  let k := octet.val
  let x := s.modS k
  if x.run then
    let st := if x.since + 200000000 < s.clk.gtc then stTimeout else if ok then stOk else stNotFound
    let a := aPortMod k
    let len := s.fld a 27 3 + 1
    let s := if st = stOk ∧ s.fld a 30 1 = 0 then
        let old := s.regN (a + 8) + s.regN (a + 12) * 2 ^ 32
        let v := putBits old 0 (8 * len) data.toNat
        (s.setRegN (a + 8) (v % 2 ^ 32)).setRegN (a + 12) (v / 2 ^ 32)
      else s
    .next (s.setModS k { x with run := false, status := st })
  else .next s

/-- MODULE_PRESENCE_CHANGE (R418). -/
def execModulePresenceChange (octet : Fin 64) (present : Bool) (s : State) : Host.Outcome State Fault Refusal :=
  let k := octet.val
  let x := s.modS k
  if x.prs = present then .next s
  else .next ((s.setModS k { x with prs := present }).irq (s.modOwner k) 133)

/-- MODULE_INT (R418): `level` is the level of MOD_INT_N. -/
def execModuleInt (octet : Fin 64) (level : Bool) (s : State) : Host.Outcome State Fault Refusal :=
  let k := octet.val
  let x := s.modS k
  let s1 := s.setModS k { x with int := !level }
  if !level && !x.int then .next (s1.irq (s.modOwner k) 133) else .next s1

end Sys2Proof.Machine
end

