-- ==== Sys2Proof/Machine/Commits.lean ====
section
/-! DEFINITION. Staged registers and COMMIT (R476 to R478): the checks of each block, and the commits of gate lists and
ports (R378, R410). -/

namespace Sys2Proof.Machine

open Sys2Proof

/-! ### Staging and committed sets -/

/-- The RWS bits of the word at an address. -/
def rwsMask (a : Nat) : Nat :=
  match findReg a with
  | some (r, _, w) => match r.words[w]? with | some x => x.rws | none => 0
  | none => 0

/-- A word of the staging copy. -/
def State.stg (s : State) (a : Nat) : Nat := s.regN a
def State.sfld (s : State) (a lo w : Nat) : Nat := bitsOf (s.stg a) lo w

/-- Make the staged words that `pred` picks the committed ones. -/
def State.commitIf (s : State) (pred : Nat → Bool) : State :=
  let keep := s.committed.filter (fun e => !pred e.1)
  { s with committed := (s.regs.filter (fun e => pred e.1)).foldl (fun m e => mset regDefault m e.1 e.2) keep }

/-- Copy the committed words that `pred` picks into the staging copy. -/
def State.discardIf (s : State) (pred : Nat → Bool) : State :=
  let keep := s.regs.filter (fun e => !pred e.1)
  { s with regs := (s.committed.filter (fun e => pred e.1)).foldl (fun m e => mset regDefault m e.1 e.2) keep }

/-- Block of an address: its slot of 1 MiB (R645). -/
def blockOf (a : Nat) : Nat := a / 0x100000

/-- The staged words that the COMMIT register at `a` commits: of its block, or of partition p's gate list, or of the
ports partition p owns. -/
def State.setOf (s : State) (a c : Nat) : Bool :=
  rwsMask c ≠ 0 && blockOf c = blockOf a &&
    (if blockOf a = 0x00A then decide (c / 0x1000 % 16 = (a - 0x00A04000) / 8)
     else if blockOf a = 0x00B then
       let n := if c < 0x00B01000 then c % 0x800 / 4 else if c < 0x00B04000 then c % 0x1000 / 8 else c % 0x4000 / 32
       decide (s.portOwner n = (a - 0x00B00800) / 8)
     else true)

/-- A commit ends (R477): SEQ rises, STATUS is OK or the code given. -/
def State.commitEnd (s : State) (a status : Nat) : State :=
  s.setRegN (a + 4) ((s.fld (a + 4) 8 16 + 1) % 65536 * 256 + status)

/-! ### Ranges -/

/-- Do two nonempty ranges overlap? -/
def rangesMeet (a b : Nat × Nat) : Bool := a.1 ≤ a.2 && b.1 ≤ b.2 && a.1 ≤ b.2 && b.1 ≤ a.2

/-- Do the ranges of two partitions overlap? -/
def anyMeet (f : Nat → Nat × Nat) : Bool :=
  [(0, 1), (0, 2), (0, 3), (1, 2), (1, 3), (2, 3)].any fun e => rangesMeet (f e.1) (f e.2)

def inRange (r : Nat × Nat) (i : Nat) : Bool := r.1 ≤ i && i ≤ r.2

/-! ### Versions' resources (R179, R191, R202) -/

/-- Nodes that a node's transitions and default name. -/
def State.nodeNexts (s : State) (i : Nat) : List Nat :=
  let w15 := s.node i 15
  if bitOf w15 30 then []
  else
    let ts := if bitOf (s.node i 2) 8 then
        (upTo 8).filterMap fun j =>
          let w := s.node i (3 + j)
          if bitOf w 15 then some (bitsOf w 0 10) else none
      else []
    if bitOf w15 29 then ts ++ [bitsOf w15 0 10] else ts

/-- The nodes reached: `todo` still to visit, `seen` visited. -/
def State.reachFrom (s : State) : Nat → List Nat → List Nat → List Nat
  | 0, _, seen => seen
  | _, [], seen => seen
  | f + 1, i :: todo, seen =>
    if seen.contains i then s.reachFrom f todo seen
    else s.reachFrom f (s.nodeNexts i ++ todo) (i :: seen)

/-- Nodes of the graph of a version slot. -/
def State.graph (s : State) (d v : Nat) : List Nat := s.reachFrom 10240 [bitsOf (s.regN (aClsVd d v)) 0 10] []

def State.live (s : State) (d v : Nat) : Bool := (s.vslot d v).state ≠ 0

/-- The live slots. -/
def State.liveSlots (s : State) : List (Nat × Nat) :=
  (s.cls.vers.filter (fun e => decide (e.2.state ≠ 0))).map (fun e => (e.1 / 4, e.1 % 4))

/-- CLS_PART_RANGE of partition p in the word store `m`: 0 nodes, 1 classes, 2 TCAM, 3 LPM. -/
def clsRange (m : SMap Word32) (p k : Nat) : Nat × Nat :=
  let w := (mget regDefault m (aClsPartRange p + 4 * k)).toNat
  let n := match k with | 0 => 10 | 1 => 16 | 2 => 14 | _ => 12
  (bitsOf w 0 n, bitsOf w 16 n)

/-- Does a live version keep all its resources inside partition p's ranges of the word store `m`? -/
def State.versionFits (s : State) (m : SMap Word32) (p d v : Nat) : Bool :=
  let w1 := s.regN (aClsVd d v + 4)
  let base := bitsOf w1 16 16
  let cnt := bitsOf w1 0 13
  (s.graph d v).all (inRange (clsRange m p 0)) &&
    (cnt = 0 || (inRange (clsRange m p 1) base && inRange (clsRange m p 1) (base + cnt - 1))) &&
    s.cls.tcam.all fun e =>
      !(e.2.valid && e.2.dom = d && bitOf e.2.vmask v) || inRange (clsRange m p 2) (e.1 % 16384)

/-! ### The checks of each block -/

/-- Listed words of a register array, by index. -/
def listedIn (m : SMap Word32) (lo hi : Nat) : SMap Word32 := m.filter (fun e => decide (lo ≤ e.1 ∧ e.1 < hi))

/-- Enabled keepalive timers of race r in a word store, as (timer, first word). -/
def timersOn (m : SMap Word32) (r : Nat) : List (Nat × Nat) :=
  (listedIn m (aTskKa r 0) (aTskKa r 4095 + 8)).filterMap fun e =>
    if (e.1 - aTskKa r 0) % 8 = 0 ∧ bitOf e.2.toNat 31 then some ((e.1 - aTskKa r 0) / 8, e.2.toNat) else none

/-- R151, R168, R174. -/
def State.checkTsk (s : State) : Bool :=
  (upTo 16).all fun r =>
    let hi := s.sfld (aTskCfg r) 16 10
    let on := timersOn s.regs r
    decide (s.sfld (aTskCfg r) 0 10 < hi ∧ hi ≤ 960 ∧
      s.sfld (aTskDlyCfg r) 0 16 + s.sfld (aTskDlyCfg r) 16 16 + on.length ≤ 65536) &&
    on.all fun e => bitsOf e.2 0 16 ≠ 0

/-- R209. -/
def State.checkCls (s : State) : Bool :=
  let own := fun (d : Nat) => s.sfld aClsDomOwner (2 * d) 2
  !((upTo 4).any fun k => anyMeet (fun p => clsRange s.regs p k)) &&
    decide (((upTo 4).map (fun p => s.sfld (aClsLpmQuota p) 16 16)).sum ≤ 0x4000) &&
    decide (((upTo 4).map (fun p => s.sfld (aClsLpmQuota p) 0 16)).sum ≤ 0x2000) &&
    s.liveSlots.all (fun e => decide (own e.1 = s.domOwner e.1) && s.versionFits s.regs (own e.1) e.1 e.2) &&
    (upTo 512).all fun n =>
      let w := s.stg (aClsPortDom n)
      !bitOf w 4 || decide (own (w % 16) = s.portOwner n)

def lbRange (m : SMap Word32) (p : Nat) : Nat × Nat :=
  let w := (mget regDefault m (aMstLbRange p)).toNat
  (bitsOf w 0 10, bitsOf w 16 10)

/-- R217, R257, R313. -/
def State.checkMst (s : State) : Bool :=
  let q := fun (p : Nat) => s.sfld (aMstQuota p) 0 28
  let pq := fun (p : Nat) => s.sfld (aMstPquota p) 0 21
  let sameSeeds := (upTo 6).all fun w => s.stg (aMstSeed 0 + 4 * w) = s.com (aMstSeed 0 + 4 * w)
  decide (((upTo 4).map q).sum ≤ 2 ^ 27 ∧ ((upTo 4).map pq).sum ≤ 2 ^ 20) &&
    (upTo 4).all (fun p => decide (pq p ≤ q p)) &&
    (sameSeeds || (upTo 4).all (fun p => mget zeroN s.mst.held p = 0)) &&
    !anyMeet (lbRange s.regs) &&
    (upTo 1024).all fun n =>
      !bitOf (s.regN (aMstLbSvc n)) 31 ||
        (upTo 4).all fun p => !inRange (lbRange s.committed p) n || inRange (lbRange s.regs p) n

/-- R298. -/
def State.checkEmt (s : State) : Bool :=
  let hd := s.sfld aEmtCfg 0 11
  decide (((upTo 4).map (fun p => s.sfld (aEmtQuota p) 0 18)).sum ≤ 131072 ∧ 100 ≤ hd ∧ hd ≤ 2000) &&
    s.sfld aEmtCfg 16 8 ≠ 0

/-- Owners whose HOP_OWN words a word store lists. -/
def ownersIn (m : SMap Word32) : List Nat :=
  ((listedIn m (aHopOwn 0) (aHopOwn 4100)).map (fun e => (e.1 - aHopOwn 0) / 16)).dedup

/-- R355. -/
def State.checkHop (s : State) : Bool :=
  let r := ownReserve s.regs
  decide (r ≤ 720896 ∧ r ≤ 786432 - (s.hop.quarCells : Int) - (s.sharedSum : Int)) &&
    (ownersIn s.regs).all fun o =>
      decide (ownMin s.regs o ≤ ownCap s.regs o ∧ ownAlpha s.regs o ≠ 15 ∧ (o < 4096 ∨ ownHeadroom s.regs o = 0))

/-- Does item i of the kind stay with whoever owns it now? -/
def State.staysOwned (s : State) (k : RangeKind) (i : Nat) : Bool :=
  (upTo 4).all fun p => !inQsh s.committed p k i || inQsh s.regs p k i

/-- Does profile i, which an entry owned under `k` names, stay with the owner of the entry? -/
def State.profStays (s : State) (k : RangeKind) (i : Nat) (kp : RangeKind) (prof : Nat) : Bool :=
  prof = 0 || (upTo 4).all fun p => !inQsh s.committed p k i || inQsh s.regs p kp prof

/-- R398. -/
def State.checkQsh (s : State) : Bool :=
  let kinds : List RangeKind := [.sub, .grp, .shp, .mpr, .mtr, .mcg, .mcm]
  let entry := fun (e : Nat × Word32) =>
    let t := e.1 / 2 ^ 24
    let i := e.1 % 2 ^ 24 / 32
    let en := bitOf e.2.toNat 31
    let shp := bitsOf e.2.toNat 16 14
    if e.1 % 32 ≠ 0 then true
    else if t = tQueue ∧ isSub i then (!en || s.staysOwned .sub (i / 4)) && s.profStays .sub (i / 4) .shp shp
    else if t = tSub then (!en || s.staysOwned .sub i) && s.profStays .sub i .shp shp
    else if t = tGroup then (!en || s.staysOwned .grp i) && s.profStays .grp i .shp shp
    else if t = tMcg then
      !en || (s.staysOwned .mcg i && (upTo (bitsOf e.2.toNat 16 6 + 1)).all fun j =>
        s.staysOwned .mcm (bitsOf e.2.toNat 0 16 + j))
    else true
  let direct := fun (e : Nat × Word32) =>
    let i := e.1 % 2 ^ 24 / 32
    let shp := bitsOf e.2.toNat 16 14
    !(e.1 % 32 = 0 && e.1 / 2 ^ 24 = tQueue && isDirect i) || shp = 0 ||
      inQsh s.regs (s.portOwner (s.queuePort i)) .shp shp
  !(kinds.any fun k => anyMeet (fun p => qshRange s.regs p k)) && s.tab.all entry && s.tab.all direct &&
    s.weir.all fun e => e.2.prof = 0 || (s.staysOwned .mtr e.1 && s.profStays .mtr e.1 .mpr e.2.prof)

/-- HST_PROG_RANGE of partition p. -/
def progRange (m : SMap Word32) (p : Nat) : Nat × Nat :=
  let w := (mget regDefault m (aHstProgRange p)).toNat
  (bitsOf w 0 7, bitsOf w 16 7)

/-- R486. -/
def State.checkHst (s : State) : Bool :=
  let new := fun (n : Nat) => s.sfld (aHstPortOwn (n / 16)) (2 * (n % 16)) 2
  (upTo 512).all (fun n => decide (new n = s.portOwner n) || !(s.portEn n || bitOf (s.com (aClsPortDom n)) 4)) &&
    !anyMeet (progRange s.regs)

/-- The check of the block whose COMMIT register is at `a`. -/
def State.commitOk (s : State) (a : Nat) : Bool :=
  match blockOf a with
  | 0x003 => s.checkTsk
  | 0x005 => s.checkCls
  | 0x006 => s.checkMst
  | 0x007 => s.checkEmt
  | 0x008 => s.checkHop
  | 0x009 => s.checkQsh
  | 0x012 => s.checkHst
  | _ => false

/-- A timer that a commit disables leaves its list, with the firing that waits for its cell (R158, R200). -/
def State.timerGone (s : State) (r : Nat) (d : Delayed) : State :=
  match d.kind with
  | .timer j =>
    let s := s.withdraw (fun w => decide (w = .keepalive r j))
    match d.fired with
    | some f => if f.1 = noSlot then s else s.verOut d.firedDom f.1
    | none => s
  | _ => s

/-- Keepalive timers follow a commit of the TSK block (R158); `old` is the state before it. -/
def State.timersFollow (s old : State) : State :=
  (upTo 16).foldl (fun s r =>
    let was := (timersOn old.committed r).map (·.1)
    let on := timersOn s.committed r
    let x := s.race r
    let keeps := fun (d : Delayed) =>
      match d.kind with
      | .timer j => on.any (fun e => decide (e.1 = j))
      | _ => true
    let s := (x.dly.filter (fun d => !keeps d)).foldl (fun s d => s.timerGone r d) s
    let x := s.race r
    let keep := x.dly.filter keeps
    let fresh := on.filter (fun e => !was.contains e.1)
    fresh.foldl (fun s e =>
      let x := s.race r
      let u := bitsOf e.2 29 2
      let d : Delayed := { kind := .timer e.1, list := u, due := dlyDue u (bitsOf e.2 0 16) s.clk.gtc, seq := x.seq }
      s.setRace r { x with dly := x.dly ++ [d], seq := x.seq + 1 }) (s.setRace r { x with dly := keep })) s

/-- The owner and range fields of R451 beside the HST block: CLS_DOM_OWNER, CLS_PART_RANGE, MST_LB_RANGE, QSH_RANGE. -/
def assignWords : List Nat :=
  aClsDomOwner :: (upTo 16).map (fun i => aClsPartRange 0 + 4 * i) ++ (upTo 4).map aMstLbRange ++
    (upTo 32).map (fun i => aQshRange 0 + 4 * i)

/-- Has a commit changed an owner or a range? -/
def State.assigns (s t : State) : Bool := assignWords.any fun a => decide (s.com a ≠ t.com a)

/-- A commit of a block (R478): status and state. -/
def State.blockCommit (s : State) (a : Nat) : Nat × State :=
  if s.commitOk a then
    let t := s.commitIf (s.setOf a)
    -- new thresholds act at once on pauses of admission (R159), and on pauses of ingress classes (R329)
    let t := if blockOf a = 0x003 then (upTo 16).foldl (fun t r => t.pauses r) (t.timersFollow s) else t
    let t := if blockOf a = 0x008 then t.pauseEnds else t
    let t := if blockOf a = 0x012 || s.assigns t then t.eventAny (srcHost 0) 0x8030 else t
    (stOk, t.commitEnd a stOk)
  else (stReject, s.commitEnd a stReject)

/-! ### GATE_COMMIT (R378) -/

/-- The list staged by partition p. -/
def State.stagedList (s : State) (p : Nat) : GateList :=
  let a := aGateStgCfg p
  let n := bitsOf (s.stg a) 16 9
  { en := bitOf (s.stg a) 31, cycle := s.stg (a + 4), baseNs := s.sfld (a + 8) 0 30,
    baseSec := s.stg (a + 12) + s.sfld (a + 16) 0 16 * 2 ^ 32,
    ents := (upTo (min n 256)).map fun k =>
      { interval := s.stg (aGateStgEnt p k), gates := s.sfld (aGateStgEnt p k + 4) 0 8,
        op := s.sfld (aGateStgEnt p k + 4) 16 2 } }

/-- Check 4. -/
def GateList.wellFormed (l : GateList) (count : Nat) : Bool :=
  decide (1 ≤ count ∧ count ≤ 256 ∧ 1000 ≤ l.cycle ∧ l.cycle ≤ secNs ∧ l.baseNs < secNs ∧
    (l.ents.map (·.interval)).sum = l.cycle) && l.ents.all fun e => decide (8 ≤ e.interval ∧ e.op ≠ 3)

/-- The shortest open window of class c; none where nothing closes it. -/
def GateList.shortest (l : GateList) (c : Nat) : Option Nat :=
  let n := l.ents.length
  let starts := (upTo n).filter fun i => bitOf (l.gatesOf i) c && !bitOf (l.gatesOf ((i + n - 1) % n)) c
  ((starts.map (openRun l c n)).min?)

/-- Does a frame of `len` bytes fit every window of class c (check 5)? -/
def GateList.admits (l : GateList) (c len rate : Nat) : Bool :=
  match l.shortest c with
  | some w => decide ((len + 20) * 8 ≤ w * rate)
  | none => true

/-- Largest frame of class c at port n: its direct class queue's MAXSDU, with the tier's where it is SUBCLS. -/
def State.classSdu (s : State) (n c : Nat) : Nat :=
  let d := s.tabF tQueue (directBase + 8 * n + c) 0 0 14
  if s.subCls n = c then max d (s.tabF tPort n 0 0 14) else d

/-- Discard the pending list of a port: a frame in transmission goes by the closes of the operating list alone. -/
def State.discardList (s : State) (n : Nat) : State :=
  let x := s.portS n
  if x.pend.isNone then s
  else
    let x := { x with pend := none, chg := x.lastChg }
    match x.tx with
    | some t =>
      let c := s.queueCls t.d.queue
      let at_ := s.ptpTotal t.from_
      let left := t.len - t.sent
      let piece := if t.piece.isNone || x.fits c at_ left (s.portRate n) then none else s.fragFits n x c at_ left
      let u := t.from_ + lineTime (match piece with | some b => b + 4 | none => left) (s.portRate n)
      let close := match x.close c (at_ / nsUnit) with | some e => e * nsUnit | none => 0
      s.setPortS n { x with tx := some { t with piece := piece, until_ := u, close := close }, busy := u }
    | none => s.setPortS n x

/-- The commit of partition p's staged gate list. -/
def State.gateCommit (s : State) (p : Nat) : Nat × State :=
  let a := aGateCommit p
  let cfg := s.stg (aGateStgCfg p)
  let n := bitsOf cfg 0 9
  let x := s.portS n
  let l := s.stagedList p
  let ok := fun (t : State) => (stOk, (t.commitIf (s.setOf a)).commitEnd a stOk)
  if s.portOwner n ≠ p then (stDenied, s.commitEnd a stDenied)
  else if bitOf cfg 30 then ok (s.discardList n)
  else if x.pend.isSome then (stReject, s.commitEnd a stReject)
  else if l.en ∧ (l.wellFormed (bitsOf cfg 16 9) = false ∨
      (upTo 8).any (fun c => !l.admits c (s.classSdu n c) (s.portRate n))) then (stReject, s.commitEnd a stReject)
  else
    let t := (s.ptpNow + 10000 * nsUnit + nsUnit - 1) / nsUnit
    ok (s.setPortS n { x with pend := some l, chg := if l.en then l.nextStart t else t })

/-! ### PORT_COMMIT (R410, R412) -/

/-- Is the lane map of port n a permutation of its own lanes? -/
def State.laneMapOk (s : State) (n lanes : Nat) : Bool :=
  let l := (upTo lanes).map fun i => bitsOf (s.regN (aPortLanemap n)) (3 * i) 3
  (upTo lanes).all fun i => l.contains (n % 8 + i)

/-- The checks on one port of the set. -/
def State.portOk (s : State) (n : Nat) : Bool :=
  let new := s.stg (aPortCfg n)
  let old := s.com (aPortCfg n)
  let t := bitsOf new 24 4
  let w1 := s.stg (aPortMac n + 4)
  (t = 0 || typeStarts t (n % 8)) && (bitsOf new 23 1 = 0 || t = 11) &&
    !(bitOf new 31 && bitOf old 31 && (bitsOf new 23 5 != bitsOf old 23 5 || bitsOf new 30 1 != bitsOf old 30 1)) &&
    decide (64 ≤ bitsOf new 0 14 ∧ bitsOf new 0 14 ≤ 10240) &&
    (!bitOf new 31 || s.laneMapOk n (typeLanes t)) &&
    (bitsOf w1 28 2 = 0 || bitOf w1 31) && decide (1 ≤ bitsOf w1 0 8 ∧ bitsOf w1 0 8 ≤ 128) &&
    s.sfld (aPortClsmap n) 3 2 ≠ 3

/-- Lanes of every port, those of p as staged, the others as committed; no lane twice. -/
def State.lanesOk (s : State) (p : Nat) : Bool :=
  let typ := fun (n : Nat) => if s.portOwner n = p then s.sfld (aPortCfg n) 24 4 else s.portType n
  (upTo 512).all fun n =>
    (upTo (typeLanes (typ n))).all fun i => i = 0 || typ (n + i) = 0

/-- What follows for one port from a new set; `old` is the state before (R410, R416, R417). -/
def State.portFollows (s old : State) (n : Nat) : State :=
  let s := if old.portEn n && !s.portEn n then s.linkFall n else s
  let was := old.cfld (aPortMac n + 4) 31 1
  let is := s.cfld (aPortMac n + 4) 31 1
  if was = 1 ∧ is = 0 then s.preemptOff n 0
  else if was = 0 ∧ is = 1 ∧ (s.portS n).link then s.verifyStart n else s

/-- The commit of the ports that partition p owns. -/
def State.portCommit (s : State) (p : Nat) : Nat × State :=
  let a := aPortCommit p
  let mine := (upTo 512).filter fun n => decide (s.portOwner n = p)
  if mine.all s.portOk && s.lanesOk p then
    let t := s.commitIf (s.setOf a)
    (stOk, (mine.foldl (fun t n => t.portFollows s n) t).commitEnd a stOk)
  else (stReject, s.commitEnd a stReject)

/-! ### The commands -/

/-- The partition that writes the COMMIT register at `a`, where one lies there. -/
def commitWriter (a : Nat) : Option Nat :=
  if a = aTskCommit ∨ a = aClsCommit ∨ a = aMstCommit ∨ a = aEmtCommit ∨ a = aHopCommit ∨ a = aQshCommit ∨
      a = aHstCommit then some 0
  else if aGateCommit 0 ≤ a ∧ a < aGateCommit 4 ∧ a % 8 = 0 then some ((a - aGateCommit 0) / 8)
  else if aPortCommit 0 ≤ a ∧ a < aPortCommit 4 ∧ a % 8 = 0 then some ((a - aPortCommit 0) / 8)
  else none

/-- GO of the COMMIT register at `a`: status and state. -/
def State.commitGo (s : State) (a p : Nat) : Nat × State :=
  if blockOf a = 0x00A then s.gateCommit p else if blockOf a = 0x00B then s.portCommit p else s.blockCommit a

/-- A write of a COMMIT register; GO wins over DISCARD where both are set (R477). -/
def State.commitWrite (s : State) (m : Master) (a : Nat) (v : Nat) : State :=
  match commitWriter a with
  | none => s
  | some p =>
    if !masterIs m p then s.denyMaster m 2 a
    else if bitOf v 31 then (s.commitGo a p).2
    else if bitOf v 30 then s.discardIf (s.setOf a)
    else s

/-- STAGED_COMMIT_GO (R478). -/
def execStagedCommitGo (m : Master) (addr : Nat) (s : State) : Host.Outcome State Fault Refusal :=
  s.atBus m fun s => s.commitWrite m addr (2 ^ 31)

/-- STAGED_COMMIT_DISCARD (R477). -/
def execStagedCommitDiscard (m : Master) (addr : Nat) (s : State) : Host.Outcome State Fault Refusal :=
  s.atBus m fun s => s.commitWrite m addr (2 ^ 30)

/-- GATE_COMMIT (R378). -/
def execGateCommit (m : Master) (part : Part) (value : Word32) (s : State) : Host.Outcome State Fault Refusal :=
  s.atBus m fun s => s.commitWrite m (aGateCommit part.val) value.toNat

/-- PORT_COMMIT (R410). -/
def execPortCommit (m : Master) (part : Part) (value : Word32) (s : State) : Host.Outcome State Fault Refusal :=
  s.atBus m fun s => s.commitWrite m (aPortCommit part.val) value.toNat

end Sys2Proof.Machine
end

