-- ==== Sys2Proof/Machine/TableOps.lean ====
section
/-! DEFINITION. The tables at work: home slices apply operations (R225 to R247), exact-match and LPM lookups (R195,
R271, R291), the Weir (R382). -/

namespace Sys2Proof.Machine

open Sys2Proof

/-! ### Home slices -/

/-- Slices and tables serve lookups and host commands wherever races run, and in SAFE (R466, R513, R566). -/
def State.tablesRun (s : State) : Bool := s.runs || s.top.mode = .safe

/-- Does the operation name its record by key? -/
def FlowOp.byKey (o : FlowOp) : Bool :=
  match o.kind with
  | .get _ => true
  | .ins _ => true
  | .search b _ => !b
  | .hostDel b => !b
  | _ => false

/-- Does the operation act on record i? -/
def State.names (s : State) (o : FlowOp) (i : Nat) : Bool :=
  if o.byKey then s.recLive i && s.recOwn i = o.part && s.recKey i = o.view.take 6 else o.index.toNat = i

/-- Do two operations name the same record or key (R225)? -/
def State.sameTarget (s : State) (a b : FlowOp) : Bool :=
  if a.byKey then
    if b.byKey then a.part = b.part && a.view.take 6 = b.view.take 6 else s.names a b.index.toNat
  else s.names b a.index.toNat

/-- The thread, with its task, that issued an operation. -/
def OpSrc.sender : OpSrc → Option (Nat × Nat)
  | .thread n task _ _ => some (n, task)
  | .posted n task => some (n, task)
  | _ => none

/-- Does operation `o` wait behind `j`: for the record or key of `j` (R225), or for a posted add of its own thread
(R71)? -/
def State.behind (s : State) (j o : FlowOp) : Bool :=
  s.sameTarget j o || (match j.src with
    | .posted n task => o.src.sender = some (n, task)
    | _ => false)

/-- The first operation of a list that waits behind none of those before it. -/
def State.firstFree (s : State) : List FlowOp → List FlowOp → Option FlowOp
  | _, [] => none
  | before, o :: l => if before.any (fun j => s.behind j o) then s.firstFree (before ++ [o]) l else some o

/-- The oldest operation that waits behind none: those that wait for the journal stand before the queue. -/
def State.nextOp (s : State) (sl : Nat) : Option FlowOp := s.firstFree (s.slice sl).jwait (s.slice sl).queue

/-- Take the first operation equal to `o` out of a list. -/
def takeOut (o : FlowOp) (l : List FlowOp) : List FlowOp := l.erase o

/-- Merge a posted add into the next posted add of its run (R226), if the run goes on. -/
def State.mergeInto (s : State) (o : FlowOp) : List FlowOp → Option (List FlowOp)
  | [] => none
  | x :: xs =>
    match o.kind, o.src, x.kind, x.src with
    | .add m w v k, .posted _ _, .add m' w' v' k', .posted _ _ =>
      if o.index = x.index ∧ o.part = x.part ∧ m = m' ∧ (m = 1 ∨ w = w') then
        let sum := if m = 2 then BitVec.ofNat 64 (min (v.toNat + v'.toNat) (2 ^ 64 - 1)) else v + v'
        some ({ x with kind := .add m w' sum (k + k') } :: xs)
      else if s.names x o.index.toNat then none
      else (s.mergeInto o xs).map (x :: ·)
    | _, .posted _ _, _, _ =>
      if s.names x o.index.toNat then none else (s.mergeInto o xs).map (x :: ·)
    | _, _, _, _ => none

/-- The status of a host flow command (R280). -/
def flowStatus (code : Nat) : Nat :=
  match code with
  | 1 => stOk
  | 2 => stOk
  | 3 => stNotFound
  | 4 => stFull
  | 5 => stReject
  | 7 => stFull
  | 8 => stDenied
  | _ => stReject

/-- The result of an applied operation goes back to its sender (R66, R280). An error is answered to a host as a record
not found (log 38). Nothing is written to a host that has been reset since (R482). -/
def State.answer (s : State) (sl : Nat) (o : FlowOp) (r : OpRes) : State :=
  match o.src with
  | .host c =>
    let s := match o.kind with
      | .search _ res =>
        if r.code = rcHit && res != 0 && !r.ecc && c.epoch = s.epoch c.part then
          s.hostWrite c.part res (wordsBytes (r.fv.map (fun (e : Nat × Word64) => e.2)))
        else s
      | _ => s
    s.cmdDone c (flowStatus r.code) (if r.code = rcDenied then 0 else r.idx % 2 ^ 27 + r.code * 2 ^ 32)
  | src => s.complete (srcSlice sl) src r.rd r.code r.fv r.ecc

/-- Apply an operation taken from the queue, or leave it waiting for the journal (R225, R247). The CKPT_END that the
last read of a checkpoint brings waits for no room (R252). -/
def State.applyAt (s : State) (sl : Nat) (o : FlowOp) (waited : Bool) : State :=
  let r := s.applyOp sl o
  if jFits s r.st || (decide (o.kind = .ckpt) && !r.ecc) then
    let s := r.st.bump (aMstCnt sl 0) 1
    let s := if r.miss then s.bump (aMstCnt sl 2) 1 else s
    s.answer sl o r
  else
    let x := s.slice sl
    let s := s.setSlice sl { x with jwait := if waited then o :: x.jwait else x.jwait ++ [o] }
    if waited then s else s.bump (aMstJnlCnt 1) 1

/-- FLOW_OP_APPLY (R225, R226). -/
def execFlowOpApply (slice : SliceId) (s : State) : Host.Outcome State Fault Refusal :=
  let sl := slice.val
  if s.tablesRun then
    match s.nextOp sl with
    | none => .next s
    | some o =>
      let x := s.slice sl
      let rest := takeOut o x.queue
      match s.mergeInto o rest with
      | some l => .next ((s.setSlice sl { x with queue := l }).bump (aMstCnt sl 6) 1)
      | none => .next ((s.setSlice sl { x with queue := rest }).applyAt sl o false)
  else .next s

/-- Is the thread that issued the operation still at its task? -/
def State.alive (s : State) (src : OpSrc) : Bool :=
  match src with
  | .thread n task _ _ => match (s.thr n).ctx with
    | some c => c.task = task
    | none => false
  | .posted n task => match (s.thr n).ctx with
    | some c => c.task = task
    | none => false
  | _ => true

/-- A held operation is sent: its thread has issued it, and spends its slots (R54, R66, R236). -/
def State.releaseHeld (s : State) (sl : Nat) (o : FlowOp) : State :=
  let go := fun (n : Nat) (f : State → Ctx → Ctx × State) =>
    let s := s.sendFlow sl o
    match (s.thr n).ctx with
    | some c =>
      let w : Word32 := BitVec.ofNat 32 (s.fetch (raceOf n) c)
      let s := (s.setThr n { (s.thr n) with gate := none }).slotsSpent n c w
      let s := if (s.thr n).halted.isSome then s else s.join n c.prio
      let (c1, s) := f s c
      (s.retire n c1).boundary n c.task
    | none => s
  match o.src with
  | .thread n _ tag _ => go n (fun s c => s.outstanding c tag)
  | .posted n _ => go n (fun s c => (c, s))
  | _ => s.sendFlow sl o

/-- MISS_QUEUE_ROOM (R236): the oldest held operation is sent; one whose thread has ended was never issued. -/
def execMissQueueRoom (slice : SliceId) (s : State) : Host.Outcome State Fault Refusal :=
  let sl := slice.val
  match (s.slice sl).held with
  | [] => .next s
  | o :: l =>
    if s.tablesRun ∧ !s.missFull sl then
      let s := s.setSlice sl { s.slice sl with held := l }
      if s.alive o.src then .next (s.releaseHeld sl o) else .next s
    else .next s

/-- Does the operation that waits for the journal still stand? Its thread, waiting for the result, has not been ended by
its watchdog (R247); a posted add has no thread that waits for it, and is applied whatever became of its thread (R70,
R71). -/
def State.stands (s : State) (o : FlowOp) : Bool :=
  match o.src with
  | .thread .. => s.alive o.src
  | _ => true

/-- JOURNAL_ROOM (R247): a waiting change is accepted and applied. -/
def execJournalRoom (slice : SliceId) (s : State) : Host.Outcome State Fault Refusal :=
  let sl := slice.val
  match (s.slice sl).jwait with
  | [] => .next s
  | o :: l =>
    if s.tablesRun then
      let s := s.setSlice sl { s.slice sl with jwait := l }
      if s.stands o then .next (s.applyAt sl o true) else .next s
    else .next s

/-! ### Exact-match lookups -/

/-- Entries partition p holds in the table of race r (EMT_HELD, R303). -/
def State.emHeld (s : State) (r p : Nat) : Nat :=
  (s.em.filter (fun e => decide (emBase r ≤ e.1 ∧ e.1 < emBase (r + 1)) && e.2.valid && e.2.part = p)).length

def State.emQuota (s : State) (p : Nat) : Nat := s.cfld (aEmtQuota p) 0 18

/-- Does a lookup with L = 1 ask to learn (R291)? -/
def asksLearn (o : EmOp) (e : Option EmEntry) : Bool :=
  match e with
  | none => o.port != 0x1FF
  | some e => !e.static && e.port != o.port && o.port != 0x1FF

/-- EM_LOOKUP_APPLY (R271, R291). -/
def execEmLookupApply (race : RaceId) (s : State) : Host.Outcome State Fault Refusal :=
  let r := race.val
  match (s.race r).emq with
  | [] => .next s
  | o :: l =>
    if s.runs then
      let s := s.setRace r { s.race r with emq := l }
      let (e, s) := s.emLookup r o.part o.type o.key
      let res : Word64 := match e with
        | some e => BitVec.ofNat 64 e.data
        | none => 0xFFFFFFFFFFFFFFFF
      let code := if e.isSome then rcHit else rcMiss
      match o.learn with
      | some data =>
        if asksLearn o e then
          if 256 ≤ (s.race r).learnq.length ∨ (e.isNone ∧ s.emQuota o.part ≤ s.emHeld r o.part) then
            .next ((s.bump (aEmtCnt r 5) 1).complete 0 o.src res rcFull [] false)
          else
            let q : Learn := { key := o.key, type := o.type, data := data, part := o.part, dom := o.dom, port := o.port,
                               ekey := o.seen }
            .next ((s.setRace r { s.race r with learnq := (s.race r).learnq ++ [q] }).complete 0 o.src res code [] false)
        else .next (s.complete 0 o.src res code [] false)
      | none => .next (s.complete 0 o.src res code [] false)
    else .next s

/-! ### LPM (R195) -/

/-- Does the prefix match the address? -/
def Prefix.matches (x : Prefix) (v6 : Bool) (table : Nat) (addr : BitVec 128) : Bool :=
  let w := if v6 then 128 else 32
  x.v6 = v6 && x.table = table && addr.toNat / 2 ^ (w - x.len) = x.addr.toNat / 2 ^ (w - x.len)

/-- The longest matching prefix. -/
def lpmBest (v6 : Bool) (table : Nat) (addr : BitVec 128) : List Prefix → Option Prefix
  | [] => none
  | x :: l =>
    match lpmBest v6 table addr l with
    | none => if x.matches v6 table addr then some x else none
    | some b => if x.matches v6 table addr && b.len < x.len then some x else some b

/-- Is the table inside p's LPM range (CLS_PART_RANGE, R209)? -/
def State.ownsLpm (s : State) (p t : Nat) : Bool :=
  decide (s.cfld (aClsPartRange p + 12) 0 12 ≤ t ∧ t ≤ s.cfld (aClsPartRange p + 12) 16 12)

/-- LPM_LOOKUP_APPLY (R195, R197). -/
def execLpmLookupApply (race : RaceId) (s : State) : Host.Outcome State Fault Refusal :=
  let r := race.val
  match (s.race r).lpmq with
  | [] => .next s
  | o :: l =>
    if s.runs then
      let s := s.setRace r { s.race r with lpmq := l }
      let ones : Word64 := 0xFFFFFFFFFFFFFFFF
      if 4096 ≤ o.table ∨ !s.ownsLpm o.part o.table then
        .next ((s.bump (aClsCnt r 6) 1).complete 0 o.src ones rcMiss [] false)
      else
        match lpmBest o.v6 o.table o.addr s.cls.lpm with
        | some x =>
          if x.bad then .next (s.complete 0 o.src ones rcMiss [] false)
          else .next (s.complete 0 o.src (BitVec.ofNat 64 (x.data.toNat + x.len * 2 ^ 32)) rcHit [] false)
        | none => .next (s.complete 0 o.src ones rcMiss [] false)
    else .next s

/-! ### The Weir -/

/-- METER_APPLY (R382, R384): the oldest operation on the Weir. -/
def execMeterApply (s : State) : Host.Outcome State Fault Refusal :=
  match s.weirq with
  | [] => .next s
  | o :: l =>
    if s.runs then
      let s := { s with weirq := l }
      let m := s.meterAt o.meter
      if !s.owns o.part .mtr o.meter ∨ !s.ownsProf o.part .mpr m.prof then
        .next ((s.bump (aQshWeirCnt o.part 3) 1).complete srcWeir o.src 0xFFFFFFFFFFFFFFFF rcDenied [] false)
      else
        let (c, m') := meterRun (s.mprof m.prof) m (o.bytes % 65536) (if o.aware then o.colour else 0) (s.islGtc 88)
        .next (((s.setMeter o.meter m').bump (aQshWeirCnt o.part c) 1).complete srcWeir o.src (BitVec.ofNat 64 c) rcOk [] false)
    else .next s

end Sys2Proof.Machine
end

