-- ==== Sys2Proof/Machine/Telemetry.lean ====
section
/-! DEFINITION. The telemetry rings in DRAM: flow export rings and learn rings (R244, R261, R294, R300). -/

namespace Sys2Proof.Machine

open Sys2Proof

/-- First DRAM address of the counter dumps and telemetry rings region (R649). -/
def dumpRegion : Nat := 0xE00000000

def State.dramWrite (s : State) (a : Nat) (l : List Byte) : State :=
  { s with mems := { s.mems with dram := setBytes s.mems.dram a l } }

/-- Write an entry to the ring at register `a`, or drop and count it (R244). -/
def State.ringPut (s : State) (a drop : Nat) (entry : List Byte) : State :=
  let base := s.regN a / 4096 * 4096
  let log := s.fld (a + 4) 0 5
  let prod := s.regN (a + 8)
  let cons := s.regN (a + 12)
  if log = 0 ∨ (prod + 2 ^ 32 - cons) % 2 ^ 32 = 2 ^ log then s.bump drop 1
  else
    (s.dramWrite (dumpRegion + base + prod % 2 ^ log * entry.length) entry).setRegN (a + 8) (prod + 1)

end Sys2Proof.Machine
end

