-- ==== Sys2Proof/Machine/Sweeper.lean ====
section
/-! DEFINITION. What the tables do by themselves: the sweeper (R239 to R243), flushes by port (R290), ageing and
learning (R292 to R294), walks that end (R287, R288), meter refresh (R385), the journal ring (R248). -/

namespace Sys2Proof.Machine

open Sys2Proof

/-- GTC counts of 1 s: sweeper and ager passes start at its multiples (R239, R293). -/
def second : Nat := 4000000000

/-! ### The sweeper -/

/-- Stop the passes of every slice (R239): RESTART and SAFE. -/
def State.stopPasses (s : State) : State :=
  (upTo 32).foldl (fun s i => s.setSlice i { s.slice i with pass := 0, next := 0 }) s

def State.flushOf (s : State) (p : Nat) : Option Flush := mget (fun _ => (none : Option Flush)) s.mst.flush p
def State.setFlush (s : State) (p : Nat) (f : Option Flush) : State :=
  { s with mst := { s.mst with flush := mset (fun _ => (none : Option Flush)) s.mst.flush p f } }

/-- SWEEPER_PASS_START (R239, R290): at a multiple of 1 s; an unfinished pass ends, and does not count for a flush. -/
def execSweeperPassStart (slice : SliceId) (s : State) : Host.Outcome State Fault Refusal :=
  let sl := slice.val
  let x := s.slice sl
  let start := s.sliceGtc sl / second * second
  if s.runs ∧ !s.blkOn 1 (sl / 8) ∧ 0 < start ∧ x.pass ≠ start + 1 ∧ s.top.resumeGtc ≤ start then
    let rb := (x.rebuild ++ x.failed).eraseDups
    let s := s.setSlice sl { x with pass := start + 1, next := 0, rebuild := rb, failed := [] }
    .next ((upTo 4).foldl (fun s p =>
      match s.flushOf p with
      | some f =>
        if f.done.contains sl then s
        else s.setFlush p (some { f with active := if f.at_ ≤ start then sl :: f.active.filter (· ≠ sl)
                                                    else f.active.filter (· ≠ sl) })
      | none => s) s)
  else .next s

/-- The export entry of a record (R243), and its ring. -/
def State.export (s : State) (sl i reason : Nat) : State :=
  let p := s.recOwn i
  let q := mget zeroN s.mst.expSeq p + 1
  let s := { s with mst := { s.mst with expSeq := mset zeroN s.mst.expSeq p q } }
  s.ringPut (aMstTring p) (aMstTringDrop p)
    (leBytes 1 reason ++ leBytes 1 (s.recDom i + p * 16) ++ leBytes 2 sl ++ leBytes 4 i ++ leBytes 8 (s.sliceGtc sl) ++
      leBytes 8 q ++ leBytes 8 0 ++ wordsBytes (s.recWords i))

/-- Delete a record at a visit, unless the journal cannot take it (R242): did it read DRAM, the state, and whether the
record is gone. -/
def State.sweepDelete (s : State) (sl i : Nat) : Bool × State × Bool :=
  let (m, s') := s.fDeleteM sl i false
  if jFits s s' then (m, s', true) else (m, s, false)

/-- Does the flush name the record (R290)? -/
def Flush.hits (f : Flush) (s : State) (i : Nat) : Bool :=
  let kb := wordsBytes (s.recKey i)
  let v := beNat ((kb.drop f.keyoff).take 2)
  (f.pers || !s.recPers i) && f.dom.all (fun d => s.recDom i = d) && (v &&& f.mask) = (f.value &&& f.mask)

/-- Offer an expiry task (R150, R153, R241). -/
def State.offerExpiry (s : State) (sl i : Nat) : State :=
  let r := i % 16
  let d := s.recDom i
  let x := s.race r
  if s.cfld (aTskDlyCfg r) 16 16 ≤ x.expHeld ∨ !x.dlyRoom then s.bump (aTskCnt r 6) 1
  else
    let now := s.sliceGtc sl
    let pt := s.ptpAt
    let (k, s) := s.addPkt { kind := .expiry, race := r, dom := d, stamp := now, ptpS := pt.1, ptpNs := pt.2 }
    let x := s.race r
    let fv := (upTo 16).foldl (fun m w => mset zero64 m w (s.recW i w)) ([] : SMap Word64)
    let dl : Delayed := { kind := .expiry, list := 0, due := dlyDue 0 0 (s.clk.gtc + 1), ctx := { pkt := k, fv := fv },
                          seq := x.seq }
    s.setRace r { x with dly := x.dly ++ [dl], seq := x.seq + 1 }

/-- ⌊t / (A × 1 s)⌋ for a time since creation, negative times counting as 0 (R240). -/
def exportQuot (now create a : Nat) : Nat := (now - create) / (a * second)

/-- Steps 1 to 3 of R240, with the meter refresh of R385. Did it read DRAM? -/
def State.visitLive (s : State) (sl i : Nat) : Bool × State :=
  let now := s.sliceGtc sl
  let d := s.recDom i
  let p := s.recOwn i
  let mt := meterOf (s.recW i fMtr0) (s.recW i fMtr1)
  let s := if mt.prof = 0 then s
    else
      let mt' := refill (s.mprof mt.prof) mt now
      ((s.setRecW i fMtr0 mt'.word0).setRecW i fMtr1 (meterWord1 (s.recW i fMtr1) mt')).dirtyRec sl i false
  let a := s.fld (aMstExp d) 0 16
  let create := (s.recW i fCreate).toNat
  let s := if a ≠ 0 ∧ exportQuot (now - second) create a < exportQuot now create a then s.export sl i 1 else s
  let t := s.fld (aMstTmo p (bitsOf (s.recW i fFlags).toNat 28 3)) 0 16
  if t ≠ 0 ∧ t * second ≤ now - (s.recW i fLast).toNat then
    match s.fld (aMstExp d) 30 2 with
    | 0 =>
      let (m, s, _) := s.sweepDelete sl i
      (m, s)
    | 1 =>
      let (m, s', ok) := (s.export sl i 2).sweepDelete sl i
      (m, if ok then s' else s)
    | _ => (false, s.offerExpiry sl i)
  else (false, s)

/-- Re-insert a record whose entry a failed bucket lost (R232). Did it read DRAM? A record in error that the search
meets is deleted, and the search made again. -/
def State.rebuild (s : State) (sl i : Nat) : Bool × State :=
  let p := s.recOwn i
  let (b1, b2) := s.keyBuckets p (s.recKey i)
  let x := s.slice sl
  if x.rebuild.contains b1 || x.rebuild.contains b2 then
    let (m1, s) := s.readBkt sl b1
    let (m2, s) := s.readBkt sl b2
    if (s.entryOf sl i).isSome then (m1 || m2, s)
    else
      let e : FEntry := { valid := true, fp := s.keyHash 0 p (s.recKey i) % 2 ^ 32, idx := i, pers := s.recPers i, own := p,
                          epoch := s.newEpoch p 16 }
      match s.fPlace sl e (s.recKey i) false with
      | (m3, s, .bad j) =>
        let r := s.recEcc sl j m3 false
        let (m4, s, _) := r.st.fPlace sl e (s.recKey i) false
        (m1 || m2 || r.miss || m4, s)
      | (m3, s, _) => (m1 || m2 || m3, s)
  else (false, s)

/-- What a visit does to a live record (R240, R290): a flush that names it deletes it, and where the journal cannot take
that the record is kept and the rest of the visit made. -/
def State.visitRec (s : State) (sl i : Nat) : Bool × State :=
  let p := s.recOwn i
  match s.flushOf p with
  | some f =>
    if f.active.contains sl && f.hits s i then
      match s.sweepDelete sl i with
      | (m, s, true) => (m, s.setFlush p (some { f with deleted := f.deleted + 1 }))
      | (m, s, false) =>
        let (m1, s) := (s.setFlush p (some { f with kept := f.kept + 1 })).visitLive sl i
        (m || m1, s)
    else s.visitLive sl i
  | none => s.visitLive sl i

/-- One visit (R239, R240, R290): an operation that the slice applies (R225, R266). -/
def State.visit (s : State) (sl i : Nat) : State :=
  let (m, s) := s.readRec sl i false
  let (m1, s) :=
    if s.mst.eccRec.contains i then
      let r := s.recEcc sl i false false
      if jFits s r.st then (r.miss, r.st) else (false, s)
    else if !s.recLive i then (false, s)
    else
      let (m1, s) := s.rebuild sl i
      let (m2, s) := s.visitRec sl i
      (m1 || m2, s)
  let s := s.bump (aMstCnt sl 0) 1
  if m || m1 then s.bump (aMstCnt sl 2) 1 else s

/-- The end of a whole pass: the failed buckets it found at its start are rebuilt, and a flush that it served is done
at this slice. -/
def State.passEnd (s : State) (sl : Nat) : State :=
  let s := s.setSlice sl { s.slice sl with rebuild := [] }
  (upTo 4).foldl (fun s p =>
    match s.flushOf p with
    | some f =>
      if f.active.contains sl then
        let f := { f with active := f.active.filter (· ≠ sl), done := sl :: f.done }
        if f.done.length = 32 then
          (s.setFlush p none).cmdDone f.ref stOk (f.deleted % 2 ^ 32 + f.kept % 2 ^ 32 * 2 ^ 32)
        else s.setFlush p (some f)
      else s
    | none => s) s

/-- SWEEPER_VISIT (R239): the visit of the next index, when it is due and its pass has not been overtaken. -/
def execSweeperVisit (slice : SliceId) (s : State) : Host.Outcome State Fault Refusal :=
  let sl := slice.val
  let x := s.slice sl
  let now := s.sliceGtc sl
  let start := x.pass - 1
  if s.runs ∧ !s.blkOn 1 (sl / 8) ∧ x.pass ≠ 0 ∧ x.next < 4194304 ∧ x.next * second ≤ (now - start) * 4194304 ∧ now < start + second then
    let s := s.setSlice sl { x with next := x.next + 1 }
    let s := s.visit sl (sl * 4194304 + x.next)
    .next (if x.next + 1 = 4194304 then s.passEnd sl else s)
  else .next s

/-! ### Exact-match ageing and learning -/

/-- Post a learn ring entry of partition p (R294). -/
def State.learnPost (s : State) (p kind r type port old : Nat) (key : Word64) (gtc src : Nat) : State :=
  let q := mget zeroN s.walks.learnSeq p + 1
  let s := { s with walks := { s.walks with learnSeq := mset zeroN s.walks.learnSeq p q } }
  s.ringPut (aEmtLring p) (aEmtLringDrop p)
    (leBytes 1 kind ++ leBytes 1 (r + type * 16) ++ leBytes 2 port ++ leBytes 2 old ++ leBytes 2 0 ++
      leBytes 8 key.toNat ++ leBytes 8 gtc ++ leBytes 4 q ++ leBytes 2 src ++ leBytes 2 0)

/-- The ager at one entry (R293). -/
def State.ageOne (s : State) (r x : Nat) : State :=
  let e := s.emAt r x
  let a := s.fld (aEmtAge e.part) 0 6
  if !e.valid || e.static || a = 0 then s
  else if e.age + 1 ≥ a then
    let s := (s.emDelete r x).bump (aEmtCnt r 7) 1
    s.learnPost e.part 4 r e.type e.port 0 e.key (s.islGtc (islRace r)) (32 * r + 2)
  else s.setEm r x { e with age := e.age + 1 }

/-- AGER_PASS (R293): one pass over the table at a multiple of 1 s. -/
def execAgerPass (race : RaceId) (s : State) : Host.Outcome State Fault Refusal :=
  let r := race.val
  let n := s.islGtc (islRace r) / second
  if s.runs ∧ (s.race r).ager < n ∧ s.top.resumeGtc ≤ n * second then
    let s := s.setRace r { s.race r with ager := n }
    .next ((s.emOnce r).foldl (fun s x => s.ageOne r x) s)
  else .next s

/-- The request with the lowest event order key. -/
def lowestLearn : List Learn → Option Learn
  | [] => none
  | q :: l =>
    match lowestLearn l with
    | some b => if b.ekey < q.ekey then some b else some q
    | none => some q

/-- A hold-down of a key that has not ended. -/
def HoldDown.covers (h : HoldDown) (q : Learn) (now : Nat) : Bool :=
  h.part = q.part && h.key = q.key && h.type = q.type && decide (now < h.until_)

def HoldDown.same (h : HoldDown) (part : Nat) (key : Word64) (type : Nat) : Bool :=
  h.part = part && h.key = key && h.type = type

/-- Put a key on the hold-down list anew (R292). -/
def State.holdDown (s : State) (r : Nat) (q : Learn) : State :=
  let x := s.race r
  let h : HoldDown := { part := q.part, key := q.key, type := q.type,
                        until_ := q.ekey / 4096 + s.cfld aEmtCfg 0 11 * 4000 }
  s.setRace r { x with hold := x.hold.filter (fun h => !h.same q.part q.key q.type) ++ [h] }

/-- Install a learned entry (R292). -/
def State.learnInstall (s : State) (r : Nat) (q : Learn) : State :=
  let t := q.ekey / 4096
  let src := q.ekey % 4096
  let fail := fun (s : State) => (s.bump (aEmtCnt r 6) 1).learnPost q.part 5 r q.type q.port 0 q.key t src
  if s.emQuota q.part ≤ s.emHeld r q.part then fail s
  else
    let e : EmEntry := { valid := true, key := q.key, type := q.type, epoch := s.newEpoch q.part r, part := q.part,
                         port := q.port, data := q.data.toNat % 2 ^ 40 }
    match s.emPlace r e with
    | (s, none) => fail s
    | (s, some _) => ((s.holdDown r q).bump (aEmtCnt r 0) 1).learnPost q.part 1 r q.type q.port 0 q.key t src

/-- Apply one learn request (R292). -/
def State.learnOne (s : State) (r : Nat) (q : Learn) : State :=
  let t := q.ekey / 4096
  let src := q.ekey % 4096
  match s.emFind r q.part q.type q.key with
  | none => s.learnInstall r q
  | some x =>
    let e := s.emAt r x
    if e.static || e.port = q.port then s
    else
      let held := (s.race r).hold.find? (fun h => h.covers q s.clk.gtc)
      match held with
      | some h =>
        let s := s.bump (aEmtCnt r 4) 1
        if h.posted then s
        else
          let y := s.race r
          let s := s.setRace r { y with hold := y.hold.map (fun k => if k = h then { h with posted := true } else k) }
          s.learnPost q.part 3 r q.type q.port e.port q.key t src
      | none =>
        let s := s.setEm r x { e with port := q.port, data := q.data.toNat % 2 ^ 40 }
        ((s.holdDown r q).bump (aEmtCnt r 1) 1).learnPost q.part 2 r q.type q.port e.port q.key t src

/-- LEARN_APPLY (R292): the request with the lowest key, 16 ns or more after it, at most 8 000 in 1 ms. -/
def execLearnApply (race : RaceId) (s : State) : Host.Outcome State Fault Refusal :=
  let r := race.val
  let x := s.race r
  let now := s.islGtc (islRace r)
  let win := x.learnWin.filter (fun t => decide (now < t + 4000000))
  match lowestLearn x.learnq with
  | none => .next s
  | some q =>
    if s.runs ∧ q.ekey / 4096 + 64 ≤ now ∧ win.length < 8000 then
      .next ((s.setRace r { x with learnq := x.learnq.erase q, learnWin := win ++ [now] }).learnOne r q)
    else .next s

/-- HOLDDOWN_EXPIRE (R292): the key's hold-downs that have ended leave the list. -/
def execHolddownExpire (race : RaceId) (key : Word64) (type : BitVec 3) (s : State) :
    Host.Outcome State Fault Refusal :=
  let r := race.val
  let x := s.race r
  .next (s.setRace r { x with
    hold := x.hold.filter (fun h => !(h.key = key && h.type = type.toNat && decide (h.until_ ≤ s.clk.gtc))) })

/-! ### Walks that end -/

/-- A walk of p on table t ends without DONE: its pickup queues are discarded and the restamp begins (R287, R288). -/
def State.walkBreak (s : State) (p t : Nat) : State := (s.setWalk p t none).setRestamp p t true

/-- WALK_TIMEOUT (R287): the walks of p without a NEXT for WALK_TMO end. -/
def execWalkTimeout (part : Part) (s : State) : Host.Outcome State Fault Refusal :=
  let p := part.val
  let tmo := s.cfld aEmtCfg 16 8 * 400000000
  .next ((upTo 17).foldl (fun s t =>
    match s.walk p t with
    | some w => if w.last + tmo ≤ s.clk.gtc then (s.walkBreak p t).bump (aEmtWalkCnt p 2) 1 else s
    | none => s) s)

/-- Stamp every entry of p in a table with the walk epoch (R288). -/
def State.restampAll (s : State) (p t : Nat) : State :=
  let e := !s.epochOf p t
  if t = 16 then
    { s with mst := { s.mst with
      index := s.mst.index.map (fun x => if x.2.valid && x.2.own = p then (x.1, { x.2 with epoch := e }) else x) } }
  else
    { s with em := s.em.map (fun x =>
      if emBase t ≤ x.1 && x.1 < emBase (t + 1) && x.2.valid && x.2.part = p then (x.1, { x.2 with epoch := e }) else x) }

/-- RESTAMP_DONE (R288): the restamps of a table end, and E_p becomes the walk epoch. -/
def execRestampDone (table : Nat) (s : State) : Host.Outcome State Fault Refusal :=
  .next ((upTo 4).foldl (fun s p =>
    if s.restamping p table then
      ((s.restampAll p table).setEpoch p table (!s.epochOf p table)).setRestamp p table false
    else s) s)

/-! ### Meters and the journal -/

/-- METER_REFRESH (R385): the refill part, for a meter with a profile, once in each second. -/
def execMeterRefresh (meter : Nat) (s : State) : Host.Outcome State Fault Refusal :=
  let m := s.meterAt meter
  let now := s.islGtc 88
  if s.runs ∧ m.prof ≠ 0 ∧ meter < 2 ^ 20 ∧ mget zeroN s.refreshed meter ≤ now / second then
    .next ({ s with refreshed := mset zeroN s.refreshed meter (now / second + 1) }.setMeter meter (refill (s.mprof m.prof) m now))
  else .next s

/-- The tail's oldest entry moves to the ring; a CKPT_END there makes its area current and frees the ring before its
start (R251). -/
def State.ringStep (s : State) : State :=
  let j := s.mst.jnl
  match j.tail with
  | [] => s
  | e :: l =>
    let j := { j with tail := l, ring := j.ring ++ [e] }
    match e.type, j.ckpt with
    | 6, some k =>
      (s.setJnl { j with area := k.area, ckpt := none
                         ring := j.ring.filter (fun x => decide (k.s0 ≤ x.seq)) }).bump (aMstJnlCnt 2) 1
    | _, _ => s.setJnl j

/-- The whole tail is written (R501, R584). -/
def State.drainTail (s : State) : State := (upTo s.mst.jnl.tail.length).foldl (fun s _ => s.ringStep) s

/-- JOURNAL_RING_WRITE (R248, R251): the writer moves an entry, while the ring has room. A full ring still takes the
entries of a checkpoint, which frees it (R252, log 104). -/
def execJournalRingWrite (s : State) : Host.Outcome State Fault Refusal :=
  let ckpt := match s.mst.jnl.tail with | e :: _ => decide (5 ≤ e.type) | [] => false
  if (s.mst.jnl.ring.length < ringSize ∨ ckpt = true) ∧ s.clk.run then .next s.ringStep else .next s

end Sys2Proof.Machine
end

