-- ==== Sys2Proof/Machine/HostTables.lean ====
section
/-! DEFINITION. The host commands on tables (R279 to R290, R196): NOP, SEARCH, INSERT, DELETE, NEXT, FLUSH_PORT,
LPM_UPDATE, WALK_START, FLOW_SEARCH, FLOW_INSERT, FLOW_DELETE, FLOW_NEXT, FLOW_FLUSH_PORT. -/

namespace Sys2Proof.Machine

open Sys2Proof

/-- A command that any partition may issue in modes A, or in modes B (R466). -/
def State.cmdA (s : State) (h : HostCmd) (op : Nat) (body : CmdRef → State → State) : Host.Outcome State Fault Refusal :=
  .next (s.startCmd h op .foreground true (modeA s.top.mode) body)
def State.cmdB (s : State) (h : HostCmd) (op : Nat) (body : CmdRef → State → State) : Host.Outcome State Fault Refusal :=
  .next (s.startCmd h op .foreground true (modeB s.top.mode) body)

/-- NOP (R466). -/
def execNop (h : HostCmd) (s : State) : Host.Outcome State Fault Refusal :=
  .next (s.startCmd h 0x01 .foreground true (modeC s.top.mode h.part.val) fun c s => s.cmdDone c stOk 0)

/-! ### Exact-match tables (R279, R289) -/

/-- The races a mask selects. -/
def racesOf (m : Nat) : List Nat := (upTo 16).filter (bitOf m)

/-- Operand fields of R279 that must be 0; the INSERT-only ones are 0 elsewhere. -/
def emBadOps (h : HostCmd) (insert : Bool) : Bool :=
  decide (8 ≤ h.op 2 1 ∨ 4 ≤ h.op 3 1 ∨ 512 ≤ h.op 4 2 ∨ h.op 6 2 ≠ 0 ∨ 2 ^ 40 ≤ h.op 16 8) ||
    (!insert && decide (h.op 3 1 ≠ 0 ∨ h.op 4 2 ≠ 0 ∨ h.op 16 8 ≠ 0))

/-- SEARCH (R279). -/
def execSearch (h : HostCmd) (s : State) : Host.Outcome State Fault Refusal :=
  s.cmdB h 0x10 fun c s =>
    match racesOf (h.op 0 2) with
    | [r] =>
      if emBadOps h false then s.cmdDone c stReject 0
      else
        match s.emFind r c.part (h.op 2 1) (BitVec.ofNat 64 (h.op 8 8)) with
        | some x => s.cmdDone c stOk (leNat ((s.emAt r x).bytes false))
        | none => s.cmdDone c stNotFound 0
    | _ => s.cmdDone c stReject 0

/-- INSERT in one race: its status, and the state after it. -/
def State.emInsert (s : State) (r p : Nat) (h : HostCmd) : Nat × State :=
  let key := BitVec.ofNat 64 (h.op 8 8)
  let type := h.op 2 1
  let static := bitOf (h.op 3 1) 0
  match s.emFind r p type key with
  | some x =>
    if bitOf (h.op 3 1) 1 then
      let s := s.setEm r x { s.emAt r x with data := h.op 16 8, port := h.op 4 2, static := static }
      let y := s.race r
      (stOk, s.setRace r { y with hold := y.hold.filter (fun k => !k.same p key type) })
    else (stReject, s)
  | none =>
    if s.emQuota p ≤ s.emHeld r p then (stFull, s)
    else
      let e : EmEntry := { valid := true, key := key, type := type, static := static, epoch := s.newEpoch p r, part := p,
                           port := h.op 4 2, data := h.op 16 8 }
      match s.emPlace r e with
      | (s, some _) => (stOk, s)
      | (s, none) => (stFull, s)

/-- DELETE in one race. -/
def State.emRemove (s : State) (r p : Nat) (h : HostCmd) : Nat × State :=
  match s.emFind r p (h.op 2 1) (BitVec.ofNat 64 (h.op 8 8)) with
  | some x => (stOk, s.emDelete r x)
  | none => (stNotFound, s)

/-- Act on each selected race in ascending order: the races that succeeded, and the status of the lowest that
failed. -/
def eachRace (f : Nat → State → Nat × State) : List Nat → State → Nat × Nat × State
  | [], s => (0, stOk, s)
  | r :: l, s =>
    let (st, s) := f r s
    let (m, rest, s) := eachRace f l s
    if st = stOk then (m + 2 ^ r, rest, s) else (m, st, s)

/-- INSERT (R279). -/
def execInsert (h : HostCmd) (s : State) : Host.Outcome State Fault Refusal :=
  s.cmdA h 0x11 fun c s =>
    if emBadOps h true then s.cmdDone c stReject 0
    else
      let (m, st, s) := eachRace (fun r s => s.emInsert r c.part h) (racesOf (h.op 0 2)) s
      s.cmdDone c st m

/-- DELETE (R279). -/
def execDelete (h : HostCmd) (s : State) : Host.Outcome State Fault Refusal :=
  s.cmdA h 0x12 fun c s =>
    if emBadOps h false then s.cmdDone c stReject 0
    else
      let (m, st, s) := eachRace (fun r s => s.emRemove r c.part h) (racesOf (h.op 0 2)) s
      s.cmdDone c st m

/-- FLUSH_PORT (R289). -/
def execFlushPort (h : HostCmd) (s : State) : Host.Outcome State Fault Refusal :=
  s.cmdA h 0x14 fun c s =>
    if 2 ≤ h.op 2 1 ∨ h.op 3 1 ≠ 0 ∨ 512 ≤ h.op 4 2 then s.cmdDone c stReject 0
    else
      let static := bitOf (h.op 2 1) 0
      let hit := fun (e : EmEntry) => e.valid && e.part = c.part && e.port = h.op 4 2 && (static || !e.static)
      let (n, s) := (racesOf (h.op 0 2)).foldl (fun (a : Nat × State) r =>
        (a.2.emOnce r).foldl (fun (a : Nat × State) x =>
          if hit (a.2.emAt r x) then (a.1 + 1, a.2.emDelete r x) else a) a) (0, s)
      s.cmdDone c stOk n

/-! ### LPM_UPDATE (R196, R197) -/

/-- Prefixes p holds of a family. -/
def State.lpmHeld (s : State) (p : Nat) (v6 : Bool) : Nat :=
  (s.cls.lpm.filter (fun x => x.part = p && x.v6 = v6)).length
def State.lpmTotal (s : State) (v6 : Bool) : Nat := (s.cls.lpm.filter (fun x => x.v6 = v6)).length

def State.setLpm (s : State) (l : List Prefix) : State := { s with cls := { s.cls with lpm := l } }

/-- LPM_UPDATE (R196). -/
def execLpmUpdate (h : HostCmd) (s : State) : Host.Outcome State Fault Refusal :=
  s.cmdA h 0x15 fun c s =>
    let v6 := h.op 1 1 = 1
    let w := if v6 then 128 else 32
    let len := h.op 2 1
    let full := beNat (leBytes 16 (h.op 16 16))
    if 2 ≤ h.op 0 1 ∨ 2 ≤ h.op 1 1 ∨ w < len ∨ h.op 3 1 ≠ 0 ∨ 4096 ≤ h.op 4 2 ∨ h.op 6 2 ≠ 0 ∨ h.op 12 4 ≠ 0 ∨
        full % 2 ^ (128 - len) ≠ 0 then s.cmdDone c stReject 0
    else if !s.ownsLpm c.part (h.op 4 2) then s.cmdDone c stDenied 0
    else
      let addr := BitVec.ofNat 128 (full / 2 ^ (128 - w))
      let same := fun (x : Prefix) => x.v6 = v6 && x.table = h.op 4 2 && x.len = len && x.addr = addr
      let rest := s.cls.lpm.filter (fun x => !same x)
      let here := s.cls.lpm.any same
      if h.op 0 1 = 1 then
        if here then (s.setLpm rest).cmdDone c stOk 0 else s.cmdDone c stNotFound 0
      else
        let quota := 64 * (if v6 then s.cfld (aClsLpmQuota c.part) 0 16 else s.cfld (aClsLpmQuota c.part) 16 16)
        if !here ∧ (quota ≤ s.lpmHeld c.part v6 ∨ (if v6 then 524288 else 1048576) ≤ s.lpmTotal v6) then
          s.cmdDone c stFull 0
        else
          (s.setLpm (rest ++ [{ v6 := v6, table := h.op 4 2, len := len, addr := addr,
                                data := BitVec.ofNat 32 (h.op 8 4), part := c.part }])).cmdDone c stOk 0

/-! ### Walks (R282 to R287) -/

/-- WALK_START (R283). -/
def execWalkStart (h : HostCmd) (s : State) : Host.Outcome State Fault Refusal :=
  s.cmdB h 0x16 fun c s =>
    let t := h.op 0 1
    if 16 < t then s.cmdDone c stReject 0
    else if (s.walk c.part t).isSome || s.restamping c.part t then s.cmdDone c stBusy 0
    else (s.setWalk c.part t (some { last := s.clk.gtc })).cmdDone c stOk 0

/-- Positions at or after the cursor whose entries the walk has yet to return. -/
def State.walkTodo (s : State) (p t cursor : Nat) : List Nat :=
  if t = 16 then
    (s.mst.index.filter (fun e => decide (cursor ≤ e.1) && e.2.valid && e.2.own = p && e.2.epoch = s.epochOf p t)).map
      (·.1)
  else
    (s.emUsed t).filter (fun x => decide (cursor ≤ x) && (s.emAt t x).part = p && (s.emAt t x).epoch = s.epochOf p t)

/-- Return the entry at a position and stamp it. -/
def State.walkTake (s : State) (t x : Nat) : List Byte × State :=
  if t = 16 then
    let sl := x / sliceSpan
    let e := s.fent sl (x % sliceSpan)
    (s.flowItem sl e.idx, s.setFent sl (x % sliceSpan) { e with epoch := !e.epoch })
  else
    let e := s.emAt t x
    let item := if x < 131072 then emItem t e 0 (x / 4) else emItem t e 1 0
    (item, s.setEm t x { e with epoch := !e.epoch })

/-- One NEXT or FLOW_NEXT on table t (R284): pickup queues first, then the cursor goes on until MAX items. -/
def State.walkNext (s : State) (c : CmdRef) (t max_ res : Nat) : State :=
  match s.walk c.part t with
  | none => s.cmdDone c stReject 0
  | some w =>
    let picked := w.pickup.take max_
    let left := w.pickup.drop max_
    let todo := s.walkTodo c.part t w.cursor
    let now := todo.take (max_ - picked.length)
    let (items, s) := now.foldl (fun (a : List (List Byte) × State) x =>
      let (i, s) := a.2.walkTake t x
      (a.1 ++ [i], s)) (picked.map (fun e => e.2), s)
    let n := items.length
    let s := (s.hostWrite c.part res items.flatten).bump (aEmtWalkCnt c.part 0) n
    if n < max_ ∧ left = [] then
      let s := (s.setWalk c.part t none).setEpoch c.part t (!s.epochOf c.part t)
      s.cmdDone c stOk (n + 2 ^ 31)
    else
      let cur := match now.getLast? with
        | some x => x + 1
        | none => w.cursor
      (s.setWalk c.part t (some { cursor := cur, last := s.clk.gtc, pickup := left })).cmdDone c stOk n

/-- NEXT (R284). -/
def execNext (h : HostCmd) (s : State) : Host.Outcome State Fault Refusal :=
  s.cmdB h 0x13 fun c s =>
    if 16 ≤ h.op 0 1 ∨ h.op 1 1 ≠ 0 ∨ h.op 2 2 = 0 ∨ 4096 < h.op 2 2 ∨ h.op 4 4 ≠ 0 then s.cmdDone c stReject 0
    else s.walkNext c (h.op 0 1) (h.op 2 2) (h.op 8 8)

/-- FLOW_NEXT (R284). -/
def execFlowNext (h : HostCmd) (s : State) : Host.Outcome State Fault Refusal :=
  s.cmdB h 0x23 fun c s =>
    if h.op 0 1 ≠ 0 ∨ h.op 1 1 ≠ 0 ∨ h.op 2 2 = 0 ∨ 4096 < h.op 2 2 ∨ h.op 4 4 ≠ 0 then s.cmdDone c stReject 0
    else s.walkNext c 16 (h.op 2 2) (h.op 8 8)

/-! ### Flow commands (R280, R290) -/

/-- Operand fields of R280 that must be 0. -/
def flowBadOps (h : HostCmd) (flags : Nat) (insert res : Bool) : Bool :=
  decide ((h.op 0 1 ≠ 0 ∧ h.op 0 1 ≠ flags) ∨ 16 ≤ h.op 1 1 ∨ h.op 2 2 ≠ 0) || (!insert && decide (h.op 1 1 ≠ 0)) ||
    (if !insert && bitOf (h.op 0 1) 0 then decide (2 ^ 27 ≤ h.op 4 4) else decide (h.op 4 4 ≠ 0)) ||
    (!res && decide (h.op 16 8 ≠ 0))

/-- The 64-bit words of the key or the record image at ADDR. -/
def State.hostWords (s : State) (p a n : Nat) : List Word64 :=
  (upTo n).map (fun i => BitVec.ofNat 64 (s.hostLe p (a + 8 * i) 8))

/-- Send a host's operation to its slice; the command runs until the slice has applied it (R463). -/
def State.hostFlow (s : State) (c : CmdRef) (o : FlowOp) : State :=
  let sl := if o.byKey then s.homeOf o.part o.view else sliceOf o.index
  let s := (s.cmdRuns c).dmaRead (if o.byKey then 8 * o.view.length else 0)
  if s.missFull sl then s.holdFlow sl o else s.sendFlow sl o

/-- FLOW_SEARCH (R280). -/
def execFlowSearch (h : HostCmd) (s : State) : Host.Outcome State Fault Refusal :=
  s.cmdB h 0x20 fun c s =>
    if flowBadOps h 1 false true then s.cmdDone c stReject 0
    else
      s.hostFlow c { src := .host c, kind := .search (bitOf (h.op 0 1) 0) (h.op 16 8),
                     view := s.hostWords c.part (h.op 8 8) 6, index := BitVec.ofNat 64 (h.op 4 4), dom := 0, part := c.part }

/-- FLOW_INSERT (R280): a domain the partition does not own gives DENIED. -/
def execFlowInsert (h : HostCmd) (s : State) : Host.Outcome State Fault Refusal :=
  s.cmdA h 0x21 fun c s =>
    if flowBadOps h 2 true false then s.cmdDone c stReject 0
    else if s.domOwner (h.op 1 1) ≠ c.part then s.cmdDone c stDenied 0
    else
      s.hostFlow c { src := .host c, kind := .ins (bitOf (h.op 0 1) 1), view := s.hostWords c.part (h.op 8 8) 16,
                     index := 0, dom := h.op 1 1, part := c.part }

/-- FLOW_DELETE (R280). -/
def execFlowDelete (h : HostCmd) (s : State) : Host.Outcome State Fault Refusal :=
  s.cmdA h 0x22 fun c s =>
    if flowBadOps h 1 false false then s.cmdDone c stReject 0
    else
      s.hostFlow c { src := .host c, kind := .hostDel (bitOf (h.op 0 1) 0), view := s.hostWords c.part (h.op 8 8) 6,
                     index := BitVec.ofNat 64 (h.op 4 4), dom := 0, part := c.part }

/-- FLOW_FLUSH_PORT (R290): background, carried out by the sweeper. -/
def execFlowFlushPort (h : HostCmd) (s : State) : Host.Outcome State Fault Refusal :=
  .next (s.startCmd h 0x24 .background true (modeA s.top.mode) fun c s =>
    if 4 ≤ h.op 0 1 ∨ 16 ≤ h.op 1 1 ∨ 46 < h.op 2 1 ∨ h.op 3 1 ≠ 0 then s.cmdDone c stReject 0
    else if (s.flushOf c.part).isSome then s.cmdDone c stBusy 0
    else
      (s.cmdAccept c).setFlush c.part (some
        { ref := c, pers := bitOf (h.op 0 1) 0, dom := if bitOf (h.op 0 1) 1 then some (h.op 1 1) else none,
          keyoff := h.op 2 1, value := h.op 4 2, mask := h.op 6 2, at_ := s.clk.gtc }))

end Sys2Proof.Machine
end

