-- ==== Sys2Proof/Machine/Tables.lean ====
section
/-! DEFINITION. Tables written through registers: QSH_TACC (R388 to R395), TCAM rules (R193, R194), the load balancer
(R308 to R315). -/

namespace Sys2Proof.Machine

open Sys2Proof

/-! ### Levels under a new profile (R371) -/

/-- Cut a level to what a profile with these bursts and this MAXSDU allows. -/
def Level.cut (l : Level) (cbs pbs sdu : Nat) : Level :=
  let lo : Int := -2 * (sdu : Int) * unit32
  let f := fun (v : Int) (b : Nat) => if 0 < v then min v ((b : Int) * unit32) else max v lo
  { l with c := f l.c cbs, p := f l.p pbs }

/-- The level of a node brought up to now under its present profile, if it has one. -/
def State.settleLevel (s : State) (kind i : Nat) : State := s.setLevel (nodeKey kind i) (s.nodeLevel kind i)

/-- Follow a change of a node's SHP, already made; `had` says that it named a profile before. -/
def State.shpChanged (s : State) (kind i : Nat) (had : Bool) : State :=
  let k := s.nodeShp kind i
  let key := nodeKey kind i
  if k = 0 then s.setLevel key none
  else
    match had, s.level key with
    | true, some l => s.setLevel key (some (l.cut (s.shpCbs k) (s.shpPbs k) (s.shpSdu k)))
    | _, _ => s.setLevel key (some (s.levelFull k))

/-- Nodes that name shaper profile k, as (kind, number). -/
def State.nodesOf (s : State) (k : Nat) : List (Nat × Nat) :=
  s.tab.filterMap fun e =>
    let t := e.1 / 2 ^ 24
    if e.1 % 32 = 0 ∧ t ≤ 2 ∧ bitsOf e.2.toNat 16 14 = k then some (t, e.1 % 2 ^ 24 / 32) else none

/-! ### Entries as words -/

def tabWords (t : Nat) : Nat :=
  match t with
  | 0 | 4 | 5 => 8
  | 1 | 2 | 6 => 4
  | 3 | 7 | 8 => 2
  | 9 => 24
  | _ => 0

def tabSize (t : Nat) : Nat :=
  match t with
  | 0 | 9 => 0x41000
  | 1 | 8 => 65536
  | 2 | 5 => 4096
  | 3 => 512
  | 4 | 7 => 16384
  | 6 => 1048576
  | _ => 0

/-- Writable bits of word w of an entry (R389 to R394). -/
def tabMask (t w : Nat) : Nat :=
  match t, w with
  | 0, 0 => 0xFFFF3FFF
  | 0, 1 => 0xE000FFFF
  | 0, 6 => 0xFFFFFFFF
  | 0, 7 => 0xFFFFFFFF
  | 0, _ => 0x000FFFFF
  | 1, 0 => 0xBFFF0FFF
  | 1, 1 => 0xE000FFFF
  | 2, 0 => 0xBFFF01FF
  | 2, 1 => 0xE000FFFF
  | 3, 0 => 0x07003FFF
  | 3, 1 => 0x0000FFFF
  | 4, 0 => 0xFFFFFFFF
  | 4, 1 => 0xFFFFFFFF
  | 4, 2 => 0x0FFFFFFF
  | 4, 3 => 0x0FFFFFFF
  | 4, 4 => 0x20FF3FFF
  | 5, 0 => 0xFFFFFFFF
  | 5, 1 => 0xFFFFFFFF
  | 5, 2 => 0x0FFFFFFF
  | 5, 3 => 0x0FFFFFFF
  | 5, 4 => 0xE0FF3FFF
  | 7, 0 => 0x803FFFFF
  | 8, 0 => 0xC00FFFFF
  | _, _ => 0

/-- A level in whole signed bytes, as a word. -/
def levelWord (v : Int) : Nat := ((v / unit32) % 2 ^ 32).toNat

def State.levelWords (s : State) (kind i : Nat) : Nat × Nat :=
  match s.nodeLevel kind i with
  | some l => (levelWord l.c, levelWord l.p)
  | none => (0, 0)

/-- Word w of entry i of table t, as a read gives it. -/
def State.tabRead (s : State) (t i w : Nat) : Nat :=
  match t, w with
  | 1, 2 => (s.levelWords nSub i).1
  | 1, 3 => (s.levelWords nSub i).2
  | 2, 2 => (s.levelWords nGroup i).1
  | 2, 3 => (s.levelWords nGroup i).2
  | 6, 0 => (s.meterAt i).word0.toNat % 2 ^ 32
  | 6, 1 => (s.meterAt i).word0.toNat / 2 ^ 32
  | 6, 2 => (s.meterAt i).word1.toNat % 2 ^ 32
  | 6, 3 => (s.meterAt i).word1.toNat / 2 ^ 32
  | 9, _ =>
    let x := s.queue i
    match w with
    | 0 => x.stat.dmin
    | 1 => x.stat.dmax
    | 2 => x.stat.sdepth
    | 3 => x.stat.ssoj
    | 4 => if s.tabF tQueue i 6 31 1 = 1 then levelWord ((s.settleCbs (s.queuePort i)).queue i).credit
           else (s.levelWords nQueue i).1
    | 5 => (s.levelWords nQueue i).2
    | 6 => x.stat.deq % 2 ^ 32
    | 7 => x.stat.deq / 2 ^ 32
    | _ => mget zeroN x.stat.bins (w - 8)
  | _, _ => s.tabW t i w

/-! ### Checks of R388 -/

/-- Check 2: who owns the entry. -/
def State.ownsEntry (s : State) (p t i : Nat) : Bool :=
  match t with
  | 0 | 9 => s.ownsQueue p i
  | 1 => s.owns p .sub i
  | 2 => s.owns p .grp i
  | 3 => decide (s.portOwner i = p)
  | 4 => s.owns p .shp i
  | 5 => s.owns p .mpr i
  | 6 => s.owns p .mtr i
  | 7 => s.owns p .mcg i
  | _ => s.owns p .mcm i

/-- A frame size of 64 B to 10 240 B. -/
def sduOk (v : Nat) : Bool := decide (64 ≤ v ∧ v ≤ 10240)

/-- The lists of a port admit frames of `len` bytes of class c (R379). -/
def State.listsAdmit (s : State) (n c len : Nat) : Bool :=
  let x := s.portS n
  let ok := fun (l : GateList) => !l.en || l.admits c len (s.portRate n)
  ok x.op && (match x.pend with | some l => ok l | none => true)

/-- Check 3: the rules of the entry's format, for the words `v` of a write. -/
def State.formatOk (s : State) (t i : Nat) (v : Nat → Nat) : Bool :=
  let f := fun (w lo n : Nat) => bitsOf (v w) lo n
  match t with
  | 0 =>
    let n := s.queuePort i
    let c := s.queueCls i
    let slopes := ((upTo 8).map fun k =>
      if directBase + 8 * n + k = i then f 6 0 31 else s.tabF tQueue (directBase + 8 * n + k) 6 0 31).sum
    sduOk (f 0 0 14) && f 1 0 16 ≠ 0 && decide (f 3 0 20 ≤ f 2 0 20 ∧ f 4 0 20 ≤ f 3 0 20) &&
      (if isSub i then f 0 30 1 = 0 && f 6 31 1 = 0
       else decide (4 * slopes ≤ 3 * (s.portRate n * 1000000)) &&
        s.listsAdmit n c (if s.subCls n = c then max (f 0 0 14) (s.tabF tPort n 0 0 14) else f 0 0 14))
  | 1 => f 1 0 16 ≠ 0
  | 2 => f 1 0 16 ≠ 0 && f 0 9 3 = 0
  | 3 =>
    let c := f 0 24 3
    sduOk (f 0 0 14) && f 1 0 16 ≠ 0 &&
      s.listsAdmit i c (max (s.tabF tQueue (directBase + 8 * i + c) 0 0 14) (f 0 0 14))
  | 4 => decide (v 0 ≤ v 1) && sduOk (f 4 0 14) && f 4 30 2 = 0
  | 5 =>
    let ty := f 4 30 2
    decide (ty ≠ 3 ∧ v 0 ≤ 800000000) && (ty = 0 || decide (v 1 ≤ 800000000)) && (ty ≠ 1 || decide (v 0 ≤ v 1))
  | 7 => decide (f 0 0 16 + f 0 16 6 ≤ 65535)
  | 8 => validQueue (f 0 0 20)
  | _ => true

/-- Check 4: what the entry names is p's. -/
def State.namesOwn (s : State) (p t : Nat) (v : Nat → Nat) : Bool :=
  let f := fun (w lo n : Nat) => bitsOf (v w) lo n
  match t with
  | 0 => s.ownsProf p .shp (f 0 16 14)
  | 1 => s.ownsProf p .shp (f 0 16 14) && s.owns p .grp (f 0 0 12)
  | 2 => s.ownsProf p .shp (f 0 16 14) && decide (s.portOwner (f 0 0 9) = p)
  | 6 => s.ownsProf p .mpr (f 2 0 12)
  | 7 => (upTo (f 0 16 6 + 1)).all fun j => s.owns p .mcm (f 0 0 16 + j)
  | 8 => s.ownsQueue p (f 0 0 20)
  | _ => true

/-- R365: packets wait where GROUP or PORT would change. -/
def State.tableBusy (s : State) (t i : Nat) (v : Nat → Nat) : Bool :=
  match t with
  | 1 => bitsOf (v 0) 0 12 ≠ s.subGroup i && s.busySubQueues.any (fun q => q / 4 = i)
  | 2 => bitsOf (v 0) 0 9 ≠ s.groupPort i && s.busySubQueues.any (fun q => s.subGroup (q / 4) = i)
  | _ => false

/-- Write the words of an entry. -/
def State.putEntry (s : State) (t i : Nat) (v : Nat → Nat) : State :=
  (upTo (tabWords t)).foldl (fun s w =>
    let m := tabMask t w
    if m = 0 then s else s.setTabW t i w (v w &&& m)) s

/-- A write that has passed the checks, at this GTC instant (R371, R372, R385). -/
def State.tabWrite (s : State) (t i : Nat) (v : Nat → Nat) : State :=
  match t with
  | 6 =>
    s.setMeter i { tc := v 0, te := v 1, prof := bitsOf (v 2) 0 12, last := s.clk.gtc / 16 % 2 ^ 48 }
  | 4 =>
    let nodes := s.nodesOf i
    let s := nodes.foldl (fun s e => s.settleLevel e.1 e.2) s
    let s := s.putEntry t i v
    nodes.foldl (fun s e => s.shpChanged e.1 e.2 true) s
  | 0 =>
    let s := if isDirect i then s.settleCbs (s.queuePort i) else s
    let on := s.tabF tQueue i 6 31 1 = 1
    let had := s.nodeShp nQueue i ≠ 0
    let s := ((s.settleLevel nQueue i).putEntry t i v).shpChanged nQueue i had
    if on then s else s.setQueue i { s.queue i with credit := 0, crAt := s.clk.gtc }
  | 1 =>
    let had := s.nodeShp nSub i ≠ 0
    ((s.settleLevel nSub i).putEntry t i v).shpChanged nSub i had
  | 2 =>
    let had := s.nodeShp nGroup i ≠ 0
    ((s.settleLevel nGroup i).putEntry t i v).shpChanged nGroup i had
  | _ => s.putEntry t i v

/-- A table operation of partition p: status and state. -/
def State.taccOp (s : State) (p : Nat) (wr : Bool) (t i : Nat) : Nat × State :=
  let v := fun (w : Nat) => s.regN (aQshTaccData p w)
  if tabSize t ≤ i ∨ (wr ∧ t = 9) then (stReject, s)
  else if !s.ownsEntry p t i then (stDenied, s)
  else if wr then
    if !s.formatOk t i v then (stReject, s)
    else if !s.namesOwn p t v then (stDenied, s)
    else if s.tableBusy t i v then (stBusy, s)
    else
      let s := s.tabWrite t i v
      (stOk, (s.setRegN (aQshTaccAt p) (s.clk.gtc % 2 ^ 32)).setRegN (aQshTaccAt p + 4) (s.clk.gtc / 2 ^ 32))
  else (stOk, (upTo (tabWords t)).foldl (fun q w => q.setRegN (aQshTaccData p w) (s.tabRead t i w)) s)

/-- A write of QSH_TACC CTL: the fields, and with GO the operation. -/
def State.taccWrite (s : State) (m : Master) (p v : Nat) : State :=
  let a := aQshTaccCtl p
  if !masterIs m p then s.denyMaster m 2 a
  else
    let s := s.setRegN a (v &&& 0x40FFFFFF)
    if bitOf v 31 then
      let (st, s) := s.taccOp p (bitOf v 30) (bitsOf v 20 4) (bitsOf v 0 20)
      s.setRegN (aQshTaccStat p) st
    else s

/-- TACC_READ (R388). -/
def execTaccRead (m : Master) (part : Part) (value : Word32) (s : State) : Host.Outcome State Fault Refusal :=
  s.atBus m fun s => s.taccWrite m part.val (putBits (putBits value.toNat 31 1 1) 30 1 0)

/-- TACC_WRITE (R365, R371, R373, R379, R388). -/
def execTaccWrite (m : Master) (part : Part) (value : Word32) (s : State) : Host.Outcome State Fault Refusal :=
  s.atBus m fun s => s.taccWrite m part.val (putBits (putBits value.toNat 31 1 1) 30 1 1)

/-! ### TCAM rules (R193, R194) -/

/-- A 640-bit word from the 20 staged words at `a`. -/
def State.wide (s : State) (a : Nat) : BitVec 640 :=
  BitVec.ofNat 640 ((upTo 20).map (fun i => s.regN (a + 4 * i) * 2 ^ (32 * i))).sum

/-- The checks of R194 and the operation: status and state. -/
def State.tcamOp (s : State) (p code i : Nat) : Nat × State :=
  let rule := s.regN (aClsTcamStgRule p)
  let races := (upTo 16).filter fun r => bitOf rule (16 + r)
  let dom := bitsOf rule 12 4
  let vm := bitsOf rule 8 4
  let act0 := s.regN (aClsTcamStgAct0 p)
  let act1 := s.regN (aClsTcamStgAct1 p)
  let liveIn := fun (d m : Nat) => (upTo 4).any fun v => bitOf m v && s.live d v
  let set := code = 1 ∨ code = 2
  if inRange (clsRange s.committed p 2) i = false ∨ s.domOwner dom ≠ p then (stDenied, s)
  else if 4 ≤ code ∨ bitsOf act0 12 2 = 3 ∨ 8 < bitsOf act0 4 4 ∨ 8 < bitsOf act1 23 4 then (stReject, s)
  else if code ≠ 0 ∧ races.any (fun r => !(s.rule r i).valid) then (stNotFound, s)
  else if set ∧ races.any (fun r => (s.rule r i).dom ≠ dom) then (stReject, s)
  else if set ∧ liveIn dom vm then (stBusy, s)
  else if ¬ set ∧ races.any (fun r => (s.rule r i).valid && liveIn (s.rule r i).dom (s.rule r i).vmask) then (stBusy, s)
  else if code = 0 ∧ liveIn dom vm then (stBusy, s)
  else
    let new : Rule :=
      { valid := true, value := s.wide (aClsTcamStgKey p 0), mask := s.wide (aClsTcamStgMask p 0), dom := dom, vmask := vm,
        act0 := BitVec.ofNat 32 (act0 &&& 0x8FFFBFF0), act1 := BitVec.ofNat 32 (act1 &&& 0xFF8FFFFF) }
    (stOk, races.foldl (fun s r =>
      let x := s.rule r i
      match code with
      | 0 => s.setRule r i new
      | 1 => s.setRule r i { x with vmask := x.vmask ||| vm }
      | 2 => s.setRule r i { x with vmask := x.vmask &&& (15 - vm) }
      | _ => s.setRule r i {}) s)

/-- A write of CLS_TCAM_STG OP. -/
def State.tcamGo (s : State) (m : Master) (p v : Nat) : State :=
  let a := aClsTcamStgOp p
  if !masterIs m p then s.denyMaster m 2 a
  else
    let s := s.setRegN a (v &&& 0x70003FFF)
    if bitOf v 31 then
      let (st, s) := s.tcamOp p (bitsOf v 28 3) (bitsOf v 0 14)
      s.setRegN (aClsTcamStgOpstat p) st
    else s

/-- An OP word with GO and a CODE. -/
def tcamCode (v code : Nat) : Nat := putBits v 28 4 (8 + code)

/-- TCAM_WRITE (R194). -/
def execTcamWrite (m : Master) (part : Part) (value : Word32) (s : State) : Host.Outcome State Fault Refusal :=
  s.atBus m fun s => s.tcamGo m part.val (tcamCode value.toNat 0)

/-- TCAM_VSET (R194). -/
def execTcamVset (m : Master) (part : Part) (value : Word32) (s : State) : Host.Outcome State Fault Refusal :=
  s.atBus m fun s => s.tcamGo m part.val (tcamCode value.toNat 1)

/-- TCAM_VCLR (R194). -/
def execTcamVclr (m : Master) (part : Part) (value : Word32) (s : State) : Host.Outcome State Fault Refusal :=
  s.atBus m fun s => s.tcamGo m part.val (tcamCode value.toNat 2)

/-- TCAM_INVALIDATE (R194). -/
def execTcamInvalidate (m : Master) (part : Part) (value : Word32) (s : State) : Host.Outcome State Fault Refusal :=
  s.atBus m fun s => s.tcamGo m part.val (tcamCode value.toNat 3)

/-! ### The load balancer (R308 to R315) -/

/-- A write of MST_LB_WDATA of partition p (R310). -/
def State.lbWrite (s : State) (m : Master) (p : Nat) (hi : Bool) (v : Nat) : State :=
  let a := aMstLbWdata p
  if !masterIs m p then s.denyMaster m 2 (a + 4 * natBool hi)
  else if !hi then s.setRegN a v
  else
    let w := s.regN (aMstLbWaddr p)
    let bank := bitsOf w 24 1
    let svc := bitsOf w 14 10
    let slot := bitsOf w 0 14
    let act := s.regN (aMstLbSvc svc)
    let s1 := s.setFld (aMstLbWaddr p) 0 14 (slot + 1)
    if inRange (lbRange s.committed p) svc = false ∨ (bitOf act 31 ∧ bitsOf act 0 1 = bank) then s1.bump (aMstLbCnt p 3) 1
    else
      { s1 with mst := { s1.mst with
        lb := mset zero64 s1.mst.lb ((bank * 1024 + svc) * 16384 + slot) (BitVec.ofNat 64 (s.regN a + v * 2 ^ 32)) } }

/-- LB_WDATA_WRITE (R310). -/
def execLbWdataWrite (m : Master) (part : Part) (hi : Bool) (value : Word32) (s : State) :
    Host.Outcome State Fault Refusal :=
  s.atBus m fun s => s.lbWrite m part.val hi value.toNat

/-- A write of MST_LB_SVC[n] (R309, R314). -/
def State.lbSvc (s : State) (m : Master) (n v : Nat) : State :=
  let put := s.setRegN (aMstLbSvc n) (v &&& 0x80000001)
  match m with
  | .host p => if inRange (lbRange s.committed p.val) n then put else s.bump (aMstLbCnt p.val 3) 1
  | .eosta => put

/-- LB_SVC_WRITE (R309, R314). -/
def execLbSvcWrite (m : Master) (svc : Fin 1024) (value : Word32) (s : State) : Host.Outcome State Fault Refusal :=
  s.atBus m fun s => s.lbSvc m svc.val value.toNat

end Sys2Proof.Machine
end

