-- ==== Sys2Proof/Machine/Time.lean ====
section
/-! DEFINITION. Network time: writes of the PTP counter (R422 to R425), the timestamp queues (R429), the time pins
(R433 to R437) and the equipment clock (R430 to R432). -/

namespace Sys2Proof.Machine

open Sys2Proof

/-! ### Readers and latches (R10) -/

/-- Number of a reader: partitions 0 to 3, and the Eosta port. -/
def readerOf (m : Master) : Nat :=
  match m with
  | .host p => p.val
  | .eosta => 4

def State.latched (s : State) (m : Master) (a : Nat) : Nat := (mget zero32 s.latch (readerOf m * 2 ^ 28 + a)).toNat

def State.setLatch (s : State) (m : Master) (a v : Nat) : State :=
  { s with latch := mset zero32 s.latch (readerOf m * 2 ^ 28 + a) (BitVec.ofNat 32 v) }

/-- Latch words for consecutive addresses. -/
def State.latchAll (s : State) (m : Master) (a : Nat) : List Nat → State
  | [] => s
  | v :: l => (s.setLatch m a v).latchAll m (a + 4) l

/-! ### Writes of the counter (R423) -/

/-- A write of a register word of the PTP block that partition 0 makes. -/
def State.ptpWrite (s : State) (m : Master) (a : Nat) (f : State → State) : State :=
  if masterIs m 0 then f s else s.denyMaster m 2 a

def PtpChange.isRate : PtpChange → Bool
  | .rate _ => true
  | _ => false

def PtpChange.isStep : PtpChange → Bool
  | .step _ => true
  | _ => false

/-- A rate and a step written in the same microsecond are case 13 of R484. -/
def clashes (g h : Nat) (c d : PtpChange) : Bool :=
  g / 4000 = h / 4000 && ((c.isRate && d.isStep) || (c.isStep && d.isRate))

/-- Request a change; the present GTC decides when it is applied. In case 13, free values say which of the two writes
stay. -/
def State.ptpPend (s : State) (c : PtpChange) : State :=
  let g := s.clk.gtc
  let old := s.ptp.pend
  if old.any (fun e => clashes e.1 g e.2 c) then
    let v := s.freeVal
    let kept := old.filter (fun e => v.getLsbD 0 || !clashes e.1 g e.2 c)
    { s.useFree with ptp := { s.ptp with pend := if v.getLsbD 1 then kept ++ [(g, c)] else kept } }
  else { s with ptp := { s.ptp with pend := old ++ [(g, c)] } }

/-- A write of PTP_RATE: the high word applies the 48 bits. -/
def State.rateWrite (s : State) (m : Master) (hi : Bool) (v : Nat) : State :=
  s.ptpWrite m (aPtpRate + 4 * natBool hi) fun s =>
    if hi then
      let s := s.setRegN (aPtpRate + 4) (v % 65536)
      s.ptpPend (.rate (BitVec.ofNat 48 (s.regN aPtpRate + v % 65536 * 2 ^ 32)).toInt)
    else s.setRegN aPtpRate v

/-- A write of PTP_STEP. -/
def State.stepWrite (s : State) (m : Master) (v : Nat) : State :=
  s.ptpWrite m aPtpStep fun s => s.ptpPend (.step (signed32 v))

/-- A write of a word of PTP_SET. -/
def State.setWrite (s : State) (m : Master) (w v : Nat) : State :=
  s.ptpWrite m (aPtpSet + 4 * w) fun s =>
    match w with
    | 0 => s.setRegN aPtpSet (v % 2 ^ 30)
    | 1 => s.setRegN (aPtpSet + 4) v
    | _ =>
      let s := s.setRegN (aPtpSet + 8) (v % 65536)
      if bitOf v 31 then
        s.ptpPend (.set (s.regN (aPtpSet + 4) + v % 65536 * 2 ^ 32) (s.regN aPtpSet))
      else s

/-- PTP_RATE_WRITE (R423). -/
def execPtpRateWrite (m : Master) (hi : Bool) (value : Word32) (s : State) : Host.Outcome State Fault Refusal :=
  s.atBus m fun s => s.rateWrite m hi value.toNat

/-- PTP_STEP_WRITE (R423). -/
def execPtpStepWrite (m : Master) (value : Word32) (s : State) : Host.Outcome State Fault Refusal :=
  s.atBus m fun s => s.stepWrite m value.toNat

/-- PTP_SET_WRITE (R423). -/
def execPtpSetWrite (m : Master) (word : Fin 3) (value : Word32) (s : State) : Host.Outcome State Fault Refusal :=
  s.atBus m fun s => s.setWrite m word.val value.toNat

/-- The GTC count at which a change written at g is applied. -/
def ptpDue (g : Nat) : Nat := (g / 4096 + 1) * 4096

/-- Apply one change at GTC count g. A step and a set restart the gate lists (R380). -/
def State.ptpChange (s : State) (g : Nat) (c : PtpChange) : State :=
  let t := s.ptpTotal g
  match c with
  | .rate r => { s with ptp := { s.ptp with total := t, at_ := g, rate := r } }
  | .step ns => (s.ptpStepped g (((t : Int) + ns * (nsUnit : Int)) % (ptpWrap : Int)).toNat).gatesRestart
  | .set secs ns =>
    let s := s.ptpStepped g (secs * secUnit + ns * nsUnit)
    { s with ptp := { s.ptp with set_ := true } }.gatesRestart

/-- PTP_CHANGE_APPLY (R423): what has been written is applied at the first multiple of 4 096 after it. -/
def execPtpChangeApply (s : State) : Host.Outcome State Fault Refusal :=
  match s.ptp.pend with
  | [] => .next s
  | (g, c) :: l =>
    if ptpDue g ≤ s.clk.gtc then .next ({ s with ptp := { s.ptp with pend := l } }.ptpChange (ptpDue g) c) else .next s

/-! ### Reads that latch or pop -/

/-- A read of word 0 of PTP_CAPTURE (R425). -/
def State.readCapture (s : State) (m : Master) : Nat × State :=
  let t := s.ptpNow
  let (secs, ns) := ptpSplit t
  (ptpFrac t, s.latchAll m (aPtpCapture + 4)
    [ns, secs % 2 ^ 32, secs / 2 ^ 32, s.clk.gtc % 2 ^ 32, s.clk.gtc / 2 ^ 32])

/-- Word 0 of PTP_TSQ (R448). -/
def TsqEntry.word (e : TsqEntry) : Nat := 2 ^ 31 + natBool e.dropped * 2 ^ 30 + e.port % 512 * 65536 + e.id % 65536

/-- A read of word 0 of PTP_TSQ[p] pops the oldest entry and latches its time (R429). -/
def State.popTsq (s : State) (p : Nat) : Nat × State :=
  match mget (fun _ => ([] : List TsqEntry)) s.ptp.tsq p with
  | [] => (0, s)
  | e :: l =>
    (e.word, { s with ptp := { s.ptp with
      tsq := mset (fun _ => []) s.ptp.tsq p l
      tsqLast := mset (fun _ => (0, 0)) s.ptp.tsqLast p (e.secs, e.ns) } })

/-- A read of word 0 of PTP_PPSIN (R433, R449). -/
def State.readPpsin (s : State) (m : Master) : Nat × State :=
  let (secs, ns) := ptpSplit s.ptp.ppsTotal
  let g := s.ptp.ppsGtc - 1
  (ns, s.latchAll m (aPtpPpsin + 4)
    [secs % 2 ^ 32, secs / 2 ^ 32 + s.ptp.ppsCnt % 65536 * 65536, g % 2 ^ 32, g / 2 ^ 32])

/-- A read of word 0 of PTP_TOD_RX (R437, R449). -/
def State.readTodRx (s : State) (m : Master) : Nat × State :=
  let bad := s.ptp.todBad % 2 ^ 32
  match s.ptp.todRx with
  | none => (0, s.latchAll m (aPtpTodRx + 4) [0, 0, 0, 0, bad])
  | some (b, g) =>
    let secs := beNat ((b.drop 4).take 6)
    let f := fun (i n : Nat) => beNat ((b.drop i).take n)
    (2 ^ 31 + f 12 1 * 65536 + f 10 2, s.latchAll m (aPtpTodRx + 4)
      [secs % 2 ^ 32, secs / 2 ^ 32 + f 13 1 * 2 ^ 16 + f 14 1 * 2 ^ 24, g % 2 ^ 32, g / 2 ^ 32, bad])

/-! ### Time pins -/

/-- PPS_IN_EDGE (R433). -/
def execPpsInEdge (s : State) : Host.Outcome State Fault Refusal :=
  if s.clk.run && (s.ptp.ppsGtc = 0 || decide (s.ptp.ppsGtc - 1 + 2000000000 ≤ s.clk.gtc)) then
    .next { s with ptp := { s.ptp with
      ppsTotal := s.ptpNow, ppsGtc := s.clk.gtc + 1, ppsCnt := (s.ptp.ppsCnt + 1) % 65536 } }
  else .next s

/-- PTP time less OFFSET, in units of 2^-58 ns. -/
def State.ppsTime (s : State) : Nat :=
  (((s.ptpNow : Int) - signed32 (s.regN (aPtpPpsout + 4)) * (nsUnit : Int)) % (ptpWrap : Int)).toNat

/-- PPS_OUT_EDGE (R434): at a whole second plus OFFSET, within 2.5 ns, no edge within 100 ms of the one before. -/
def execPpsOutEdge (s : State) : Host.Outcome State Fault Refusal :=
  let t := s.ppsTime
  if bitOf (s.regN aPtpPpsout) 31 && s.clk.run && decide (t % secUnit * 2 < 5 * nsUnit) &&
      (s.ptp.ppsSec = 0 || decide (s.ptp.ppsOutGtc + 400000000 ≤ s.clk.gtc)) then
    .next { s with ptp := { s.ptp with
      ppsSec := t / secUnit + 1, ppsOutGtc := s.clk.gtc, todDue := bitOf (s.regN aPtpTodTx) 31 } }
  else .next s

/-- Level of PPS_OUT: high for WIDTH µs from an edge on, low with EN = 0 (R434). -/
def State.ppsOut (s : State) : Bool :=
  bitOf (s.regN aPtpPpsout) 31 && s.ptp.ppsSec != 0 && decide (s.clk.gtc < s.ptp.ppsOutGtc + s.fld aPtpPpsout 0 19 * 4000)

/-- Frequency on FREQ_OUT in Hz, derived from the EEC; 0 is low (R435, R449). -/
def State.freqOut (s : State) : Nat :=
  if bitOf (s.regN aPtpFreqout) 31 then
    (match s.fld aPtpFreqout 0 2 with | 0 => 10000000 | 1 => 2048000 | _ => 1544000)
  else 0

/-- A time-of-day message for whole second `secs` (R436). -/
def State.todMessage (s : State) (secs : Nat) : List Byte :=
  let w0 := s.regN aPtpTodTx
  let w1 := s.regN (aPtpTodTx + 4)
  let flags := bitsOf w0 16 6 + 64 * natBool (!s.ptp.set_)
  let body := beBytes 1 1 ++ beBytes 1 12 ++ beBytes 6 secs ++ beBytes 2 (w0 % 65536) ++
    beBytes 1 flags ++ beBytes 1 (w1 % 256) ++ beBytes 1 (bitsOf w1 8 8) ++ beBytes 1 0
  beBytes 1 0x54 ++ beBytes 1 0x43 ++ body ++ beBytes 2 (crc16 body).toNat

/-- TOD_TX_MESSAGE (R436): 1 ms after a PPS_OUT edge. -/
def execTodTxMessage (s : State) : Host.Outcome State Fault Refusal :=
  if s.ptp.todDue && bitOf (s.regN aPtpTodTx) 31 && bitOf (s.regN aPtpPpsout) 31 &&
      decide (s.ptp.ppsOutGtc + 4000000 ≤ s.clk.gtc) then
    .next { s with ptp := { s.ptp with todDue := false, todSent := s.ptp.todSent ++ [s.todMessage (s.ptp.ppsSec - 1)] } }
  else .next s

/-- Does a received message have the format of R436 with type 0x01, length 12 and a right CRC? -/
def todOk (b : List Byte) : Bool :=
  decide (b.length = 18 ∧ beNat (b.take 4) = 0x5443010C) && decide (beNat (b.drop 16) = (crc16 ((b.drop 2).take 14)).toNat)

/-- TOD_RX_MESSAGE (R437), at the message's end; its first start bit came 1.5625 ms before. -/
def execTodRxMessage (bytes : List Byte) (s : State) : Host.Outcome State Fault Refusal :=
  if todOk bytes then .next { s with ptp := { s.ptp with todRx := some (bytes, s.clk.gtc - 6250000) } }
  else .next { s with ptp := { s.ptp with todBad := s.ptp.todBad + 1 } }

/-! ### The equipment clock -/

/-- A write of PTP_EEC_CFG (R430, R431): the EEC acquires the reference the write selects, and stays locked to one it
is locked to. -/
def State.eecWrite (s : State) (m : Master) (v : Nat) : State :=
  s.ptpWrite m aPtpEecCfg fun s =>
    let old := s.regN aPtpEecCfg
    let new := v &&& 0xCE0001FF
    let same := decide (putBits old 30 1 0 = putBits new 30 1 0) && s.ptp.eec = 2
    { s.setRegN aPtpEecCfg new with ptp := { s.ptp with eec := if bitOf new 31 then (if same then 2 else 1) else 0 } }

/-- EEC_CFG_WRITE (R431). -/
def execEecCfgWrite (m : Master) (value : Word32) (s : State) : Host.Outcome State Fault Refusal :=
  s.atBus m fun s => s.eecWrite m value.toNat

/-- EEC_LOCKED (R432, R449). The frequency measured is a free value (log 7). -/
def execEecLocked (s : State) : Host.Outcome State Fault Refusal :=
  if s.ptp.eec = 1 then
    let v := s.freeVal.truncate 32
    .next { (s.useFree.setReg aPtpEecFoff v) with ptp := { s.ptp with eec := 2 } }
  else .next s

/-- EEC_REFERENCE_LOSS (R431): holdover, and source 135 in partition 0. -/
def execEecReferenceLoss (s : State) : Host.Outcome State Fault Refusal :=
  if s.ptp.eec = 1 ∨ s.ptp.eec = 2 then .next ({ s with ptp := { s.ptp with eec := 3 } }.irq 0 135) else .next s

end Sys2Proof.Machine
end

