-- ==== Sys2Proof/Machine/Reads.lean ====
section
/-! DEFINITION. What a register reads as: stored words, counters, and the values units show of themselves; who may
read what (R454 to R458, R629, R648). -/

namespace Sys2Proof.Machine

open Sys2Proof

/-! ### Values that units show -/

/-- Accepted warm resets in the last 60 s (R499, R521). -/
def State.stormCount (s : State) : Nat :=
  (s.top.storm.filter (fun g => decide (s.clk.gtc < g + 60 * second))).length

/-- TOP_FW_STAT (R519). -/
def State.fwStat (s : State) : Nat :=
  natBool s.top.fw.isSome * 2 ^ 31 + s.top.fwm.pref % 2 * 2 ^ 30 + s.top.fwm.run % 2 * 2 ^ 29 +
    natBool s.top.fwm.ok1 * 2 ^ 28 + natBool s.top.fwm.ok0 * 2 ^ 27 + s.top.fwStatus % 256

/-- TSK_STATUS (R171). -/
def Race.status (x : Race) : Nat :=
  natBool x.paused * 2 ^ 31 + natBool x.pauseLeat * 2 ^ 30 + natBool x.pauseRob * 2 ^ 29 + natBool x.pauseNtq * 2 ^ 28 +
    min x.leat.length 256 * 2 ^ 19 + min x.ntq.length 1024

/-- MST_JNL_STATUS (R263): entries written since the CKPT_START of the current checkpoint. -/
def State.jnlFill (s : State) : Nat :=
  match s.mst.jnl.ring with
  | e :: l => if e.type = 5 then l.length else l.length + 1
  | [] => 0

def State.jnlStatus (s : State) : Nat :=
  natBool s.mst.jnl.ckpt.isSome * 2 ^ 31 + s.mst.jnl.area % 2 * 2 ^ 30 +
    natBool (s.mst.slices.any (fun e => !e.2.jwait.isEmpty)) * 2 ^ 29 + s.jnlFill % 2 ^ 22

/-- GATE_STATUS (R403). -/
def State.gateStatus (s : State) (n w : Nat) : Nat :=
  let x := s.portS n
  let secs := x.chg / secNs
  let ent := match x.at s.ptpNs with | some (_, i, _) => i | none => x.ent
  match w with
  | 0 => natBool x.op.en * 2 ^ 31 + natBool x.pend.isSome * 2 ^ 30 + ent % 512 * 65536 + x.gatesAt s.ptpNs % 256
  | 1 => x.chg % secNs
  | 2 => secs % 2 ^ 32
  | _ => secs / 2 ^ 32 % 65536

/-- PORT_STATUS (R444). -/
def State.portStatus (s : State) (n : Nat) : Nat :=
  let x := s.portS n
  let paused := ((upTo 8).map fun c => natBool (decide (s.clk.gtc < mget zeroN x.rxPause c)) * 2 ^ c).sum
  natBool x.link * 2 ^ 31 + x.pcs.toNat * 2 ^ 27 + x.pre % 4 * 2 ^ 25 + paused * 256 + min 255 x.linkDn

def dStream : Nat → Stream := fun _ => {}
def State.stream (s : State) (p k : Nat) : Stream := mget dStream s.coll.streams (2 * p + k)
def State.setStream (s : State) (p k : Nat) (x : Stream) : State :=
  { s with coll := { s.coll with streams := mset dStream s.coll.streams (2 * p + k) x } }

/-- CNT_STREAM (R554). -/
def Stream.word (x : Stream) (w : Nat) : Nat :=
  match w with
  | 0 => natBool x.en * 2 ^ 31 + natBool x.cfg.loc * 2 ^ 30 + natBool x.cfg.irq * 2 ^ 29 + x.cfg.period % 2 ^ 20
  | 1 => x.cfg.pages.length
  | 2 => x.seq % 2 ^ 32
  | _ => x.seq / 2 ^ 32

/-- CNT_SNAP_STAT (R555). -/
def State.snapStat (s : State) (w : Nat) : Nat :=
  let (pend, mode, at_) := match s.coll.snap with
    | some n => (1, n.mode, n.at_)
    | none => (0, 0, s.coll.lastAt)
  match w with
  | 0 => pend * 2 ^ 31 + natBool s.clk.frozen * 2 ^ 30 + mode % 4
  | 1 => at_ % 2 ^ 32
  | 2 => at_ / 2 ^ 32
  | _ => 0

/-- The partitions that hold a freeze (R546). -/
def State.freezeOf (s : State) (p : Nat) : Nat := mget zeroN s.evr.freeze p
def State.holders (s : State) : List Nat := (upTo 4).filter (fun p => decide (s.freezeOf p ≠ 0))
def State.ringFrozen (s : State) : Bool := !s.holders.isEmpty

/-- Oldest fault record held (R542). -/
def State.faultFirst (s : State) : Nat := s.evr.faultNext - 524288

/-- EVR_STATUS (R557). -/
def State.evrStatus (s : State) : Nat :=
  natBool s.ringFrozen * 2 ^ 31 + ((s.holders.map (fun p => 2 ^ (27 + p))).sum) + natBool s.evr.alarmFill * 2 ^ 26 +
    natBool s.evr.alarmRef * 2 ^ 25 + s.fld aEvrStatus 24 1 * 2 ^ 24 + s.evr.hold.length

/-- The nonce of EVR_CLEAR_SEC: two free values (R549; log 7). -/
def State.nonceNat (s : State) : Nat :=
  (Config.freeWord s.evr.nonce).toNat + (Config.freeWord (s.evr.nonce + 1)).toNat * 2 ^ 64

/-- Is activity c running (R596)? MNT_ACT[1] is index 0. -/
def State.mntRuns (s : State) (c : Nat) : Bool := decide (1 ≤ c ∧ c ≤ 12) && s.fld (aMntAct (c - 1)) 0 2 = 1

/-- Is a lockout in force (R627)? -/
def State.lockedOut (s : State) : Bool := match s.dbg.lockEnd with | some t => decide (s.evr.optime < t) | none => false

/-- Threads halted by the debug port (R639). -/
def State.threadsHalted (s : State) : Nat :=
  (s.threads.filter (fun e => e.2.halted.isSome)).length

/-- Is a device HALT pending or in force? -/
def State.devHalt (s : State) : Bool :=
  s.top.mode = .halt || match s.dbg.halt with | some h => h.enter | none => false

/-- DBG_STATUS (R639). -/
def State.dbgStatus (s : State) : Nat :=
  s.threadsHalted % 65536 * 65536 + natBool s.dbg.pins * 512 + natBool s.devHalt * 256 + s.dbg.fails % 8 * 8 +
    natBool s.lockedOut * 4 + s.dbg.level % 4

/-- The thread of DBG_THR_SEL, where it exists (R642). -/
def State.selThread (s : State) : Option Nat :=
  let v := s.regN aDbgThrSel
  let c := bitsOf v 7 4
  let e := bitsOf v 2 5
  if c < 12 ∧ e < 17 then some (((bitsOf v 11 4 * 12 + c) * 17 + e) * 4 + bitsOf v 0 2) else none

def HaltCause.code : HaltCause → Nat
  | .request => 0
  | .step => 1
  | .breakpoint i => 8 + i
  | .watchpoint i => 16 + i

/-- DBG_THR_STAT (R642). -/
def State.thrStat (s : State) : Nat :=
  let x := match s.selThread with | some n => s.thr n | none => {}
  let pc := match x.ctx with | some c => c.pc.toNat | none => 0
  let state := if x.ctx.isNone && x.svc.isNone then 0 else if x.halted.isSome then 3 else if x.ints.halt then 2 else 1
  let cause := match x.halted with | some h => h.code | none => 0
  state * 2 ^ 30 + cause * 2 ^ 24 + s.dbg.thrStatus % 256 * 65536 + pc

/-- PTP_CAPTURE, PTP_PPSIN and PTP_TOD_RX beyond the word whose read latches them read the latches (R425, R433, R437).
-/
def State.latchedRow (s : State) (m : Master) (b w : Nat) : Nat := s.latched m (b + 4 * w)

/-- Word w of the value register of base b shows, with array indices i and j, to reader m. -/
def State.shown (s : State) (m : Master) (b i j w : Nat) : Nat :=
  let wide := fun (v : Nat) => v / 2 ^ (32 * w) % 2 ^ 32
  let x := s.race i
  if b = aTopMode then modeCode s.top.prev * 16 + modeCode s.top.mode
  else if b = aTopModeGtc then wide s.top.modeGtc
  else if b = aTopGtc then wide s.clk.gtc
  else if b = aTopFwStat then s.fwStat
  else if b = aRstStorm then natBool (s.top.escalated && s.top.mode = .safe) * 2 ^ 31 + min 9 s.stormCount
  else if b = aUcsRomVersion then Config.romVersion.toNat
  else if b = aTskStatus 0 then x.status
  else if b = aTskDlyOcc 0 then x.dlyHeld
  else if b = aClsLpmOcc 0 then s.lpmHeld i (w = 1)
  else if b = aMstHeld 0 then (if w = 0 then s.heldN i else s.pheldN i)
  else if b = aMstJnlStatus then s.jnlStatus
  else if b = aMstJnlSeq then wide s.mst.jnl.seq
  else if b = aMstSliceStatus 0 then
    (if w = 0 then freeCount (s.slice i).free % 2 ^ 23
     else min 256 (s.missQ i) * 65536 + (s.stashUsed i).length)
  else if b = aEmtWalkStatus 0 then
    natBool ((upTo 17).any (s.restamping i)) * 2 ^ 31 + ((upTo 17).map (fun t => natBool (s.walk i t).isSome * 2 ^ t)).sum
  else if b = aEmtOcc 0 then (s.emStash i).length * 2 ^ 18 + (s.emUsed i).length
  else if b = aEmtHeld 0 0 then s.emHeld i j
  else if b = aHopPool then
    (match w with
     | 0 => s.freeCells
     | 1 => s.freeShared.toNat
     | 2 => min 4095 s.hop.quarPages * 2 ^ 20 + s.hop.quarCells
     | _ => runCount s.hop.pageRing + runCount s.hop.pageCache)
  else if b = aHopOwnUse 0 then
    (match w with
     | 0 => natBool (s.own i).pause * 2 ^ 31 + (s.own i).u
     | 1 => (s.own i).h
     | 2 => (s.own i).pages
     | _ => 0)
  else if b = aGateStatus 0 then s.gateStatus i w
  else if b = aPortStatus 0 then s.portStatus i
  else if b = aPtpCapture ∨ b = aPtpPpsin ∨ b = aPtpTodRx then s.latchedRow m b w
  else if b = aCntStream 0 0 then (s.stream i j).word w
  else if b = aCntSnapStat then s.snapStat w
  else if b = aEvrStatus then s.evrStatus
  else if b = aEvrFaultFirst then wide s.faultFirst
  else if b = aEvrFaultNext then wide s.evr.faultNext
  else if b = aEvrSecNext then s.evr.sec.length
  else if b = aEvrOptime then s.evr.optime % 3600 * 2 ^ 20 + s.evr.optime / 3600 % 2 ^ 20
  else if b = aEvrPcyc then s.evr.pcyc % 2 ^ 24
  else if b = aEvrClrNonce then wide s.nonceNat
  else if b = aMntRun then ((upTo 13).map (fun c => natBool (s.mntRuns c) * 2 ^ c)).sum
  else if b = aHstLink 0 then natBool (s.linkUp i) * 2 ^ 31 + mget zeroN s.host.resets i % 65536
  else if b = aDbgStatus then s.dbgStatus
  else if b = aDbgThrStat then s.thrStat
  else if b = aRaceRobStatus 0 then x.robMax % 8192 * 65536 + x.rob.length % 8192
  else 0

/-- What stored words show beside their bits. -/
def State.beside (s : State) (b i w : Nat) : Nat :=
  if b = aPtpStat then natBool s.ptp.set_ * 2 ^ 31 + s.ptp.steps % 65536
  else if b = aPtpStatLast then s.ptp.lastStep / 2 ^ (32 * w) % 2 ^ 32
  else if b = aPtpEecStat then s.ptp.eec % 4 * 2 ^ 30
  else if b = aPtpTsq 0 then
    let (secs, ns) := mget (fun _ => (0, 0)) s.ptp.tsqLast i
    match w with
    | 1 => ns
    | 2 => secs % 2 ^ 32
    | 3 => secs / 2 ^ 32
    | 4 => (mget (fun _ => ([] : List TsqEntry)) s.ptp.tsq i).length
    | _ => 0
  else if b = aPortMod 0 ∧ w = 1 then
    let x := s.modS i
    natBool x.run * 2 ^ 31 + natBool x.prs * 2 ^ 30 + natBool x.int * 2 ^ 29 + x.status % 256
  else if b = aUcsPatchStatus then natBool s.ucs.staged.isSome * 2 ^ 30 + s.ucs.cur % 2 * 2 ^ 29
  else if b = aUcsStest 0 then (if s.fld (aUcsStest i) 29 3 = 1 then s.stestSeg i - s.fld (aUcsStest i) 0 8 else 0)
  else if b = aDbgUnlock then s.dbg.uStatus % 256 * 256
  else if b = aDbgApCtl then s.dbg.apStatus % 256
  else if b = aDbgHaltCtl then s.dbg.haltStatus % 256
  else if b = aDbgReset then s.dbg.resetStatus % 256
  else if b = aDbgChal 0 then (match s.dbg.chal with | some (l, _) => leNat ((l.drop (4 * i)).take 4) | none => 0)
  else 0

/-- Word w of the register of a row, as it stands now. -/
def State.regValue (s : State) (m : Master) (r : RegRow) (is : List Nat) (w a : Nat) : Nat :=
  match r.kind with
  | .word => s.regN a + s.beside r.base (is.headD 0) w
  | .counter => s.count (a - 4 * w) / 2 ^ (32 * w) % 2 ^ 32
  | .writeOnly => 0
  | .derived =>
    -- EMT_HELD is indexed by partition and then by race
    if r.base = aEmtHeld 0 0 then s.shown m r.base (is.getD 1 0) (is.headD 0) w
    else s.shown m r.base (is.headD 0) (is.getD 1 0) w

/-! ### 64-bit registers (R10) -/

/-- Registers of 64 bits beside the counters. -/
def wideRegs : List Nat :=
  [aTopModeGtc, aTopGtc, aTopFwAddr, aMstSeed 0, aMstJnlSeq, aEmtSeed 0 0, aQshTaccAt 0, aGateStgEnt 0 0, aPtpStatLast, aEvrFaultFirst,
   aEvrFaultNext, aDbgApAddr, aDbgApData, aDbgHaltAt]

def RegRow.wide (r : RegRow) : Bool := r.kind = .counter || wideRegs.contains r.base

/-! ### Who may read -/

/-- Owner of a HOP_OWN index: a port-class pair, or a host pool (R324). -/
def State.hopOwnerOf (s : State) (o : Nat) : Nat := if o < 4096 then s.portOwner (o / 8) else (o - 4096) % 4

/-- May partition p read the register of a row? -/
def State.partReads (s : State) (p : Nat) (r : RegRow) (i : Nat) : Bool :=
  match r.rp with
  | .r_glob => true
  | .r_p0 => p = 0
  | .r_part => p = i
  | .r_own => p = 0 || p = i
  | .r_port => p = 0 || p = s.portOwner i
  | .r_mod => p = 0 || p = s.modOwner i
  | .r_hop => p = 0 || p = s.hopOwnerOf i
  | .r_seed => true
  | .r_dbg => false

/-- May the master read it? The Eosta port reads, in access space 0, what partitions 1 to 3 read as global status at
any level, and the rest at USER (R629). -/
def State.mayRead (s : State) (m : Master) (r : RegRow) (i : Nat) : Bool :=
  match m with
  | .host p => s.partReads p.val r i
  | .eosta => decide (1 ≤ s.dbg.level) || r.rp = .r_glob

/-- A partition from 1 to 3 reads the seeds as 0 (R652). -/
def hidesSeed (m : Master) (r : RegRow) : Bool :=
  match m with
  | .host p => r.rp = .r_seed && p.val != 0
  | .eosta => false

/-! ### Page images (R529) -/

/-- Registers whose read has an effect. -/
def effectReads : List Nat :=
  [aPtpCapture, aPtpPpsin, aPtpTodRx, aPtpTsq 0, aPortStatus 0, aRaceRobStatus 0, aHstDeny 0]

/-- Word at address a as the image of partition p holds it. -/
def State.imageWord (s : State) (p : Part) (a : Nat) : Nat :=
  match findReg a with
  | some (r, is, w) =>
    if s.partReads p.val r (is.headD 0) && !effectReads.contains r.base && !hidesSeed (.host p) r then
      s.regValue (.host p) r is w a
    else 0
  | none => 0

end Sys2Proof.Machine
end

