-- ==== Sys2Proof/Machine/Recorder.lean ====
section
/-! DEFINITION. The event recorder (R539 to R549): records, the fault ring with its holding buffer, the security class,
freezes, reads and the clear. -/

namespace Sys2Proof.Machine

open Sys2Proof

/-! ### Fuses -/

/-- `n` bytes of the fuses from word `base` on (log 8). -/
def fuseBytes (base n : Nat) : List Byte :=
  ((upTo ((n + 7) / 8)).flatMap (fun i => leBytes 8 (Config.fuse (base + i)).toNat)).take n

/-- Tichevan's key digest (R507), the clear-key digest (R549), the USER digest (R626), the identity key (R626). -/
def fuseVendor : List Byte := fuseBytes 64 64
def fuseClear : List Byte := fuseBytes 72 64
def fuseUser : List Byte := fuseBytes 80 64
def fuseIdentity : List Byte := fuseBytes 96 133

def blank (l : List Byte) : Bool := l.all (fun b => b = 0)

/-! ### Records -/

/-- The 32 bytes of a record (R539). -/
def EvRec.bytes (e : EvRec) : List Byte :=
  let body := leBytes 4 (e.secs / 3600 % 2 ^ 20 + e.secs % 3600 * 2 ^ 20) ++
    leBytes 4 (e.pcyc % 2 ^ 24 + natBool (decide (0x8000 ≤ e.code)) * 2 ^ 24 + natBool e.held * 2 ^ 25 +
      natBool e.commit * 2 ^ 26) ++
    leBytes 8 (e.gtc % 2 ^ 40 + e.src % 4096 * 2 ^ 40) ++ leBytes 8 e.detail ++ leBytes 2 e.code ++
    leBytes 2 (min e.rep 65535) ++ leBytes 2 0
  body ++ leBytes 2 (crc16 body).toNat

/-- The same source and code (R542). -/
def EvRec.same (a b : EvRec) : Bool := a.src = b.src && a.code = b.code

def EvRec.again (e : EvRec) : EvRec := { e with rep := min 65535 (e.rep + 1) }

def State.setEvr (s : State) (e : Evr) : State := { s with evr := e }

/-! ### The fault ring (R542, R547) -/

def dEvRec : Nat → EvRec := fun _ => { src := 0, code := 0, detail := 0, gtc := 0 }

/-- Write the next record of the ring over the oldest where it is full. -/
def State.ringAppend (s : State) (e : EvRec) : State :=
  let x := s.evr
  let kept := if x.faultNext < 524288 then x.fault else merase x.fault (x.faultNext - 524288)
  let ring := minsert x.faultNext e kept
  (s.setEvr { x with fault := ring, faultNext := x.faultNext + 1 }).occur 106 0x010 1

/-- Append the holding buffer to the ring. -/
def State.holdDrain (s : State) : State :=
  s.evr.hold.foldl (fun s e => s.ringAppend e) (s.setEvr { s.evr with hold := [] })

/-- The last record of a source since the current start that the ring holds: its number and contents. -/
def State.lastOf (s : State) (src : Nat) : Option (Nat × EvRec) :=
  (s.evr.fault.filter (fun e => decide (s.evr.startNext ≤ e.1 ∧ e.2.src = src))).getLast?

/-- A fault record while the ring is not frozen: it raises REPEAT of its source's last record, or is written. -/
def State.ringPutRec (s : State) (e : EvRec) : State :=
  let s := s.holdDrain
  match s.lastOf e.src with
  | some (n, o) =>
    if o.code = e.code then s.setEvr { s.evr with fault := minsert n o.again (merase s.evr.fault n) }
    else s.ringAppend e
  | none => s.ringAppend e

/-- Repeat the last record of its source in the holding buffer, where it has the same code. -/
def holdRepeat (l : List EvRec) (e : EvRec) : Option (List EvRec) :=
  match (l.filter (fun o => decide (o.src = e.src))).getLast? with
  | some o =>
    if o.code = e.code then
      let i := l.length - 1 - (l.reverse.findIdx (fun x => decide (x.src = e.src)))
      some (l.take i ++ [o.again] ++ l.drop (i + 1))
    else none
  | none => none

/-- A fault record while the ring is frozen (R547). -/
def State.holdPut (s : State) (e : EvRec) : State :=
  match holdRepeat s.evr.hold e with
  | some l => s.setEvr { s.evr with hold := l }
  | none =>
    if s.evr.hold.length < 4096 then s.setEvr { s.evr with hold := s.evr.hold ++ [{ e with held := true }] }
    else
      let s := (s.bump aEvrHoldOvf 1).setFld aEvrStatus 24 1 1
      s.holders.foldl (fun s p => s.irq p 138) s

/-! ### The security class (R543) -/

def secSlots : Nat := 1572864

def State.secPut (s : State) (e : EvRec) : State :=
  let x := s.evr
  if x.sec.length < secSlots then
    let s := (s.setEvr { x with sec := x.sec ++ [e] }).occur 106 0x010 1
    if x.sec.length + 1 = 1474560 then (s.setEvr { s.evr with alarmFill := true }).irq 0 138 else s
  else
    let first := decide (s.count aEvrSecRefused = 0)
    let s := s.bump aEvrSecRefused 1
    if first then (s.setEvr { s.evr with alarmRef := true }).irq 0 138 else s

/-- EVENT_RECORD (R542 to R547): the recorder takes the oldest record of its input queue. -/
def execEventRecord (s : State) : Host.Outcome State Fault Refusal :=
  match s.evr.inq with
  | [] => .next s
  | e :: l =>
    let s := s.setEvr { s.evr with inq := l }
    let e := { e with commit := e.commit || decide (s.top.mode = .commit) }
    .next (if 0x8000 ≤ e.code then s.secPut e else if s.ringFrozen then s.holdPut e else s.ringPutRec e)

/-! ### Freezes (R546, R547) -/

/-- End the freeze of p; the records appended where it was the last. -/
def State.thaw (s : State) (p : Nat) : Nat × State :=
  let s := s.setEvr { s.evr with freeze := mset zeroN s.evr.freeze p 0 }
  if s.ringFrozen then (0, s)
  else
    let n := s.evr.hold.length
    (n, (s.setEvr { s.evr with frozenSince := 0 }).holdDrain)

/-- EVR_FREEZE (R546). -/
def execEvrFreeze (h : HostCmd) (s : State) : Host.Outcome State Fault Refusal :=
  s.cmdB h 0x50 fun c s =>
    let x := s.evr
    if x.frozenSince ≠ 0 ∧ x.frozenSince - 1 + 5 * second ≤ s.clk.gtc then s.cmdDone c stBusy 0
    else
      let s := s.setEvr { x with
        freeze := mset zeroN x.freeze c.part (s.clk.gtc + 1)
        frozenSince := if x.frozenSince = 0 then s.clk.gtc + 1 else x.frozenSince }
      s.cmdDone c stOk (s.clk.gtc + x.faultNext * 2 ^ 64)

/-- EVR_THAW (R546, R547). -/
def execEvrThaw (h : HostCmd) (s : State) : Host.Outcome State Fault Refusal :=
  s.cmdB h 0x51 fun c s =>
    if s.freezeOf c.part = 0 then s.cmdDone c stNotFound 0
    else
      let (n, s) := s.thaw c.part
      s.cmdDone c stOk n

/-- EVR_FREEZE_EXPIRE (R546): the freezes 10 s old end. -/
def execEvrFreezeExpire (s : State) : Host.Outcome State Fault Refusal :=
  .next ((s.holders.filter (fun p => decide (s.freezeOf p - 1 + 10 * second ≤ s.clk.gtc))).foldl
    (fun s p => (s.thaw p).2.irq p 138) s)

/-! ### Reads (R545, R548) -/

/-- Records n to n + k - 1 of a class. -/
def State.evRecs (s : State) (cls n k : Nat) : List EvRec :=
  if cls = 1 then (s.evr.sec.drop n).take k else (upTo k).map (fun i => mget dEvRec s.evr.fault (n + i))

/-- EVR_READ (R548). -/
def execEvrRead (h : HostCmd) (s : State) : Host.Outcome State Fault Refusal :=
  s.cmdB h 0x52 fun c s =>
    let cls := h.op 0 1
    if cls = 1 ∧ c.part ≠ 0 then s.cmdDone c stDenied 0
    else if 1 < cls ∨ h.op 1 7 ≠ 0 ∨ h.op 16 2 = 0 ∨ 4096 < h.op 16 2 ∨ h.op 18 6 ≠ 0 then s.cmdDone c stReject 0
    else
      let first := if cls = 1 then 0 else s.faultFirst
      let last := if cls = 1 then s.evr.sec.length else s.evr.faultNext
      let n := max (h.op 8 8) first
      let k := min (h.op 16 2) (last - n)
      let s := s.hostWrite c.part (h.op 24 8) ((s.evRecs cls n k).flatMap EvRec.bytes)
      s.cmdDone c stOk (n + k * 2 ^ 64)

/-! ### The clear (R549) -/

/-- A new EVR_CLR_NONCE: the next two free values. -/
def State.newNonce (s : State) : State :=
  { s with evr := { s.evr with nonce := s.clk.free }, clk := { s.clk with free := s.clk.free + 2 } }

/-- Does the block authorise a clear of `n` records? -/
def State.clearOk (s : State) (b : List Byte) : Bool :=
  let key := b.take 133
  let digest := Config.sha512 key
  let want := if blank fuseClear then fuseVendor else fuseClear
  Config.ecdsaOk key (leBytes 16 s.nonceNat ++ leBytes 8 s.evr.sec.length) ((b.drop 136).take 132) && digest == want

/-- EVR_CLEAR_SEC (R549). -/
def execEvrClearSec (h : HostCmd) (s : State) : Host.Outcome State Fault Refusal :=
  .next (s.startCmd h 0x53 .foreground (h.part.val = 0) (modeB s.top.mode) fun c s =>
    let ok := s.clearOk (s.hostRead c.part (h.op 0 8) 268)
    let n := s.evr.sec.length
    let s := s.newNonce.dmaRead 268
    if ok then
      let e : EvRec := { src := srcWindshaft, code := 0x8020, detail := n, gtc := s.clk.gtc, secs := s.evr.optime,
                         pcyc := s.evr.pcyc }
      let s := s.setEvr { s.evr with sec := [e], alarmFill := false, alarmRef := false }
      ({ s with cnt := mset zeroN s.cnt aEvrSecRefused 0 }.occur 106 0x010 1).cmdDone c stOk 0
    else
      let s := s.bump aEvrClrFail 1
      let s := if n < secSlots then s.eventAny srcWindshaft 0x8021 else s
      s.cmdDone c stReject 0)

end Sys2Proof.Machine
end

