-- ==== Sys2Proof/Machine/Counters.lean ====
section
/-! DEFINITION. The counter collector (R528 to R538): pages, dump streams, snapshots and freezes. -/

namespace Sys2Proof.Machine

open Sys2Proof

/-! ### Pages (R528 to R530) -/

def isQueuePage (id : Nat) : Bool := decide (2 ^ 31 ≤ id)

/-- Word addresses of a register page. -/
def pageWords (id : Nat) : List Nat := (upTo 1024).map (fun i => id * 4096 + 4 * i)

def isCounterAt (a : Nat) : Bool := match findReg a with | some (r, _, _) => r.kind = .counter | none => false

/-- Is a page identifier valid (R528)? -/
def pageValid (id : Nat) : Bool :=
  if isQueuePage id then decide (id - 2 ^ 31 ≤ 8319) else decide (id < 65536) && (pageWords id).any isCounterAt

/-- Does a valid page hold something that p may read? -/
def State.pageReadable (s : State) (p : Part) (id : Nat) : Bool :=
  if isQueuePage id then (upTo 32).any fun j => s.ownsQueue p.val (32 * (id - 2 ^ 31) + j)
  else
    (pageWords id).any fun a =>
      match findReg a with
      | some (r, is, _) => s.partReads p.val r (is.headD 0)
      | none => false

/-- The statistics slot of queue q (R530). -/
def State.queueSlot (s : State) (p : Part) (q : Nat) : List Byte :=
  let mine := s.ownsQueue p.val q
  leBytes 4 q ++ leBytes 4 (natBool mine) ++ leBytes 24 0 ++
    (upTo 24).flatMap (fun w => leBytes 4 (if mine then s.tabRead 9 q w else 0))

/-- The image of a page for partition p. -/
def State.pageImage (s : State) (p : Part) (id : Nat) : List Byte :=
  if isQueuePage id then (upTo 32).flatMap (fun j => s.queueSlot p (32 * (id - 2 ^ 31) + j))
  else (pageWords id).flatMap (fun a => leBytes 4 (s.imageWord p a))

/-! ### Buffers (R531, R533) -/

/-- Bytes of the header and the directory of N pages, whole pages. -/
def dirBytes (n : Nat) : Nat := (64 + 4 * n + 4095) / 4096 * 4096

/-- B of R531. -/
def bufBytes (n : Nat) : Nat := dirBytes n + 4096 * n

/-- The header of a buffer. -/
def dumpHeader (p k : Nat) (frozen snap : Bool) (seq first last period n skipped : Nat) : List Byte :=
  leBytes 4 0x43444D50 ++ leBytes 1 (p % 4 + 4 * (k % 2) + 8 * natBool frozen + 16 * natBool snap) ++ leBytes 3 0 ++
    leBytes 8 seq ++ leBytes 8 first ++ leBytes 8 last ++ leBytes 4 period ++ leBytes 4 n ++ leBytes 8 skipped ++
    leBytes 8 0 ++ leBytes 8 seq

/-- Directory and page images, after the header. -/
def State.dumpBody (s : State) (p : Part) (pages : List Nat) : List Byte :=
  let dir := pages.flatMap (leBytes 4)
  dir ++ List.replicate (dirBytes pages.length - 64 - dir.length) 0 ++ pages.flatMap (s.pageImage p)

/-- Write into the area of a stream: DRAM, or host memory. -/
def State.streamWrite (s : State) (p : Nat) (c : DumpCfg) (off : Nat) (l : List Byte) : State :=
  if c.loc then s.hostWrite p (c.base + off) l else s.dramWrite (dumpRegion + c.base + off) l

/-- Start of buffer n mod 2. -/
def DumpCfg.buf (c : DumpCfg) (n : Nat) : Nat := n % 2 * bufBytes c.pages.length

/-! ### DUMP_CFG (R532, R538) -/

/-- A sub-region of partition p in bytes: 0 dump, 1 telemetry; first byte and the byte behind (R488). -/
def State.subRegion (s : State) (p k : Nat) : Nat × Nat :=
  let w := s.regN (aHstDsub p + 4 * k)
  (bitsOf w 0 12 * 2 ^ 20, (bitsOf w 16 12 + 1) * 2 ^ 20)

/-- Does an area lie wholly in a sub-region? -/
def State.inSub (s : State) (p k base size : Nat) : Bool :=
  let (lo, hi) := s.subRegion p k
  decide (lo ≤ base ∧ base + size ≤ hi)

/-- May partition p enable stream 1 with these pages (R538)? -/
def State.userMay (s : State) (p : Nat) (pages : List Nat) : Bool :=
  let v := s.regN (aCntUserRead p)
  bitOf v 31 && pages.all fun id => bitOf v (natBool (isQueuePage id))

def ascending : List Nat → Bool
  | a :: b :: l => decide (a < b) && ascending (b :: l)
  | _ => true

/-- Bytes a second of a stream. -/
def streamRate (b period : Nat) : Rat := (b * 1000000 : Nat) / (period : Rat)

/-- Sum of the rates of the enabled streams other than (p, k). -/
def State.otherRates (s : State) (p k : Nat) : Rat :=
  ((s.coll.streams.filter (fun e => e.2.en && e.1 != 2 * p + k)).map
    (fun e => streamRate (bufBytes e.2.cfg.pages.length) e.2.cfg.period)).sum

/-- First multiple of `m` at or above `g`. -/
def nextMultiple (m g : Nat) : Nat := (g + m - 1) / m * m

/-- DUMP_CFG (R531, R532). -/
def execDumpCfg (h : HostCmd) (s : State) : Host.Outcome State Fault Refusal :=
  s.cmdB h 0x41 fun c s =>
    let p := c.part
    let k := h.op 0 1
    let n := h.op 20 2
    let period := h.op 4 4
    let base := h.op 8 8
    let b := bufBytes n
    let cfg : DumpCfg :=
      { loc := bitOf (h.op 1 1) 1, irq := bitOf (h.op 1 1) 2, period := period, base := base
        pages := if n ≤ 16384 then (upTo n).map (fun i => s.hostLe p (h.op 24 8 + 4 * i) 4) else [] }
    let s := s.dmaRead (if bitOf (h.op 1 1) 0 then 4 * cfg.pages.length else 0)
    if !bitOf (h.op 1 1) 0 then
      if 1 < k then s.cmdDone c stReject 0
      else (s.setStream p k { s.stream p k with en := false }).cmdDone c stOk b
    else if (k = 1 ∧ !s.userMay p cfg.pages) ∨ cfg.pages.any (fun id => pageValid id && !s.pageReadable h.part id) then
      s.cmdDone c stDenied 0
    else if 1 < k ∨ 8 ≤ h.op 1 1 ∨ h.op 2 2 ≠ 0 ∨ period < 1000 ∨ 1000000 < period ∨ n = 0 ∨ 16384 < n ∨ h.op 22 2 ≠ 0 ∨
        !ascending cfg.pages ∨ !cfg.pages.all pageValid ∨ base % 4096 ≠ 0 ∨ h.op 16 4 < 2 * b ∨
        (!cfg.loc ∧ !s.inSub p 0 base (h.op 16 4)) then s.cmdDone c stReject 0
    else if s.otherRates p k + streamRate b period > 16000000000 then s.cmdDone c stFull 0
    else
      let s := [0, b].foldl (fun s o =>
        (s.streamWrite p cfg (o + 8) (leBytes 8 0)).streamWrite p cfg (o + 0x38) (leBytes 8 0)) s
      let x := s.stream p k
      (s.setStream p k { en := true, cfg := cfg, first := nextMultiple (period * 4000) (s.clk.gtc + 40000),
                         next := 1, seq := 0, skipped := 0, run := x.run }).cmdDone c stOk b

/-! ### Dumps (R533) -/

/-- Does the collector work? -/
def State.collects (s : State) : Bool := s.clk.run && s.top.mode != .halt

/-- DUMP_DUE (R533): dump n starts with its SEQ_BEGIN, or is skipped where the one before has not ended. -/
def execDumpDue (part : Part) (stream : Fin 2) (s : State) : Host.Outcome State Fault Refusal :=
  let p := part.val
  let k := stream.val
  let x := s.stream p k
  if s.collects && x.en && decide (x.first + (x.next - 1) * (x.cfg.period * 4000) ≤ s.clk.gtc) then
    match x.run with
    | some _ =>
      .next ((s.setStream p k { x with next := x.next + 1, skipped := x.skipped + 1 }).bump (aCntCollCnt 1) 1)
    | none =>
      let s := s.setStream p k { x with next := x.next + 1, run := some (x.next, x.cfg, s.clk.gtc) }
      .next (s.streamWrite p x.cfg (x.cfg.buf x.next + 8) (leBytes 8 x.next))
  else .next s

/-- A periodic dump restarts DMIN and DMAX of the queues it holds (R386, R533). -/
def State.restartDelays (s : State) (p : Nat) (pages : List Nat) : State :=
  let qs := pages.filter isQueuePage
  { s with eg := { s.eg with queues := (s.eg.queues.filterMap fun e =>
      let q := if qs.contains (2 ^ 31 + e.1 / 32) && s.ownsQueue p e.1 then
          { e.2 with stat := { e.2.stat with dmin := 0xFFFFFFFF, dmax := 0 } }
        else e.2
      if q = dQueue e.1 then none else some (e.1, q)) } }

/-- DUMP_COMPLETE (R533): the images, read now, the header, and SEQ_END. -/
def execDumpComplete (part : Part) (stream : Fin 2) (s : State) : Host.Outcome State Fault Refusal :=
  let p := part.val
  let k := stream.val
  let x := s.stream p k
  match x.run with
  | none => .next s
  | some (n, c, _) =>
    if s.collects then
      let len := c.pages.length
      let hdr := dumpHeader p k s.clk.frozen false n s.clk.gtc s.clk.gtc c.period len x.skipped
      let s := s.streamWrite p c (c.buf n) (hdr ++ s.dumpBody part c.pages)
      let s := s.setStream p k { x with run := none, seq := n }
      let s := (s.bump (aCntCollCnt 0) 1).bump (aCntCollCnt 3) len
      let s := if k = 0 then s.restartDelays p c.pages else s
      .next (if c.irq then s.irq p 139 else s)
    else .next s

/-! ### Snapshots and freezes (R535 to R537) -/

/-- SNAPSHOT (R535). -/
def execSnapshot (h : HostCmd) (s : State) : Host.Outcome State Fault Refusal :=
  .next (s.startCmd h 0x40 .background true (modeB s.top.mode) fun c s =>
    let mode := h.op 0 1
    let at_ := h.op 8 8
    let x := s.stream c.part 0
    let g := s.clk.gtc
    if (mode = 1 ∨ mode = 2) ∧ c.part ≠ 0 then s.cmdDone c stDenied 0
    else if 2 < mode ∨ h.op 1 7 ≠ 0 ∨ h.op 28 4 ≠ 0 ∨
        (mode = 0 ∧ (!x.en ∨ h.op 24 4 < bufBytes x.cfg.pages.length)) ∨
        (mode = 1 ∧ s.clk.frozen) ∨ (mode = 2 ∧ !s.clk.frozen) ∨
        (at_ ≠ 0 ∧ (at_ < g + 8000 ∨ g + 10 * second < at_)) then s.cmdDone c stReject 0
    else if s.coll.snap.isSome then s.cmdDone c stBusy 0
    else
      let t := if at_ = 0 then nextMultiple 4096 (g + 8000) else at_
      { s.cmdAccept c with coll := { s.coll with snap := some { mode := mode, at_ := t, dest := h.op 16 8, ref := c } } })

/-- The pending SNAPSHOT ends with OK and its AT. -/
def State.snapDone (s : State) (n : Snap) : State :=
  { s with coll := { s.coll with snap := none, lastAt := n.at_ } }.cmdDone n.ref stOk n.at_

/-- The pending SNAPSHOT of a MODE whose AT has come. -/
def State.snapDue (s : State) (mode : Nat) : Option Snap :=
  match s.coll.snap with
  | some n => if n.mode = mode ∧ n.at_ ≤ s.clk.gtc ∧ s.collects then some n else none
  | none => none

/-- SNAPSHOT_LATCH (R536). -/
def execSnapshotLatch (s : State) : Host.Outcome State Fault Refusal :=
  match s.snapDue 0 with
  | none => .next s
  | some n =>
    let part : Part := Fin.ofNat 4 n.ref.part
    let x := s.stream n.ref.part 0
    let len := x.cfg.pages.length
    let hdr := dumpHeader n.ref.part 0 s.clk.frozen true 0 n.at_ n.at_ x.cfg.period len x.skipped
    let s := if n.ref.epoch = s.epoch n.ref.part then s.hostWrite n.ref.part n.dest (hdr ++ s.dumpBody part x.cfg.pages) else s
    .next (((s.bump (aCntCollCnt 2) 1).bump (aCntCollCnt 3) len).snapDone n)

/-- COUNTER_FREEZE (R537): from AT on no counter changes. -/
def execCounterFreeze (s : State) : Host.Outcome State Fault Refusal :=
  match s.snapDue 1 with
  | some n => .next ({ s with clk := { s.clk with frozen := true } }.snapDone n)
  | none => .next s

/-- COUNTER_UNFREEZE (R537). -/
def execCounterUnfreeze (s : State) : Host.Outcome State Fault Refusal :=
  match s.snapDue 2 with
  | some n => .next ({ s with clk := { s.clk with frozen := false } }.snapDone n)
  | none => .next s

end Sys2Proof.Machine
end

