-- ==== Sys2Proof/Machine/HostDma.lean ====
section
/-! DEFINITION. Doorbells, transmit and receive rings, host buffers, partition resets and links of the hosts (R332,
R334, R347 to R351, R450, R457, R470 to R473, R482). -/

namespace Sys2Proof.Machine

open Sys2Proof

/-! ### Doorbells (R457) -/

/-- Does the endpoint take doorbells and serve DMA (R482, R635)? -/
def State.doorOk (s : State) (p : Nat) : Bool := s.linkUp p && !s.inPreset p && s.top.mode != .halt

def State.doorIgnored (s : State) (p : Nat) : State := s.bump (aHstPcnt p 1) 1

/-- Difference of free-running 16-bit counts. -/
def sub16 (a b : Nat) : Nat := (a % 65536 + 65536 - b % 65536) % 65536

/-- The opcodes of R466. -/
def opcodes : List Nat :=
  [0x01, 0x02, 0x03, 0x04, 0x10, 0x11, 0x12, 0x13, 0x14, 0x15, 0x16, 0x20, 0x21, 0x22, 0x23, 0x24, 0x30, 0x31, 0x40,
   0x41, 0x50, 0x51, 0x52, 0x53, 0x60, 0x61, 0x62, 0x70, 0x71, 0x80, 0x81, 0x90, 0xA0, 0xA1]

/-- Descriptors at the front of a ring whose opcode is unknown complete with BADCMD (R465). An opcode of 0 stands for
a descriptor whose contents come with its command (log 3). -/
def State.badHeads (s : State) (p i : Nat) : Nat → State
  | 0 => s
  | f + 1 =>
    let n := s.cmdCi p i
    let a := aHstCmdq p i
    let b := s.hostRead p (s.regN a + s.regN (a + 4) * 2 ^ 32 + 64 * (n % s.cmdSize p i)) 8
    let op := leNat (b.take 1)
    if s.mayStart p i .foreground ∧ op ≠ 0 ∧ !opcodes.contains op then
      let c : CmdRef := { part := p, ring := i, tag := leNat (b.drop 4), opcode := op, slot := n % s.cmdSize p i,
                          irq := bitOf (leNat ((b.drop 1).take 1)) 0, epoch := s.epoch p }
      let s := (s.setRegN (a + 24) ((n + 1) % 65536)).occur 105 0x010 1
      ((s.dmaRead 64).cmdDone c stBadCmd 0).badHeads p i f
    else s

/-- A PI doorbell of command ring i of p. -/
def State.piDoor (s : State) (p i v : Nat) : State :=
  let v := v % 65536
  if !s.doorOk p ∨ !s.cmdOn p i then s
  else if s.cmdSize p i < sub16 v (s.cmdCh p i) then s.doorIgnored p
  else (s.setRegN (aHstCmdq p i + 20) v).badHeads p i (s.cmdSize p i)

/-- A CH doorbell of it. -/
def State.chDoor (s : State) (p i v : Nat) : State :=
  let v := v % 65536
  if !s.doorOk p ∨ !s.cmdOn p i then s
  else if s.cmdSize p i < sub16 (s.cmdPi p i) v then s.doorIgnored p
  else s.setRegN (aHstCmdq p i + 28) v

/-- CMD_PI_DOORBELL (R457). -/
def execCmdPiDoorbell (part : Part) (ring : Fin 4) (value : Word32) (s : State) : Host.Outcome State Fault Refusal :=
  .next (s.piDoor part.val ring.val value.toNat)

/-- CMD_CH_DOORBELL (R457). -/
def execCmdChDoorbell (part : Part) (ring : Fin 4) (value : Word32) (s : State) : Host.Outcome State Fault Refusal :=
  .next (s.chDoor part.val ring.val value.toNat)

/-- A DMA ring by the address of its registers: EN, entries, TAIL, HEAD, BASE (R490). -/
def State.dmaOn (s : State) (a : Nat) : Bool := bitOf (s.regN (a + 8)) 31
def State.dmaSize (s : State) (a : Nat) : Nat := 2 ^ s.fld (a + 8) 0 4
def State.dmaTail (s : State) (a : Nat) : Nat := s.regN (a + 12)
def State.dmaHead (s : State) (a : Nat) : Nat := s.regN (a + 16)
def State.dmaAddr (s : State) (a n : Nat) : Nat := s.regN a + s.regN (a + 4) * 2 ^ 32 + 32 * (n % s.dmaSize a)

/-- A TAIL doorbell of a DMA ring. -/
def State.tailDoor (s : State) (p a v : Nat) : State :=
  if !s.doorOk p ∨ !s.dmaOn a then s
  else if s.dmaSize a < sub16 v (s.dmaHead a) then s.doorIgnored p
  else s.setRegN (a + 12) (v % 65536)

/-- A write at an offset of BAR4: the doorbell that the table of R457 lists there, else nothing. -/
def State.bar4Write (s : State) (p off v : Nat) : State :=
  if off % 4 ≠ 0 then s
  else if off < 0x20 then (if off % 8 = 0 then s.piDoor p (off / 8) v else s.chDoor p (off / 8) v)
  else if 0x100 ≤ off ∧ off < 0x200 then s.tailDoor p (aHstRxq p ((off - 0x100) / 4)) v
  else if 0x200 ≤ off ∧ off < 0x300 then s.tailDoor p (aHstTxq p ((off - 0x200) / 4)) v
  else s

/-- RX_TAIL_DOORBELL (R457). -/
def execRxTailDoorbell (part : Part) (ring : Fin 64) (value : Word32) (s : State) : Host.Outcome State Fault Refusal :=
  .next (s.tailDoor part.val (aHstRxq part.val ring.val) value.toNat)

/-- TX_TAIL_DOORBELL (R457). -/
def execTxTailDoorbell (part : Part) (ring : Fin 64) (value : Word32) (s : State) : Host.Outcome State Fault Refusal :=
  .next (s.tailDoor part.val (aHstTxq part.val ring.val) value.toNat)

/-! ### Host buffers (R347 to R351) -/

/-- Size of a buffer of a kind: 0 cell, 1 page. -/
def bufSize (kind : Nat) : Nat := if kind = 0 then 256 else 4096

/-- State word of the buffer a handle names. -/
def State.bufAt (s : State) (h : Nat) : CellSt := if bitOf h 31 then s.page (h % 2 ^ 23) else s.cell (h % 2 ^ 23)

/-- A handle is well formed. -/
def handleOk (h : Nat) : Bool := bitsOf h 23 8 = 0 && (bitOf h 31 || decide (h % 2 ^ 23 < 786432))

/-- Is the buffer held by p through BUF_ALLOC? -/
def State.holdsBuf (s : State) (p h : Nat) : Bool := (s.bufAt h).host && decide ((s.bufAt h).ownp = p)

/-- Grant n pages as one request (R332, R344, R348). -/
def State.pagesAll (s : State) (o ownp : Nat) : Nat → Option (List Nat × State)
  | 0 => some ([], s)
  | n + 1 =>
    match s.takePage o ownp true with
    | none => none
    | some (k, s1) =>
      match s1.pagesAll o ownp n with
      | none => none
      | some (ks, s2) => some (k :: ks, s2)

def noBytes : Nat → List Byte := fun _ => []

/-- Cut bytes into pieces of n. Fuel: the number of pieces. -/
def piecesOf (n : Nat) : Nat → List Byte → List (List Byte)
  | 0, _ => []
  | f + 1, l => l.take n :: piecesOf n f (l.drop n)

/-- Buffers granted: their contents, their handles at RESADDR, and the completion (R348). -/
def State.bufGranted (s : State) (c : CmdRef) (kind len src res : Nat) (l : List Nat) : State :=
  let hs := l.map (fun k => k + kind * 2 ^ 31)
  let data := if src = 0 then [] else s.hostRead c.part src len
  let bufs := (hs.zip (piecesOf (bufSize kind) l.length data)).foldl (fun m e => mset noBytes m e.1 e.2) s.host.bufs
  let s := { s with host := { s.host with bufs := bufs } }.dmaRead (if src = 0 then 0 else len)
  (s.hostWrite c.part res (hs.flatMap (leBytes 4))).cmdDone c stOk l.length

/-- The decision on the cells of a BUF_ALLOC, all or none (R332, R334, R348). -/
def State.allocDecide (s : State) (c : CmdRef) (n len src res : Nat) : State :=
  match s.grantAll (4096 + c.part) c.part true n false with
  | .inl (l, s1) => s1.bufGranted c 0 len src res l
  | .inr i => (s.bump (aHopCnt i) 1).cmdDone c stEmpty 0

/-- BUF_ALLOC (R347, R348): cells are asked of the Hopper, which decides in key order (R331). -/
def execBufAlloc (h : HostCmd) (s : State) : Host.Outcome State Fault Refusal :=
  s.cmdA h 0x80 fun c s =>
    let kind := h.op 0 1
    let n := h.op 1 1
    let len := h.op 16 4
    let o := 4096 + c.part
    if 1 < kind ∨ n = 0 ∨ 64 < n ∨ h.op 2 6 ≠ 0 ∨ h.op 20 4 ≠ 0 ∨ n * bufSize kind < len then s.cmdDone c stReject 0
    else if kind = 0 then
      (s.cmdRuns c).askHopper islHost (srcHost c.part) o (.alloc c n len (h.op 8 8) (h.op 24 8))
    else
      match s.pagesAll o c.part n with
      | some (l, s1) => s1.bufGranted c kind len (h.op 8 8) (h.op 24 8) l
      | none => (s.bump (aHopCnt 4) 1).cmdDone c stEmpty 0

/-- A buffer returns to its free ring; its contents are gone. -/
def State.bufReturn (s : State) (h : Nat) : State :=
  let s := if bitOf h 31 then s.freePage (h % 2 ^ 23) else s.freeCell (h % 2 ^ 23)
  { s with host := { s.host with bufs := mset noBytes s.host.bufs h [] } }

/-- BUF_FREE (R347, R350): a handle listed twice names, the second time, a buffer no longer held. -/
def execBufFree (h : HostCmd) (s : State) : Host.Outcome State Fault Refusal :=
  s.cmdA h 0x81 fun c s =>
    let kind := h.op 0 1
    let n := h.op 1 1
    if 1 < kind ∨ n = 0 ∨ 64 < n ∨ h.op 2 6 ≠ 0 ∨ h.op 16 16 ≠ 0 then s.cmdDone c stReject 0
    else
      let hs := (upTo n).map fun i => s.hostLe c.part (h.op 8 8 + 4 * i) 4
      let s := s.dmaRead (4 * n)
      if hs.any (fun x => !handleOk x || natBool (bitOf x 31) != kind) then s.cmdDone c stReject 0
      else if hs.any (fun x => !s.holdsBuf c.part x) ∨ hs.eraseDups.length < n then s.cmdDone c stDenied 0
      else (hs.foldl (fun s x => s.bufReturn x) s).cmdDone c stOk 0

/-! ### Transmit rings (R472, R473) -/

def noTxs : Nat → List TxSlot := fun _ => []
def State.txs (s : State) (key : Nat) : List TxSlot := mget noTxs s.host.txs key
def State.setTxs (s : State) (key : Nat) (l : List TxSlot) : State :=
  { s with host := { s.host with txs := mset noTxs s.host.txs key l } }
def State.setTxWait (s : State) (l : List Nat) : State := { s with host := { s.host with txWait := l } }

/-- A transmit descriptor (R472). -/
structure TxDesc where
  addr : Nat
  len : Nat
  ctl : Nat
  count : Nat
  tsid : Nat
  dest : Nat
  /-- The bytes marked 0 are 0. -/
  clean : Bool

def txDesc (b : List Byte) : TxDesc :=
  let f := fun (o n : Nat) => leNat ((b.drop o).take n)
  { addr := f 0 8, len := f 8 2, ctl := f 10 1, count := f 11 1, tsid := f 12 2, dest := f 16 4
    clean := f 14 2 = 0 && f 20 8 = 0 && f 30 2 = 0 }

def TxDesc.hb (d : TxDesc) : Bool := bitOf d.ctl 0
def TxDesc.tsreq (d : TxDesc) : Bool := bitOf d.ctl 1
def TxDesc.inject (d : TxDesc) : Bool := bitOf d.ctl 2

/-- The handles of a descriptor. -/
def State.txHandles (s : State) (p : Nat) (d : TxDesc) : List Nat :=
  if d.hb then (upTo d.count).map (fun i => s.hostLe p (d.addr + 4 * i) 4) else []

/-- The checks of step 1: the status of a refused descriptor. -/
def State.txRefused (s : State) (p : Nat) (d : TxDesc) : Option Nat :=
  let hs := s.txHandles p d
  let bad := !d.clean || decide (16 ≤ d.ctl ∨ d.len < 60 ∨ 10236 < d.len ∨ (if d.inject then 512 else 2 ^ 20) ≤ d.dest) ||
    (if d.hb then decide (d.count = 0 ∨ 64 < d.count) else decide (d.count ≠ 0)) || hs.any (fun h => !handleOk h) ||
    (d.hb && decide ((hs.map (fun h => bufSize (natBool (bitOf h 31)))).sum < d.len)) ||
    (d.tsreq && (d.inject || isMcast d.dest))
  let own := if d.inject then decide (s.portOwner d.dest = p)
    else if isMcast d.dest then s.owns p .mcg (d.dest - 0x80000)
    else validQueue d.dest && s.ownsQueue p d.dest
  if bad then some stReject
  else if !own || hs.any (fun h => !s.holdsBuf p h) then some stDenied
  else none

/-- Bytes of a buffer; those never written are free values (log 7). -/
def State.bufBytes_ (s : State) (h : Nat) : List Byte × State :=
  let l := mget noBytes s.host.bufs h
  let n := bufSize (natBool (bitOf h 31)) - l.length
  let free := (upTo n).map fun i => (Config.freeWord (s.clk.free + i)).truncate 8
  (l ++ free, { s with clk := { s.clk with free := s.clk.free + n } })

/-- The frame that a list of buffers holds. -/
def State.bufFrame (s : State) (hs : List Nat) (len : Nat) : List Byte × State :=
  let (l, s) := hs.foldl (fun (x : List Byte × State) h =>
    let (b, s) := x.2.bufBytes_ h
    (x.1 ++ b, s)) ([], s)
  (l.take len, s)

/-- Cells of a chain, each naming the next (R323). -/
def State.linkChain (s : State) : List Nat → State
  | a :: b :: l => (s.setCell a { s.cell a with next := b }).linkChain (b :: l)
  | _ => s

/-- Copy a frame into cells of partition p, FCS included, all granted at once, or the counter of the refusal (R319,
R332, R473). -/
def State.hostCells (s : State) (p : Nat) (frame : List Byte) : (List Nat × State) ⊕ Nat :=
  match s.grantAll (4096 + p) p false ((frame.length + 4 + 255) / 256) true with
  | .inl (l, s1) => .inl (l, s1.linkChain l)
  | .inr i => .inr i

/-- A packet number that no packet has: a frame in host buffers is no packet. -/
def noPkt : Nat := 2 ^ 64

/-- The frame joins what goes to the queues, through the descriptor switch of race 0 (R473 step 3). -/
def State.txQueue (s : State) (p : Nat) (d : TxDesc) (x : Desc) : State :=
  s.leave 0 (.toQueue { x with queue := d.dest, part := p, twoStep := if d.tsreq then some d.tsid else none })

/-- Injection (R473 step 3): the frame enters the Sluice of its port's race, where that takes frames. -/
def State.txInject (s : State) (p n : Nat) (frame : List Byte) (cells : List Nat) : State :=
  let back := fun (s : State) => cells.foldl (fun s c => s.freeCell c) s
  if !s.serves || s.blkOn 4 0 then back s
  else
    match s.sluiceTake n frame with
    | (none, s) => back s
    | (some k, s) =>
      s.setPkt k { s.pkt k with cells := cells, gen := (s.cell (cells.headD 0)).gen, owner := 4096 + p,
                                arrived := frame.length, ended := true }

/-- Take the next descriptor of transmit ring j of p (R473). One whose frame takes cells asks the Hopper for them, and
is taken when they are granted (`asked`; R331, R334). -/
def State.txTake (s : State) (p j : Nat) (asked : Bool) : State :=
  let a := aHstTxq p j
  let key := p * 64 + j
  let l := s.txs key
  let pos := (s.dmaHead a + l.length) % 65536
  if !s.doorOk p ∨ !s.runs ∨ !s.dmaOn a ∨ pos = s.dmaTail a then s
  else
    let d := txDesc (s.hostRead p (s.dmaAddr a pos) 32)
    let take := fun (s : State) (st : Option Nat) =>
      let s := (s.dmaRead 32).dmaRead (if d.hb then 4 * d.count else if st = some stOk then d.len else 0)
      s.setTxs key (s.txs key ++ [{ pos := pos, status := st, irq := bitOf d.ctl 3 }])
    match s.txRefused p d with
    | some st =>
      let s := (take s (some st)).bump (aHstPcnt p 5) 1
      if st = stDenied then s.deny p 5 pos else s
    | none =>
      let hs := s.txHandles p d
      if d.hb ∧ !d.inject then
        let (f, s) := s.bufFrame hs d.len
        (take s none).txQueue p d
          { pkt := noPkt, frame := f, hostTx := some (key, pos), hostBufs := hs.map (fun h => (h, (s.bufAt h).gen)) }
      else if !asked then s.askHopper islHost (srcHost p) (4096 + p) (.hostTx p j)
      else
        let (f, s1) := if d.hb then s.bufFrame hs d.len else (s.hostRead p d.addr d.len, s)
        match s1.hostCells p f with
        | .inr i => (s.bump (aHopCnt i) 1).setTxWait (s.host.txWait ++ [key])
        | .inl (cells, s2) =>
          let s3 := take s2 (some stOk)
          if d.inject then s3.txInject p d.dest f cells
          else
            let gen := (s3.cell (cells.headD 0)).gen
            let (k, s4) := s3.addPkt
              { kind := .hostTx p j, frame := f, arrived := f.length, ended := true, cells := cells, gen := gen,
                owner := 4096 + p }
            s4.txQueue p d { pkt := k, cell := cells.headD 0, gen := gen, frame := f }

/-- Does transmit ring j of p wait: for the answer to its request, or for a free after a refusal (R334)? -/
def State.txHeld (s : State) (p j : Nat) : Bool := s.host.txWait.contains (p * 64 + j) || s.asks (.hostTx p j)

/-- TX_DESCRIPTOR (R473): a ring that waits for cells takes nothing (R334). -/
def execTxDescriptor (part : Part) (ring : Fin 64) (s : State) : Host.Outcome State Fault Refusal :=
  if s.txHeld part.val ring.val then .next s else .next (s.txTake part.val ring.val false)

/-- HOST_TX_RETRY (R334): the ring of the partition that has waited longest asks again. -/
def execHostTxRetry (part : Part) (s : State) : Host.Outcome State Fault Refusal :=
  match s.host.txWait.find? (fun k => decide (k / 64 = part.val)) with
  | some k => .next ((s.setTxWait (s.host.txWait.erase k)).txTake part.val (k % 64) false)
  | none => .next s

/-- CELL_REQUEST (R327 to R334): the Hopper decides the request with the lowest key, whoever sent it. -/
def execCellRequest (s : State) : Host.Outcome State Fault Refusal :=
  match lowestReq s.hop.reqs with
  | none => .next s
  | some q =>
    if s.runs then
      let s := { s with hop := { s.hop with reqs := s.hop.reqs.erase q } }
      match q.who with
      | .frame k => .next (s.frameDecide q.owner k)
      | .alloc c n len src res => .next (s.allocDecide c n len src res)
      | .hostTx p j => .next (s.txTake p j true)
      | .keepalive r j => .next (s.keepaliveDecide r j)
    else .next s

/-- Every descriptor on its way to a queue, waiting, or in transmission. -/
def State.liveDescs (s : State) : List Desc :=
  s.races.flatMap (fun e => e.2.switch) ++ s.eg.queues.flatMap (fun e => e.2.fifo) ++
    s.eg.ports.flatMap fun e => (e.2.tx.toList ++ e.2.susp.toList).map (fun t => t.d)

/-- TX_WRITEBACK (R473 step 4): in ring order, once the memory or the buffers have been read. -/
def execTxWriteback (part : Part) (ring : Fin 64) (s : State) : Host.Outcome State Fault Refusal :=
  let p := part.val
  let j := ring.val
  let a := aHstTxq p j
  let key := p * 64 + j
  match s.txs key with
  | [] => .next s
  | x :: l =>
    let read := s.host.txDone.contains (key, x.pos) && !s.liveDescs.any (fun d => decide (d.hostTx = some (key, x.pos)))
    match if x.status.isNone && read then some stOk else x.status with
    | none => .next s
    | some st =>
      if !s.doorOk p then .next s
      else
        let s := s.hostWrite p (s.dmaAddr a x.pos + 0x1C) [BitVec.ofNat 8 st, 0x80]
        let s := (s.setTxs key l).setRegN (a + 16) ((s.dmaHead a + 1) % 65536)
        let s := { s with host := { s.host with txDone := s.host.txDone.filter (· ≠ (key, x.pos)) } }
        let s := if st = stOk then s.bump (aHstPcnt p 4) 1 else s
        .next (if x.irq then s.irq p (68 + j) else s)

/-! ### Receive rings (R471) -/

/-- Release what a receive item holds of its packet. -/
def State.rxLeave (s : State) (x : RxItem) : State := if (s.pkt x.pkt).cells = [] then s else s.release x.cell x.gen

def State.takeRx (s : State) (x : RxItem) : State := { s with rx := s.rx.erase x }

/-- The bytes 0x10 to 0x1F of a receive descriptor. -/
def State.rxBack (s : State) (x : RxItem) (len flags : Nat) : List Byte :=
  let p := s.pkt x.pkt
  leBytes 2 len ++ leBytes 2 (x.port % 512) ++ leBytes 1 x.code ++ leBytes 1 x.kind ++ leBytes 1 (x.dom % 16) ++
    leBytes 1 (128 + flags) ++ leBytes 8 (p.ptpS % 2 ^ 32 * 2 ^ 32 + p.ptpNs % 2 ^ 30)

/-- RX_PACKET_WRITE (R471): the first packet for the ring. One marked bad completes no descriptor (R653). -/
def execRxPacketWrite (part : Part) (ring : Fin 64) (s : State) : Host.Outcome State Fault Refusal :=
  let p := part.val
  let j := ring.val
  let a := aHstRxq p j
  match s.rx.find? (fun x => x.part = p && x.ring = j) with
  | none => .next s
  | some x =>
    let k := s.pkt x.pkt
    let s1 := s.takeRx x
    if !(s.runs || s.top.mode = .safe) then .next s
    else if k.bad then .next (s1.rxLeave x)
    else if !s.doorOk p ∨ !s.dmaOn a ∨ s.dmaTail a = s.dmaHead a then .next ((s1.bump (aHstPcnt p 2) 1).rxLeave x)
    else if !(k.ended && k.want = 0) then .next s
    else
      let n := s.dmaHead a
      let at_ := s.dmaAddr a n
      let addr := s.hostLe p at_ 8
      let size := s.hostLe p (at_ + 8) 2
      let s2 := (s1.setRegN (a + 16) ((n + 1) % 65536)).dmaRead 32
      let len := x.frame.length
      let s3 :=
        if addr % 64 ≠ 0 ∨ size < 64 ∨ 16384 < size ∨ size % 64 ≠ 0 then
          (s2.hostWrite p (at_ + 0x10) (s.rxBack x 0 2)).bump (aHstPcnt p 7) 1
        else
          let s := (s2.hostWrite p addr (x.frame.take size)).hostWrite p (at_ + 0x10)
            (s.rxBack x len (natBool (decide (size < len))))
          if size < len then s.bump (aHstPcnt p 3) 1 else s
      .next ((s3.rxLeave x).irq p (4 + j))

/-! ### Partition resets (R482) -/

/-- The foreground command of a ring of p ends with no completion. -/
def noForeground (p : Nat) (e : Nat × CmdRing) : Nat × CmdRing := if e.1 / 4 = p then (e.1, { e.2 with fg := none }) else e

/-- A partition reset disables the dump streams of p into host memory and leaves the others (R534). -/
def State.stopHostDumps (s : State) (p : Nat) : State :=
  (upTo 2).foldl (fun s k =>
    let x := s.stream p k
    let run := match x.run with | some (n, c, g) => if c.loc then none else some (n, c, g) | none => none
    s.setStream p k { x with en := x.en && !x.cfg.loc, run := run }) s

/-- A partition reset of p begins (steps 1 and 2). -/
def State.presetBegin (s : State) (p : Nat) (perst : Bool) : State :=
  let h := s.host
  let ring := fun (m : SMap (List TxSlot)) => m.filter (fun e => decide (e.1 / 64 ≠ p))
  let h := { h with preset := mset zeroN h.preset p 1, presetAt := mset zeroN h.presetAt p s.clk.gtc
                    perst := mset (fun _ => false) h.perst p perst
                    epoch := mset zeroN h.epoch p (mget zeroN h.epoch p + 1)
                    rings := (h.rings.map (noForeground p)).filter (fun e => decide (e.2 ≠ CmdRing.mk 0 none))
                    txs := ring h.txs, txWait := h.txWait.filter (fun k => decide (k / 64 ≠ p)) }
  let s := (({ s with host := h }.setLink p false).stopHostDumps p).withdraw (fun w => match w with
    | .alloc c _ _ _ _ => decide (c.part = p)
    | .hostTx q _ => decide (q = p)
    | _ => false)
  (upTo 17).foldl (fun s t => if (s.walk p t).isSome then s.walkBreak p t else s) s

/-- PARTITION_RESET (R482): PERST_N[p] low (`perst`), link down, hot reset or function level reset. -/
def execPartitionReset (part : Part) (perst : Bool) (s : State) : Host.Outcome State Fault Refusal :=
  .next (s.presetBegin part.val perst)

/-- The COMMIT registers that partition p writes. -/
def commitsOf (p : Nat) : List Nat :=
  (if p = 0 then [aTskCommit, aClsCommit, aMstCommit, aEmtCommit, aHopCommit, aQshCommit, aHstCommit] else []) ++
    [aGateCommit p, aPortCommit p]

/-- Handles of the buffers partition p holds. -/
def State.bufsOf (s : State) (p : Nat) : List Nat :=
  let held : SMap CellSt → Nat → List Nat := fun m k =>
    (m.filter (fun (e : Nat × CellSt) => e.2.host && decide (e.2.ownp = p))).map (fun (e : Nat × CellSt) => e.1 + k * 2 ^ 31)
  held s.hop.cells 0 ++ held s.hop.pages 1

/-- Step 3: the partition's registers, latches, staging copies and timestamp queue. -/
def State.presetClear (s : State) (p : Nat) : State :=
  let lo := aHstCmdq p 0
  let hi := aHstBar2Win p + 4
  let s := { s with regs := s.regs.filter (fun e => decide (e.1 < lo ∨ hi ≤ e.1))
                    latch := s.latch.filter (fun e => decide (e.1 / 2 ^ 28 ≠ p)) }
  let s : State := (commitsOf p).foldl (fun (s : State) a => s.discardIf (s.setOf a)) s
  let s : State := { s with ptp := { s.ptp with tsq := mset (fun _ => []) s.ptp.tsq p [] } }
  let s := if s.freezeOf p ≠ 0 then (s.thaw p).2 else s
  let h := s.host
  let h := { h with preset := mset zeroN h.preset p 2, resets := mset zeroN h.resets p ((mget zeroN h.resets p + 1) % 65536)
                    rings := h.rings.filter (fun e => decide (e.1 / 4 ≠ p))
                    retDue := mset (fun _ => []) h.retDue p (s.bufsOf p) }
  ({ s with host := h }).eventAny (srcHost p) 0x0030

/-- PARTITION_RESET_CLEAR (R482 step 3), 50 µs after the start. -/
def execPartitionResetClear (part : Part) (s : State) : Host.Outcome State Fault Refusal :=
  let p := part.val
  if mget zeroN s.host.preset p = 1 ∧ mget zeroN s.host.presetAt p + 200000 ≤ s.clk.gtc then .next (s.presetClear p)
  else .next s

/-- HOST_BUFFERS_RETURN (R482 step 4): once no transmit names the partition's buffers. -/
def execHostBuffersReturn (part : Part) (s : State) : Host.Outcome State Fault Refusal :=
  let p := part.val
  let due := (mget (fun _ => ([] : List Nat)) s.host.retDue p).filter (s.holdsBuf p)
  if s.liveDescs.any (fun d => d.part = p && d.hostBufs.any (fun e => due.contains e.1)) then .next s
  else
    let s := due.foldl (fun s h => s.bufReturn h) s
    .next { s with host := { s.host with retDue := mset (fun _ => []) s.host.retDue p [] } }

/-- PERST_N_RELEASE (R482 step 5). -/
def execPerstNRelease (part : Part) (s : State) : Host.Outcome State Fault Refusal :=
  .next { s with host := { s.host with perst := mset (fun _ => false) s.host.perst part.val false } }

/-- May endpoint p train its link: not before BOOT ends (R450), not without power, and in RECOVERY endpoint 0 only
(R509)? -/
def State.trains (s : State) (p : Nat) : Bool :=
  match s.top.mode with
  | .cold | .trim | .boot | .restart | .commit => false
  | .recovery => p = 0
  | _ => true

/-- PCIE_LINK_UP (R450, R482 step 5): 100 µs after a reset began, its step 3 done, and PERST_N high. -/
def execPcieLinkUp (part : Part) (s : State) : Host.Outcome State Fault Refusal :=
  let p := part.val
  let ph := mget zeroN s.host.preset p
  if s.trains p ∧ !s.linkUp p ∧ mget (fun _ => false) s.host.perst p = false ∧
      (ph = 0 ∨ (ph = 2 ∧ mget zeroN s.host.presetAt p + 400000 ≤ s.clk.gtc)) then
    .next ({ s with host := { s.host with preset := mset zeroN s.host.preset p 0 } }.setLink p true)
  else .next s

end Sys2Proof.Machine
end

