-- ==== Sys2Proof/Machine/Arbiter.lean ====
section
/-! DEFINITION. The maintenance arbiter (R578, R579, R596): which activities run, and which of them conflict. -/

namespace Sys2Proof.Machine

open Sys2Proof

/-- The codes that an activity conflicts with (R578). -/
def mntConflicts (c : Nat) : List Nat :=
  match c with
  | 1 => [1]
  | 2 => [2, 3]
  | 3 => [2, 3, 4]
  | 4 => [3, 4, 5, 6, 7, 10]
  | 5 => [4, 5]
  | 6 | 7 | 10 => [4, 6, 7, 10]
  | 8 => [8, 12]
  | 9 | 11 => [9, 11, 12]
  | 12 => [8, 9, 11, 12]
  | _ => []

/-- First word of MNT_ACT of activity c. -/
def aMnt (c : Nat) : Nat := aMntAct (c - 1)

/-- Is activity c running? -/
def State.mntOn (s : State) (c : Nat) : Bool := decide (1 ≤ c ∧ c ≤ 12) && s.fld (aMnt c) 0 2 = 1

/-- The running activity that refuses a start of c: its code and its starter. -/
def State.mntConflict (s : State) (c : Nat) : Option Nat :=
  match (mntConflicts c).find? s.mntOn with
  | some k => some (k + s.fld (aMnt k) 16 8 * 256)
  | none => none

/-- Windshaft as a starter. -/
def byWindshaft : Nat := 15

/-- Activity c starts. -/
def State.mntStart (s : State) (c by_ : Nat) : State :=
  let a := aMnt c
  let s := ((s.bump (aMntCnt 0) 1).setFld a 16 8 by_).setFld a 0 2 1
  let s := s.setRegN (a + 4) (s.regN (a + 4) + 1)
  (s.setRegN (a + 8) (s.clk.gtc % 2 ^ 32)).setRegN (a + 12) (s.clk.gtc / 2 ^ 32)

/-- Activity c ends with a status code, recorded by event 0x0310 under the arbiter's number (R24, R588, R596). -/
def State.mntOver (s : State) (c status : Nat) : State :=
  if s.mntOn c then
    let a := aMnt c
    ((s.setFld a 24 8 status).setFld a 0 2 2).event srcArbiter 0x0310 (c + status * 65536)
  else s

end Sys2Proof.Machine
end

