-- ==== Sys2Proof/Machine/Patches.lean ====
section
/-! DEFINITION. Patch bundles: loading and staging, activation cluster by cluster, the way back, and the load at a
start (R119 to R131). -/

namespace Sys2Proof.Machine

open Sys2Proof

/-! ### Bundles (R119 to R122) -/

/-- A section as the machine holds it: up to 64 match registers and 1 024 patch RAM words. -/
def sectionOf (x : List (Nat × Word32) × List (Nat × BitVec 48)) : PatchSection :=
  { match_ := (x.1.filter (fun e => decide (e.1 < 64))).foldl (fun m e => mset (fun _ => (0 : Word32)) m e.1 e.2) []
    words := (x.2.filter (fun e => decide (e.1 < 1024))).foldl (fun m e => mset (fun _ => (0 : BitVec 48)) m e.1 e.2) [] }

/-- The contents of the running firmware slot, whose manifest BOOT verified (R122, R507). -/
def State.runSlot (s : State) : List Byte := mget (fun _ => ([] : List Byte)) s.top.fwm.slots s.top.fwm.run

/-- Is a bundle one for this device and this firmware: its ROM version, its digest in the manifest `m` (check 4)? -/
def bundleFits (m : List Byte) (rom : Word32) (digest : List Byte) : Bool :=
  rom = Config.romVersion && Config.manifestLists m digest

/-- A bundle that passes checks 4 and 5 against the manifest `m`. -/
def openBundle (m b : List Byte) : Option Bundle :=
  let n := leNat ((b.drop 12).take 4)
  let all := b.take (0x30 + n)
  let rom := BitVec.ofNat 32 (leNat ((b.drop 8).take 4))
  let digest := Config.sha512 all
  if leNat (b.take 4) = 0x55504348 ∧ 0x30 + n ≤ b.length ∧ bundleFits m rom digest = true then
    match Config.gcmOpen all with
    | some plain =>
      some { version := BitVec.ofNat 32 (leNat ((b.drop 4).take 4)), rom := rom, digest := digest, raw := all
             vertical := (Config.patchSection plain false).map sectionOf
             twoLevel := (Config.patchSection plain true).map sectionOf }
    | none => none
  else none

def Ucs.slot (u : Ucs) (i : Nat) : Option Bundle := if i % 2 = 0 then u.slot0 else u.slot1
def Ucs.setSlot (u : Ucs) (i : Nat) (b : Option Bundle) : Ucs :=
  if i % 2 = 0 then { u with slot0 := b } else { u with slot1 := b }

def State.setUcs (s : State) (u : Ucs) : State := { s with ucs := u }

/-- UCS_PATCH_STAGED shows the staged bundle (R136). -/
def State.showStaged (s : State) : State :=
  s.setRegN aUcsPatchStaged (match s.ucs.staged with | some b => b.version.toNat | none => 0)

/-- PATCH_LOAD (R122): host address at operand offset 0x00 and length at 0x08 (log 49). -/
def execPatchLoad (h : HostCmd) (s : State) : Host.Outcome State Fault Refusal :=
  .next (s.startCmd h 0x70 .background (h.part.val = 0) (modeA s.top.mode) fun c s =>
    if s.ucs.act.isSome ∨ s.top.fw.any (fun f => f.op = 3) then s.cmdDone c stBusy 0
    else
      let raw := s.hostRead 0 (h.op 0 8) (h.op 8 4)
      let s := s.dmaRead raw.length
      match openBundle s.runSlot raw with
      | some b =>
        let u := s.ucs.setSlot (1 - s.ucs.cur) (some b)
        (s.setUcs { u with staged := some b, stagedSince := true }).showStaged.cmdDone c stOk 0
      | none => (s.eventAny srcWindshaft 0x8002).cmdDone c stReject 0)

/-! ### Activation (R123 to R129) -/

/-- The section of a bundle, or of none, for cluster k, with the version it gives (R120). -/
def State.sectionFor (s : State) (b : Option Bundle) (k : Nat) : Word32 × PatchSection :=
  match b with
  | some b =>
    match if s.twoLevel k then b.twoLevel else b.vertical with
    | some x => (b.version, x)
    | none => (0, {})
  | none => (0, {})

/-- Load a set into cluster k. -/
def State.loadPatch (s : State) (k : Nat) (x : Word32 × PatchSection) : State :=
  (s.setClu k { s.clu k with matchReg := x.2.match_, patch := x.2.words }).setReg (aUcsPatchVersion k) x.1

/-- The bundle that an activation puts in force. -/
def State.actTarget (s : State) (a : Activation) : Option Bundle :=
  if a.revert then s.ucs.slot (1 - s.ucs.cur) else s.ucs.staged

/-- Clusters of race r from `c` on that an activation has still to switch (R124, R129). -/
def State.toSwitch (s : State) (a : Activation) (r c : Nat) : Option Nat :=
  ((upTo 12).map (fun j => 12 * r + j)).find? fun k =>
    decide (12 * r + c ≤ k) && !s.cluOff k && s.reg (aUcsPatchVersion k) != (s.sectionFor (s.actTarget a) k).1

/-- Stop dealing to cluster k; its service routines take a drain interrupt (step 2). -/
def State.drainCluster (s : State) (k : Nat) : State :=
  let s := s.setClu k { s.clu k with drain := true }
  (upTo 68).foldl (fun s t =>
    let n := 68 * k + t
    let x := s.thr n
    if x.svc.isSome then s.setThr n { x with ints := { x.ints with drain := true } } else s) s

/-- The spare of cluster k, where it has one that works (R41, R576). -/
def State.spareOf (s : State) (k : Nat) : Option Nat :=
  let e := s.fld (aClu k) 0 5
  if e < 17 ∧ s.fld (aClu k) 31 1 = 0 ∧ (s.clu k).deadSpare.isNone then some e else none

/-- The self-test of cluster k's spare starts on thread 0 of the spare, with the token of its first segment (R112, R114,
R576). -/
def State.stestStart (s : State) (k : Nat) : State :=
  match s.spareOf k with
  | none => s
  | some e =>
    let n := (k * 17 + e) * 4
    let v := (s.reg (aUcsPatchVersion k)).truncate 16
    (s.setThr n { (s.thr n) with svc := some { routine := 2, segment := 1, addr := Config.segmentAddr (s.twoLevel k) 2 1, ver := v }
                                 svcAt := s.clk.gtc }).setRegN (aUcsStest k) (2 ^ 29)

/-- Dealing to cluster k resumes (step 6), and a self-test that the drain ended starts again (R108). -/
def State.resumeCluster (s : State) (k : Nat) : State :=
  let again := (s.clu k).testAgain
  let s := s.setClu k { s.clu k with drain := false, testAgain := false }
  if again then s.stestStart k else s

/-- Is the cluster empty? -/
def State.cluEmpty (s : State) (k : Nat) : Bool :=
  (upTo 68).all fun t => (s.thr (68 * k + t)).ctx.isNone && (s.thr (68 * k + t)).svc.isNone

def State.setAct (s : State) (a : Activation) : State := s.setUcs { s.ucs with act := some a }

def noPhase : Nat → Nat × Bool := fun _ => (192, false)
def Activation.phase (a : Activation) (r : Nat) : Nat × Bool := mget noPhase a.at_ r

/-- Race r goes on with cluster k, or has finished. -/
def State.actMove (s : State) (a : Activation) (r : Nat) (k : Option Nat) : State × Activation :=
  match k with
  | some k =>
    (s.drainCluster k, { a with at_ := mset noPhase a.at_ r (k, false), since := mset zeroN a.since r s.clk.gtc })
  | none => (s, { a with at_ := merase a.at_ r, since := merase a.since r })

/-- The activation ends with a status (R124 step 7, R127, R129). -/
def State.actEnd (s : State) (a : Activation) (status detail : Nat) : State :=
  let s := s.setUcs { s.ucs with act := none }
  let s := (s.setFld aUcsPatchStatus 31 1 0).setFld aUcsPatchStatus 24 4 status
  let s := (s.mntOver 10 status).cmdDone a.ref status detail
  a.aborters.foldl (fun s c => s.cmdDone c stOk 0) s

/-- All races have finished: the selector is written where the activation has run to its end. So it is where the staged
version was already active everywhere and no cluster was switched (R123, log 102). -/
def State.actFinish (s : State) (a : Activation) : State :=
  if !a.at_.isEmpty then s.setAct a
  else
    match a.failing with
    | some k => s.actEnd a stReject k
    | none =>
      if a.aborted then s.actEnd a stAborted 0
      else
        let s := (s.setUcs { s.ucs with cur := 1 - s.ucs.cur, staged := none, stagedSince := false }).showStaged
        (s.eventAny srcWindshaft 0x8003).actEnd a stOk 0

/-- PATCH_ACTIVATE completes without beginning; LAST_RESULT notes every completion (R135). -/
def State.actRefuse (s : State) (c : CmdRef) (status detail : Nat) : State :=
  (s.setFld aUcsPatchStatus 24 4 status).cmdDone c status detail

/-- The activation begins in every race (R124). -/
def State.actBegin (s : State) (a : Activation) : State :=
  let s := (s.mntStart 10 a.ref.part).cmdAccept a.ref
  let s := s.setRegN aUcsPatchStatus (putBits (putBits (putBits (s.regN aUcsPatchStatus) 31 1 1) 16 8 0) 8 8 0xFF)
  let (s, a) := (upTo 16).foldl (fun (x : State × Activation) r => x.1.actMove x.2 r (x.1.toSwitch x.2 r 0)) (s, a)
  s.actFinish a

/-- Step 1 of R124 on the bundle to be put in force, where there is one: checks 4 and 5 of R122 again. -/
def State.actChecks (s : State) (a : Activation) : Bool :=
  match s.actTarget a with
  | some b => (openBundle s.runSlot b.raw).isSome
  | none => true

/-- LAST_RESULT of a PATCH_ACTIVATE that completes with BADCMD (R135, R461). -/
def State.actBad (s : State) (h : HostCmd) : State :=
  if s.mayStart h.part.val h.ring.val .background ∧ (h.rsv ≠ 0 ∨ h.flags.toNat / 2 ≠ 0)
  then s.setFld aUcsPatchStatus 24 4 stBadCmd else s

/-- PATCH_ACTIVATE (R123, R124 step 1, R128): REVERT is bit 0 of operand byte 0x00 (log 49). -/
def execPatchActivate (h : HostCmd) (s : State) : Host.Outcome State Fault Refusal :=
  .next ((s.actBad h).startCmd h 0x71 .background true true fun c s =>
    let a : Activation := { ref := c, revert := bitOf (h.op 0 1) 0 }
    if c.part ≠ 0 then s.actRefuse c stDenied 0
    else if !modeA s.top.mode then s.actRefuse c stReject 0
    else if s.top.fw.any (fun f => f.op = 3) then s.actRefuse c stBusy 0
    else
      match s.mntConflict 10 with
      | some x => (s.bump (aMntCnt 2) 1).actRefuse c stConflict x
      | none =>
        if (if a.revert then s.ucs.stagedSince else s.ucs.staged.isNone) || !s.actChecks a then s.actRefuse c stReject 0
        else s.actBegin a)

/-- The cluster under switch of race r, where it waits to be empty. -/
def Activation.draining (a : Activation) (r : Nat) : Option Nat :=
  let x := a.phase r
  if x.1 < 192 ∧ !x.2 then some x.1 else none

/-- The activation that goes on: none does in a reset, which discards it, or while Windshaft stands (R130, R511). -/
def State.actRuns (s : State) : Option Activation := if modeB s.top.mode then s.ucs.act else none

/-- PATCH_CLUSTER_DRAINED (R124, step 4; on the way back, R127, the set it held before, with DONE as it stood: log
102). -/
def execPatchClusterDrained (race : RaceId) (s : State) : Host.Outcome State Fault Refusal :=
  match s.actRuns with
  | none => .next s
  | some a =>
    match a.draining race.val with
    | none => .next s
    | some k =>
      if !s.cluEmpty k then .next s
      else
        let a1 := { a with at_ := mset noPhase a.at_ race.val (k, true) }
        if a.failing.isSome then
          let old := match a.done.find? (fun e => e.1 = k) with | some e => e.2 | none => (0, {})
          .next ((s.loadPatch k old).setAct { a1 with done := a.done.filter (fun e => e.1 ≠ k) })
        else
          let held : PatchSection := { match_ := (s.clu k).matchReg, words := (s.clu k).patch }
          let s1 := s.setFld aUcsPatchStatus 16 8 (s.fld aUcsPatchStatus 16 8 + 1)
          .next ((s1.loadPatch k (s.sectionFor (s.actTarget a) k)).setAct
            { a1 with done := a.done ++ [(k, s.reg (aUcsPatchVersion k), held)] })

/-- PATCH_DRAIN_TIMEOUT (R124, step 3): threads still resident end with ABORT. -/
def execPatchDrainTimeout (race : RaceId) (s : State) : Host.Outcome State Fault Refusal :=
  match s.actRuns with
  | none => .next s
  | some a =>
    match a.draining race.val with
    | none => .next s
    | some k =>
      if s.clk.gtc < mget zeroN a.since race.val + 4000 * s.fld aUcsDrainTmo 0 16 then .next s
      else .next ((upTo 17).foldl (fun s e => s.engineEnd k e false) s)

/-- The last cluster of race r that has been switched. -/
def Activation.lastDone (a : Activation) (r : Nat) : Option Nat :=
  ((a.done.filter (fun e => e.1 / 12 = r)).getLast?).map (·.1)

/-- Activation stops in race r, and what it switched goes back (R127): a cluster still draining resumes. -/
def State.actBack (s : State) (a : Activation) (r : Nat) : State × Activation :=
  let s := match a.draining r with
    | some k => s.resumeCluster k
    | none => s
  s.actMove a r (a.lastDone r)

/-- PATCH_HEARTBEAT_RESULT (R124 steps 5 and 6, R127): `failed` lists the engines whose heartbeat was wrong. -/
def execPatchHeartbeatResult (race : RaceId) (failed : List EngineId) (s : State) : Host.Outcome State Fault Refusal :=
  match s.actRuns with
  | none => .next s
  | some a =>
    let r := race.val
    let (k, due) := a.phase r
    if !due then .next s
    else
      -- reaction B on each engine that failed (R560)
      let s := failed.foldl (fun s e =>
        ((s.safety (srcCluster r (k % 12)) 0x0200 (k + e.val * 65536) 2).isolateEngine k e.val).reacted 2) s
      if a.failing.isSome then
        let (s1, a1) := (s.resumeCluster k).actMove a r (a.lastDone r)
        .next (s1.actFinish a1)
      else if failed.isEmpty then
        let (s1, a1) := (s.resumeCluster k).actMove a r (if a.aborted then none else s.toSwitch a r (k % 12 + 1))
        .next (s1.actFinish a1)
      else
        let s := s.setFld aUcsPatchStatus 8 8 k
        let (s1, a1) := (upTo 16).foldl (fun (x : State × Activation) j => x.1.actBack x.2 j)
          (s, { a with failing := some k })
        .next (s1.actFinish a1)

/-- ABORT of an activation (R129): it stops after the clusters being switched. -/
def State.actAbort (s : State) (c : CmdRef) : State :=
  match s.ucs.act with
  | some a => s.actFinish { a with aborted := true, aborters := a.aborters ++ [c] }
  | none => s.cmdDone c stNotFound 0

/-! ### The load at every start (R131) -/

/-- Load the bundle in the current slot, checked and decrypted again, into every cluster, or none, with event 0x0021. -/
def State.patchStart (s : State) : State :=
  let ok := match s.ucs.slot s.ucs.cur with
    | some b => openBundle s.runSlot b.raw
    | none => none
  let s := if ok.isNone then s.eventAny srcWindshaft 0x0021 else s
  ((upTo 192).foldl (fun s k => s.loadPatch k (s.sectionFor ok k)) s).showStaged

end Sys2Proof.Machine
end

