-- ==== Sys2Proof/Machine/Maint.lean ====
section
/-! DEFINITION. Maintenance activities (R575 to R582), the journal checkpoint (R251) and the spare-engine self-test
(R114, R139, R576). -/

namespace Sys2Proof.Machine

open Sys2Proof

/-! ### Operands (R577) -/

/-- Is ARG in range for the activity? -/
def mntArgOk (c arg : Nat) : Bool :=
  match c with
  | 3 => decide (arg ≤ 3 ∨ arg = 0xFF)
  | 4 => decide (arg ≤ 106 ∨ arg = 0xFFFF)
  | 5 => decide (arg ≤ 63 ∨ arg = 0xFF)
  | 6 => decide (arg < 2 ^ 13 ∧ arg % 256 < 192 ∧ arg / 256 < 17)
  | 7 => decide (arg < 192 ∨ arg = 0xFF)
  | 8 => decide (arg % 32 ≤ 16 ∧ bitsOf arg 5 3 = 0 ∧ bitsOf arg 10 6 = 0 ∧ arg < 2 ^ 17)
  | _ => arg = 0

/-- ARG of a Windshaft start: all units. -/
def mntAll (c : Nat) : Nat := match c with | 3 | 5 | 7 => 0xFF | 4 => 0xFFFF | _ => 0

def State.mntArg (s : State) (c : Nat) : Nat := mget zeroN s.saf.maintArg c
def State.setMntArg (s : State) (c arg : Nat) : State :=
  { s with saf := { s.saf with maintArg := mset zeroN s.saf.maintArg c arg } }

/-- The self-test of cluster k is over: STATE and SEG; a fail takes the spare out (R576). -/
def State.stestOver (s : State) (k state seg : Nat) : State :=
  let s := { s with threads := s.threads.filter (fun e =>
    !(cluOf e.1 = k && match e.2.svc with | some t => decide (t.routine = 2) | none => false)) }
  let s := s.setRegN (aUcsStest k) (state * 2 ^ 29 + seg % 256)
  if state = 3 then
    let s := s.setClu k { s.clu k with deadSpare := if s.fld (aClu k) 0 5 < 17 then some (s.fld (aClu k) 0 5) else none }
    (s.setFld (aClu k) 0 5 0x1F).safety srcWindshaft 0x0250 k 11
  else s

/-- Is a self-test running in cluster k? -/
def State.stestRuns (s : State) (k : Nat) : Bool := s.fld (aUcsStest k) 29 3 = 1

/-- The activity ends when no self-test runs any more. -/
def State.stestCheck (s : State) : State := if (upTo 192).any s.stestRuns then s else s.mntOver 7 stOk

/-! ### The checkpoint (R250, R251) -/

/-- Steps 1 and 2: CKPT_START naming the other area, and a read of every persistent record at its slice. A read that
finds the miss queue full is held (R236). After the power-fail warning the tail takes no CKPT_START (R247). -/
def State.ckptStart (s : State) : State :=
  if s.top.pfail then s
  else
    let area := 1 - s.mst.jnl.area
    let l := s.liveRecs.filter s.recPers
    let s := s.jadd { type := 5, idx := area }
    let j := s.mst.jnl
    let s := s.setJnl { j.setImages area [] with ckpt := some { area := area, s0 := j.seq, reads := l.length } }
    (l.foldl (fun s i =>
      let o : FlowOp := { src := .checkpoint, kind := .ckpt, view := [], index := BitVec.ofNat 64 i, dom := 0, part := 0 }
      if s.missFull (i / 2 ^ 22) then s.holdFlow (i / 2 ^ 22) o else s.sendFlow (i / 2 ^ 22) o) s).ckptClose

/-- The checkpoint is abandoned (R252): no read of it stays on its way. -/
def State.ckptDrop (s : State) : State :=
  let keep := fun (l : List FlowOp) => l.filter (fun o => decide (o.kind ≠ .ckpt))
  let s := (upTo 32).foldl (fun s i =>
    let x := s.slice i
    s.setSlice i { x with queue := keep x.queue, held := keep x.held, jwait := keep x.jwait }) s
  s.setJnl { s.mst.jnl with ckpt := none }

/-! ### What starts and ends do -/

/-- What the start of an activity does at once. -/
def State.mntBegin (s : State) (c arg : Nat) : State :=
  let s := s.setMntArg c arg
  match c with
  | 1 | 2 => if s.mntOn 1 ∧ s.mntOn 2 then s.coverageEnd 2 else s
  | 6 => s.setClu (arg % 256) { s.clu (arg % 256) with swapOut := some (arg / 256) }
  | 7 => ((if arg = 0xFF then upTo 192 else [arg]).foldl (fun s k => s.stestStart k) s).stestCheck
  | 12 => s.ckptStart
  | _ => s

/-- What a stop before its end does (R577, R568, R114, R252). -/
def State.mntBreak (s : State) (c : Nat) : State :=
  match c with
  | 1 | 2 => s.coverage 2
  | 6 => s.setClu (s.mntArg 6 % 256) { s.clu (s.mntArg 6 % 256) with swapOut := none }
  | 7 => ((upTo 192).filter s.stestRuns).foldl (fun s k => s.stestOver k 4 (s.stestSeg k)) s
  | 12 => s.ckptDrop
  | _ => s

/-- End activity c early with ABORTED. -/
def State.mntAbort (s : State) (c : Nat) : State := (s.mntBreak c).mntOver c stAborted

/-- A number from 0 to n − 1 that the manual leaves to a measurement (log 7). -/
def State.anyBelow (s : State) (n : Nat) : Nat × State := (s.freeVal.toNat % n, s.useFree)

/-- The step an island's re-plan ends at (R571, R572): voltage in 5 mV steps, clock in 25 MHz steps by the policy. -/
def State.replan (s : State) (i : Nat) : State :=
  let (v, s) := s.anyBelow 25
  let (k, s) := s.anyBelow 11
  let volt := 680 + 5 * v
  let clk := match s.fld aAgePolicy 0 2 with
    | 0 => if volt = 800 then 1600 - 25 * (k % 5) else 1600
    | 1 => 1500
    | _ => 1500 + 25 * k
  let s := { s with saf := { s.saf with trim := mset Config.factoryTrim s.saf.trim i (volt * 2048 + clk) } }
  (s.setRegN (aAgeIsl i) (volt * 65536 + clk)).event srcWindshaft 0x0301 (i + volt * 65536 + clk * 2 ^ 32)

/-- The refresh interval of a stack after a retention re-plan (R574). -/
def State.refresh (s : State) (i : Nat) : State :=
  let (v, s) := s.anyBelow 1951
  (s.setRegN (aAgeDram i) (1950 + v)).event srcWindshaft 0x0303 (i + (1950 + v) * 65536)

/-- Delete records of a bulk flush, up to the first whose deletion the journal cannot take now (R247); whether all are
gone. -/
def State.flushRecs : List Nat → State → State × Bool
  | [], s => (s, true)
  | i :: l, s =>
    let s' := s.fDelete (i / 2 ^ 22) i
    if jFits s s' then State.flushRecs l s' else (s, false)

/-- A bulk flush (R577): every entry of the partition in the table, persistent records with PERS = 1; whether all are
gone. -/
def State.bulkFlush (s : State) (arg : Nat) : State × Bool :=
  let t := arg % 32
  let p := bitsOf arg 8 2
  if t < 16 then ((s.emOnce t).foldl (fun s x => if (s.emAt t x).part = p then s.emDelete t x else s) s, true)
  else State.flushRecs (s.liveRecs.filter fun i => decide (s.recOwn i = p ∧ (bitOf arg 16 ∨ !s.recPers i))) s

/-- The swap of activity 6: the outgoing engine is the spare (R40, R575). -/
def State.swapSpare (s : State) (k e : Nat) : State :=
  let s := (s.setFld (aClu k) 0 5 e).setClu k { s.clu k with swapOut := none }
  if s.fld (aMnt 6) 16 8 = byWindshaft then s.event srcWindshaft 0x0311 (k + e * 65536) else s

/-- Has an activity come to where it may end? -/
def State.mntMayEnd (s : State) (c : Nat) : Bool :=
  match c with
  | 1 | 2 | 10 => false
  | 7 => !(upTo 192).any s.stestRuns
  | 6 => s.residents (s.mntArg 6 % 256) (s.mntArg 6 / 256) = 0
  | 12 => s.mst.jnl.ckpt.isNone
  | _ => true

/-- What the end of an activity does. -/
def State.mntFinish (s : State) (c : Nat) : State :=
  let arg := s.mntArg c
  match c with
  | 3 => (if arg = 0xFF then upTo 4 else [arg]).foldl (fun s i => s.refresh i) s
  | 4 => (if arg = 0xFFFF then upTo 107 else [arg]).foldl (fun s i => s.replan i) s
  | 6 => s.swapSpare (arg % 256) (arg / 256)
  | _ => s

/-- A checkpoint start refused with CONFLICT is counted (R264). -/
def State.ckptRefused (s : State) (k : Nat) : State := if k = 12 then s.bump (aMstJnlCnt 3) 1 else s

/-! ### Commands -/

/-- MAINT_START (R580). -/
def execMaintStart (h : HostCmd) (s : State) : Host.Outcome State Fault Refusal :=
  .next (s.startCmd h 0x60 .foreground (h.part.val = 0) (modeA s.top.mode) fun c s =>
    let k := h.op 0 1
    let arg := h.op 8 8
    if k = 0 ∨ k = 10 ∨ 12 < k ∨ h.op 1 7 ≠ 0 ∨ !mntArgOk k arg ∨
        (k = 6 ∧ ((s.spareOf (arg % 256)).isNone ∨ !s.engActive (arg % 256) (arg / 256))) then s.cmdDone c stReject 0
    else if s.top.fw.any (fun f => f.op = 3) then s.cmdDone c stBusy 0
    else
      match s.mntConflict k with
      | some x => ((s.bump (aMntCnt 2) 1).ckptRefused k).cmdDone c stConflict x
      | none => ((s.mntStart k c.part).mntBegin k arg).cmdDone c stOk s.clk.gtc)

/-- End activity k for a command: MAINT_STOP, and ABORT of kind 5 (R129, R481, R581). -/
def State.mntStopFor (s : State) (c : CmdRef) (k : Nat) : State :=
  if !s.mntOn k then s.cmdDone c stNotFound 0
  else if k = 10 then s.actAbort c
  else (s.mntAbort k).cmdDone c stOk 0

/-- MAINT_STOP (R581). -/
def execMaintStop (h : HostCmd) (s : State) : Host.Outcome State Fault Refusal :=
  .next (s.startCmd h 0x61 .foreground (h.part.val = 0) (modeB s.top.mode) fun c s => s.mntStopFor c (h.op 0 1))

/-- MAINT_STATUS (R582). -/
def execMaintStatus (h : HostCmd) (s : State) : Host.Outcome State Fault Refusal :=
  s.cmdB h 0x62 fun c s =>
    let k := h.op 0 1
    if k = 0 then s.cmdDone c stOk (((upTo 13).map (fun j => natBool (s.mntOn j) * 2 ^ j)).sum)
    else if 12 < k then s.cmdDone c stReject 0
    else s.cmdDone c stOk (((upTo 4).map (fun w => s.regN (aMnt k + 4 * w) * 2 ^ (32 * w))).sum)

/-- Is a Windshaft start of activity k due (R577)? At the entry to READY, after a round, on schedule, or on need. -/
def State.autoDue (s : State) (k : Nat) : Bool :=
  let now := s.clk.gtc
  let last := s.regN (aMnt k + 8) + s.regN (aMnt k + 12) * 2 ^ 32
  let never := decide (s.fld (aMnt k) 0 2 = 0)
  match k with
  | 1 | 2 => s.top.mode = .ready && (never || decide (last < s.top.modeGtc))
  | 3 | 5 => never || decide (last + 600 * second ≤ now)
  | 4 => decide (s.saf.ageAt ≠ 0) && (never || decide (last < s.saf.ageAt))
  | 6 => s.saf.swapDue.any fun e => s.fld (aUcsStest e.1) 29 3 = 2 && (s.spareOf e.1).isSome && s.engActive e.1 e.2
  | 9 => true
  | 11 => never || decide (last + 86400 * second ≤ now)
  | 12 => decide (524288 ≤ (match s.mst.jnl.ring with | e :: l => if e.type = 5 then l.length else l.length + 1 | [] => 0))
  | _ => false

/-- ARG of Windshaft's start: of a swap, the first engine due. -/
def State.autoArg (s : State) (k : Nat) : Nat :=
  if k = 6 then
    match s.saf.swapDue.find? fun e => s.fld (aUcsStest e.1) 29 3 = 2 && (s.spareOf e.1).isSome && s.engActive e.1 e.2 with
    | some e => e.1 + e.2 * 256
    | none => 0
  else mntAll k

/-- MAINT_AUTO_START (R577, R579): refused starts are counted and tried again after 1 ms. -/
def execMaintAutoStart (activity : Fin 13) (s : State) : Host.Outcome State Fault Refusal :=
  let k := activity.val
  let tried := mget zeroN s.saf.autoAt k
  if !modeA s.top.mode ∨ s.mntOn k ∨ !s.autoDue k ∨ (tried ≠ 0 ∧ s.clk.gtc < tried + 4000000) then .next s
  else
    let tries := fun (s : State) (g : Nat) => { s with saf := { s.saf with autoAt := mset zeroN s.saf.autoAt k g } }
    match s.mntConflict k with
    | some _ => .next (((tries s s.clk.gtc).bump (aMntCnt 1) 1).ckptRefused k)
    | none =>
      let arg := s.autoArg k
      let s := { s with saf := { s.saf with swapDue := if k = 6 then s.saf.swapDue.erase (arg % 256, arg / 256) else s.saf.swapDue } }
      .next (((tries s 0).mntStart k byWindshaft).mntBegin k arg)

/-- MAINT_END (R577, R588): the activity has run to its end, or was abandoned. A checkpoint ends when its CKPT_END is
in the journal ring (R251); a bulk flush goes on while the journal cannot take its deletions (R247). -/
def execMaintEnd (activity : Fin 13) (ok : Bool) (s : State) : Host.Outcome State Fault Refusal :=
  let k := activity.val
  if !s.mntOn k ∨ k = 10 then .next s
  else if !ok then .next (s.mntAbort k)
  else if k = 8 then
    let (s, all) := s.bulkFlush (s.mntArg 8)
    .next (if all then s.mntOver 8 stOk else s)
  else if s.mntMayEnd k then .next ((s.mntFinish k).mntOver k stOk)
  else .next s

/-- Windshaft tried to start activity k at GTC g and was refused; 0: it was not. -/
def State.tries (s : State) (k g : Nat) : State := { s with saf := { s.saf with autoAt := mset zeroN s.saf.autoAt k g } }

/-- Is Windshaft's self-test of cluster k due: 10 s after the last, and 1 ms after a refusal (R576, R579)? -/
def State.stestDue (s : State) (k : Nat) : Bool :=
  let at_ := (s.clu k).testAt
  let tried := mget zeroN s.saf.autoAt 7
  !s.stestRuns k && decide ((at_ = 0 ∨ at_ + 10 * second ≤ s.clk.gtc + 1) ∧ (tried = 0 ∨ tried + 4000000 ≤ s.clk.gtc))

/-- Windshaft's self-test of cluster k starts. -/
def State.stestRound (s : State) (k : Nat) : State :=
  ((s.tries 7 0).setClu k { s.clu k with testAt := s.clk.gtc + 1 }).stestStart k

/-- SELFTEST_START (R576): Windshaft's round every 10 s, cluster by cluster. -/
def execSelftestStart (race : RaceId) (cluster : ClusterId) (s : State) : Host.Outcome State Fault Refusal :=
  let k := 12 * race.val + cluster.val
  if !modeA s.top.mode ∨ s.stestDue k = false then .next s
  else if s.mntOn 7 ∧ s.fld (aMnt 7) 16 8 = byWindshaft then .next (s.stestRound k)
  else
    match s.mntConflict 7 with
    | some _ => .next ((s.tries 7 s.clk.gtc).bump (aMntCnt 1) 1)
    | none => .next (((s.mntStart 7 byWindshaft).stestRound k).stestCheck)

/-- SELFTEST_DONE (R114, R139, R576): pass, fail, or incomplete, with the last segment completed. -/
def execSelftestDone (race : RaceId) (cluster : ClusterId) (seg : Byte) (pass : Option Bool) (s : State) :
    Host.Outcome State Fault Refusal :=
  let k := 12 * race.val + cluster.val
  let state := match pass with | some true => 2 | some false => 3 | none => 4
  if s.stestRuns k ∧ seg.toNat ≤ 192 then .next ((s.stestOver k state seg.toNat).stestCheck) else .next s

end Sys2Proof.Machine
end

