-- ==== Sys2Proof/Machine/Versions.lean ====
section
/-! DEFINITION. Versions of a domain: VERSION_COMMIT with its checks, activation, and VERSION_STATUS (R83, R84, R86,
R178, R190, R198 to R204). -/

namespace Sys2Proof.Machine

open Sys2Proof

/-! ### The checks of step 4 (R202) -/

/-- Fields that R178 marks 0, and reserved codes. -/
def State.nodeReserved (s : State) (i : Nat) : Bool :=
  let w := s.node i
  bitsOf (w 0) 26 5 ≠ 0 || bitsOf (w 2) 9 7 ≠ 0 || (upTo 8).any (fun j => bitsOf (w (3 + j)) 10 5 ≠ 0) ||
    (upTo 4).any (fun j => bitsOf (w (11 + j)) 8 10 ≠ 0 || decide (2 ≤ bitsOf (w (11 + j)) 29 2)) ||
    bitsOf (w 15) 10 10 ≠ 0 || bitsOf (w 1) 16 2 = 3 || decide (5 ≤ bitsOf (w 15) 26 3)

/-- An extraction that overruns its destination. -/
def State.nodeOverruns (s : State) (i : Nat) : Bool :=
  (upTo 4).any fun j =>
    let w := s.node i (11 + j)
    bitOf w 31 && decide ((if bitsOf w 29 2 = 0 then 72 else 48) < bitsOf w 22 7 + bitsOf w 18 4 + 1)

/-- A reached node passes. -/
def State.nodeOk (s : State) (p i : Nat) : Bool :=
  let w15 := s.node i 15
  inRange (clsRange s.committed p 0) i && bitOf w15 31 &&
    (bitOf w15 30 || bitOf (s.node i 2) 8 || bitOf w15 29) && !s.nodeReserved i && !s.nodeOverruns i

/-- Does the image at byte `off` of race r's bank match R83 and R84, with a right CRC-32C (R86)? -/
def State.imageOk (s : State) (r off : Nat) : Bool :=
  let m := s.mems.prog
  let b := bankBase r + off
  let e := memLe m (b + 6) 2
  let n := memLe m (b + 8) 4
  let fin := roundUp64 (0x40 + 4 * e) + 256 + 4 * n
  decide (memLe m b 4 = 0x44494D47 ∧ memLe m (b + 4) 2 = 1 ∧ 1 ≤ e ∧ e ≤ 256 ∧ 1 ≤ n ∧ n ≤ 32768 ∧
      memLe m (b + 12) 2 ≤ 256 ∧ memLe m (b + 14) 2 = 0 ∧ memLe m (b + 20) 44 = 0 ∧ off + fin ≤ 524288) &&
    (upTo e).all (fun i => bitsOf (memLe m (b + 0x40 + 4 * i) 4) 15 14 = 0) &&
    memLe m (b + 16) 4 = (crc32cStd (getBytes m (b + 0x40) (fin - 0x40))).toNat

/-- A class entry passes. -/
def State.centOk (s : State) (i : Nat) : Bool :=
  let w := s.regN (aClsCent i)
  match bitsOf w 30 2 with
  | 0 => true
  | 1 =>
    let off := bitsOf w 16 13 * 64
    (upTo 16).all fun r => s.imageOk r off && decide (bitsOf w 8 8 < memLe s.mems.prog (bankBase r + off + 6) 2)
  | _ => false

/-- Does the version of slot v of domain d pass step 4? -/
def State.versionOk (s : State) (d v : Nat) : Bool :=
  let p := s.domOwner d
  let w1 := s.regN (aClsVd d v + 4)
  let base := bitsOf w1 16 16
  let cnt := bitsOf w1 0 13
  (s.graph d v).all (s.nodeOk p) && decide (1 ≤ cnt ∧ cnt ≤ 4096 ∧ bitsOf (s.regN (aClsVd d v + 8)) 0 12 < cnt) &&
    inRange (clsRange s.committed p 1) base && inRange (clsRange s.committed p 1) (base + cnt - 1) &&
    (upTo cnt).all fun i => s.centOk (base + i)

/-! ### Commits under way -/

def State.setCommits (s : State) (l : List VCommit) : State := { s with cls := { s.cls with commits := l } }

/-- The commit of a command. -/
def State.commitOf (s : State) (p i tag : Nat) : Option VCommit :=
  s.cls.commits.find? fun x => x.ref.part = p && x.ref.ring = i && x.ref.tag = tag

/-- A commit ends without its activation: the slot is free again. -/
def State.commitFails (s : State) (x : VCommit) (status : Nat) : State :=
  ((s.setCommits (s.cls.commits.erase x)).setVslot x.dom x.slot {}).cmdDone x.ref status 0

/-- VERSION_COMMIT (R202), up to its acceptance. -/
def execVersionCommit (h : HostCmd) (s : State) : Host.Outcome State Fault Refusal :=
  .next (s.startCmd h 0x30 .background true true fun c s =>
    let d := h.op 0 1
    let v := h.op 1 1
    if 15 < d ∨ 3 < v ∨ h.op 2 6 ≠ 0 then s.cmdDone c stReject 0
    else if s.domOwner d ≠ c.part then s.cmdDone c stDenied 0
    else if !modeA s.top.mode then s.cmdDone c stReject 0
    else if s.live d v ∨ (upTo 4).all (s.live d) ∨ s.cls.commits.any (fun x => x.dom = d) then s.cmdDone c stBusy 0
    else
      let s := s.setVslot d v { state := 1 }
      (s.setCommits (s.cls.commits ++ [{ ref := c, dom := d, slot := v, at_ := h.op 8 8, accepted := s.clk.gtc }])).cmdAccept c)

/-- The activation instant (R202): AT, or the first multiple of 4 096 two microseconds on. -/
def activationAt (at_ now : Nat) : Nat := if at_ = 0 then (now + 8000 + 4095) / 4096 * 4096 else at_

/-- VERSION_CHECKS_DONE (R202, steps 4 and 5). -/
def execVersionChecksDone (part : Part) (ring : Fin 4) (tag : Word32) (s : State) : Host.Outcome State Fault Refusal :=
  match s.commitOf part.val ring.val tag.toNat with
  | some x =>
    if x.checked then .next s
    else if !s.versionOk x.dom x.slot then .next (s.commitFails x stReject)
    else if x.at_ ≠ 0 ∧ (x.at_ < s.clk.gtc + 8000 ∨ x.accepted + 4000000000 < x.at_) then .next (s.commitFails x stReject)
    else
      .next (s.setCommits (s.cls.commits.map fun y =>
        if y = x then { y with checked := true, at_ := activationAt y.at_ s.clk.gtc } else y))
  | none => .next s

/-- VERSION_ACTIVATE (R198, R202): at T the slot is current, and the one before it superseded, or free where nothing
runs under it. -/
def execVersionActivate (part : Part) (ring : Fin 4) (tag : Word32) (s : State) : Host.Outcome State Fault Refusal :=
  match s.commitOf part.val ring.val tag.toNat with
  | some x =>
    if !x.checked ∨ s.clk.gtc < x.at_ then .next s
    else
      let s1 := match s.oldSlot x.dom with
        | some o =>
          let y := s.vslot x.dom o
          s.setVslot x.dom o (if y.count = 0 then {} else { y with state := 3, sup := x.at_ })
        | none => s
      let s2 := s1.setVslot x.dom x.slot { state := 2, t := x.at_, count := (s1.vslot x.dom x.slot).count }
      .next ((s2.setCommits (s2.cls.commits.erase x)).cmdDone x.ref stOk x.at_)
  | none => .next s

/-- The state of slot v of domain d at this GTC instant: from T on, that which the commit gives it (R198). -/
def State.slotNow (s : State) (d v : Nat) : Nat :=
  let x := s.vslot d v
  match s.dueCommit d with
  | some y => if y.slot = v then 2 else if x.state = 2 then (if x.count = 0 then 0 else 3) else x.state
  | none => x.state

/-- One word of VERSION_STATUS. -/
def State.slotWord (s : State) (d v : Nat) : Nat := s.slotNow d v * 2 ^ 30 + (s.vslot d v).count % 2 ^ 22

/-- VERSION_STATUS (R204). -/
def execVersionStatus (h : HostCmd) (s : State) : Host.Outcome State Fault Refusal :=
  .next (s.startCmd h 0x31 .foreground true true fun c s =>
    let d := h.op 0 1
    if 15 < d ∨ h.op 1 31 ≠ 0 then s.cmdDone c stReject 0
    else if s.domOwner d ≠ c.part then s.cmdDone c stDenied 0
    else if !modeB s.top.mode then s.cmdDone c stReject 0
    else s.cmdDone c stOk (leNat ((upTo 4).flatMap fun v => leBytes 4 (s.slotWord d v))))

end Sys2Proof.Machine
end

