-- ==== Sys2Proof/Machine/HostCmds.lean ====
section
/-! DEFINITION. The commands ABORT, COMMIT and ATTEST (R468, R469, R480, R481). -/

namespace Sys2Proof.Machine

open Sys2Proof

/-! ### ABORT -/

/-- ABORT of an accepted background command `t` (R481): `c` is the ABORT. -/
def State.abortBg (s : State) (c t : CmdRef) : State :=
  let ended := fun (s : State) (detail : Nat) => (s.cmdDone t stAborted detail).cmdDone c stOk 0
  match t.opcode with
  | 0x04 => ended { s with host := { s.host with attests := s.host.attests.filter (fun a => decide (a.ref ≠ t)) } } 0
  | 0x24 =>
    match s.flushOf t.part with
    | some f => ended (s.setFlush t.part none) (f.deleted % 2 ^ 32 + f.kept % 2 ^ 32 * 2 ^ 32)
    | none => s.cmdDone c stNotFound 0
  | 0x30 =>
    match s.commitOf t.part t.ring t.tag with
    | some x => if x.checked ∧ x.at_ ≤ s.clk.gtc + 8000 then s.cmdDone c stBusy 0 else (s.commitFails x stAborted).cmdDone c stOk 0
    | none => s.cmdDone c stNotFound 0
  | 0x40 =>
    match s.coll.snap with
    | some n =>
      if n.ref = t ∧ s.clk.gtc + 8000 < n.at_ then ended { s with coll := { s.coll with snap := none } } 0
      else s.cmdDone c stBusy 0
    | none => s.cmdDone c stBusy 0
  | 0x71 => s.actAbort c
  | _ => s.cmdDone c stBusy 0

/-- Kind 1: the command of ring i with a TAG. A foreground command that still runs has gone to its slice or table. -/
def State.abortCmd (s : State) (c : CmdRef) (i tag : Nat) : State :=
  match s.bgFind c.part i tag with
  | some t => s.abortBg c t
  | none => s.cmdDone c (if (s.ring c.part i).fg.any (fun t => t.tag = tag) then stBusy else stNotFound) 0

/-- Kind 2: a receive ring is disabled. -/
def State.abortRx (s : State) (c : CmdRef) (j : Nat) : State :=
  let a := aHstRxq c.part j
  if s.dmaOn a then (s.setFld (a + 8) 31 1 0).cmdDone c stOk 0 else s.cmdDone c stNotFound 0

/-- Kind 3: a transmit ring is disabled; descriptors posted and not taken go back with ABORTED. -/
def State.abortTx (s : State) (c : CmdRef) (j : Nat) : State :=
  let a := aHstTxq c.part j
  let key := c.part * 64 + j
  if s.dmaOn a then
    let l := s.txs key
    let next := s.dmaHead a + l.length
    let back : List TxSlot := (upTo (sub16 (s.dmaTail a) next)).map fun i =>
      let pos := (next + i) % 65536
      { pos := pos, status := some stAborted, irq := bitOf (txDesc (s.hostRead c.part (s.dmaAddr a pos) 32)).ctl 3 }
    ((((s.setTxs key (l ++ back)).setTxWait (s.host.txWait.erase key)).withdraw (fun w => decide (w = .hostTx c.part j))).setFld
      (a + 8) 31 1 0).cmdDone c stOk 0
  else s.cmdDone c stNotFound 0

/-- Kind 6: a thread of an engine; a partition other than 0 names one that runs a task of a domain it owns. -/
def State.abortThread (s : State) (c : CmdRef) (n : Nat) : State :=
  match (s.thr n).ctx with
  | some x =>
    if c.part ≠ 0 ∧ s.domOwner (s.pkt x.pkt).dom ≠ c.part then s.cmdDone c stDenied 0
    else (s.exception n excAbort).cmdDone c stOk 0
  | none =>
    if c.part ≠ 0 ∨ (s.thr n).svc.isNone then s.cmdDone c stNotFound 0 else (s.endService n).cmdDone c stOk 0

/-- ABORT (R480, R481). -/
def execAbort (h : HostCmd) (s : State) : Host.Outcome State Fault Refusal :=
  .next (s.startCmd h 0x02 .ahead true (modeC s.top.mode h.part.val) fun c s =>
    let kind := h.op 0 1
    let ring := h.op 1 1
    let sub := h.op 2 2
    let tag := h.op 4 4
    let n := ((ring * 12 + sub % 16) * 17 + bitsOf sub 4 5) * 4 + bitsOf sub 9 2
    let reject := s.cmdDone c stReject 0
    if (kind ≠ 1 ∧ tag ≠ 0) ∨ (kind < 5 ∧ sub ≠ 0) then reject
    else
      match kind with
      | 1 => if 3 < ring then reject else s.abortCmd c ring tag
      | 2 => if 63 < ring then reject else s.abortRx c ring
      | 3 => if 63 < ring then reject else s.abortTx c ring
      | 4 =>
        if 16 < ring then reject
        else if (s.walk c.part ring).isSome then ((s.walkBreak c.part ring).bump (aEmtWalkCnt c.part 3) 1).cmdDone c stOk 0
        else s.cmdDone c stNotFound 0
      | 5 =>
        if sub = 0 ∨ 12 < sub then reject else if c.part ≠ 0 then s.cmdDone c stDenied 0 else s.mntStopFor c sub
      | 6 => if 15 < ring ∨ 11 < sub % 16 ∨ 16 < bitsOf sub 4 5 ∨ 2 ^ 11 ≤ sub then reject else s.abortThread c n
      | _ => reject)

/-! ### COMMIT -/

/-- The COMMIT register of a block and an instance. -/
def commitAddr (block inst : Nat) : Option Nat :=
  match block with
  | 0x003 => if inst = 0 then some aTskCommit else none
  | 0x005 => if inst = 0 then some aClsCommit else none
  | 0x006 => if inst = 0 then some aMstCommit else none
  | 0x007 => if inst = 0 then some aEmtCommit else none
  | 0x008 => if inst = 0 then some aHopCommit else none
  | 0x009 => if inst = 0 then some aQshCommit else none
  | 0x012 => if inst = 0 then some aHstCommit else none
  | 0x00A => if inst < 4 then some (aGateCommit inst) else none
  | 0x00B => if inst < 4 then some (aPortCommit inst) else none
  | _ => none

/-- COMMIT (R468). A set that did not take effect leaves DETAIL without a GTC. -/
def execCommit (h : HostCmd) (s : State) : Host.Outcome State Fault Refusal :=
  .next (s.startCmd h 0x03 .foreground true true fun c s =>
    match commitAddr (h.op 0 2) (h.op 2 2) with
    | none => s.cmdDone c stReject 0
    | some a =>
      if commitWriter a ≠ some c.part then s.cmdDone c stDenied 0
      else if !modeB s.top.mode then s.cmdDone c stReject 0
      else
        let (st, t) := s.commitGo a c.part
        let gtc := if st = stOk then s.clk.gtc else 0
        t.cmdDone c st (if st = stDenied then 0 else gtc % 2 ^ 64 + t.regN (a + 4) * 2 ^ 64))

/-! ### ATTEST (R469) -/

/-- ATTEST. -/
def execAttest (h : HostCmd) (s : State) : Host.Outcome State Fault Refusal :=
  .next (s.startCmd h 0x04 .background true (modeC s.top.mode h.part.val) fun c s =>
    if h.op 24 4 < 1012 then s.cmdDone c stReject 0
    else
      let a : Attest := { ref := c, nonce := h.op 0 16, res := h.op 16 8 }
      { s with host := { s.host with attests := s.host.attests ++ [a] } }.cmdAccept c)

/-- Exactly n bytes of a list. -/
def exactly (n : Nat) (l : List Byte) : List Byte := l.take n ++ List.replicate (n - l.length) 0

/-- Bytes 0x000 to 0x36F of the statement. -/
def State.statement (s : State) (part nonce : Nat) : List Byte :=
  leBytes 4 0x41545354 ++ leBytes 1 s.top.fwm.run ++ leBytes 1 (modeCode s.top.mode) ++ leBytes 2 part ++
    leBytes 4 Config.romVersion.toNat ++ leBytes 4 0 ++ leBytes 16 nonce ++ leBytes 8 s.clk.gtc ++
    leBytes 4 (s.evr.optime / 3600 % 2 ^ 20 + s.evr.optime % 3600 * 2 ^ 20) ++ leBytes 4 (s.evr.pcyc % 2 ^ 24) ++
    exactly 64 (Config.manifestDigest s.runSlot) ++ (upTo 192).flatMap fun k => leBytes 4 (s.regN (aUcsPatchVersion k))

/-- ATTEST_DONE (R469). -/
def execAttestDone (part : Part) (ring : Fin 4) (tag : Word32) (s : State) : Host.Outcome State Fault Refusal :=
  match s.host.attests.find? (fun a => a.ref.part = part.val && a.ref.ring = ring.val && a.ref.tag = tag.toNat) with
  | none => .next s
  | some a =>
    let s := { s with host := { s.host with attests := s.host.attests.erase a } }
    let b := s.statement part.val a.nonce
    let s := if a.ref.epoch = s.epoch part.val then s.hostWrite part.val a.res (b ++ exactly 132 (Config.deviceSign b)) else s
    .next (s.cmdDone a.ref stOk 1012)

end Sys2Proof.Machine
end

