-- ==== Sys2Proof/Machine/Blocks.lean ====
section
/-! DEFINITION. What a block loses when it is reset or isolated (R238, R353, R497, R515, R564). -/

namespace Sys2Proof.Machine

open Sys2Proof

/-- Release what something that leaves a reorder unit holds. -/
def State.leavingDrop (s : State) : Leaving → State
  | .toQueue d => (s.letGo d).hostRead_ d
  | .toRing x => s.rxLeave x

/-- The packet of a delay-list entry, none for a keepalive timer. -/
def Delayed.pkt? (d : Delayed) : Option Nat :=
  match d.kind with
  | .timer _ => none
  | _ => some d.ctx.pkt

def Thread.pkt? (t : Thread) : Option Nat := t.ctx.map (·.pkt)

/-- The packets that race r holds: admitted ones and the others. -/
def State.racePkts (s : State) (r : Nat) : List Nat :=
  let x := s.race r
  ((x.held ++ x.ntq).map (fun t => t.ctx.pkt) ++ x.leat ++ (x.dly ++ x.due).filterMap Delayed.pkt? ++
    (s.threads.filter (fun e => decide (raceOf e.1 = r))).filterMap (fun e => e.2.pkt?)).eraseDups

/-- Work items that race r holds. -/
def State.raceWork (s : State) (r : Nat) : Nat :=
  (s.race r).sluice.length + (s.racePkts r).length + ((s.race r).rob.filter (fun e => e.out.isSome)).length

/-- Race r drops the packets it holds, and its exact-match table (R272, R515). Committed settings, with the keepalive
timers, and what has left the reorder unit stay. -/
def State.raceClear (s : State) (r : Nat) : State :=
  let s := (s.race r).sluice.foldl (fun s k => s.sluiceDrop k) s
  let ended := (s.race r).rob.filterMap (fun e => e.out)
  let s := s.setRace r { s.race r with rob := [] }
  let s := ended.foldl (fun s l => l.foldl (fun s y => s.leavingDrop y) s) s
  let s := (s.racePkts r).foldl (fun s k => s.dropPkt k) s
  let x := s.race r
  let s := s.setRace r
    { dly := x.dly.filter (fun d => d.pkt?.isNone), due := [], seq := x.seq, robMax := x.robMax, switch := x.switch
      ager := x.ager, relocV := x.relocV }
  let s := s.withdraw fun w => match w with | .keepalive q _ => decide (q = r) | _ => false
  let svcs := (s.threads.filter (fun e => raceOf e.1 = r && e.2.svc.isSome)).map (·.1)
  let s := svcs.foldl (fun s n => s.endService n) s
  State.haltCover
    { s with threads := s.threads.filter (fun e => decide (raceOf e.1 ≠ r))
             comps := s.comps.filter (fun c => decide (raceOf c.thread ≠ r))
             clusters := (s.clusters.map (fun e => if e.1 / 12 = r then (e.1, { e.2 with ready := [], hashq := [] }) else e)).filter
               (fun e => decide (e.2 ≠ dCluster e.1))
             em := s.em.filter (fun e => decide (e.1 < emBase r ∨ emBase (r + 1) ≤ e.1)) }

/-- The slices of flow island i (R14). -/
def slicesOf (i : Nat) : List Nat := (upTo 8).map (fun j => 8 * i + j)

/-- Operations that flow island i has not applied; those held at their clusters have not reached it. -/
def State.flowOps (s : State) (i : Nat) : List FlowOp :=
  (slicesOf i).flatMap fun sl => (s.slice sl).queue ++ (s.slice sl).jwait

/-- An operation of slice sl ends with MISS, a `meter` counted as such (R400); that of a host command with NOTFOUND. A
checkpoint that loses a read is given up. -/
def State.opMissed (s : State) (sl : Nat) (o : FlowOp) : State :=
  let s := match o.kind with | .meter .. => s.bump (aQshWeirCnt o.part 3) 1 | _ => s
  match o.src with
  | .host c => s.cmdDone c stNotFound 0
  | .checkpoint => if s.mntOn 12 then s.mntAbort 12 else s
  | src => s.complete (srcSlice sl) src 0xFFFFFFFFFFFFFFFF rcMiss [] false

/-- The sweeper of slice sl has its pass of this second behind it, whole or not (R239): the next starts at the next
multiple of 1 s, and a flush waits for it (R290). A block reset cuts a pass so (log 105). -/
def State.passCut (s : State) (sl : Nat) : State :=
  let s := s.setSlice sl { s.slice sl with pass := s.sliceGtc sl / second * second + 1, next := 4194304 }
  (upTo 4).foldl (fun s p =>
    match s.flushOf p with
    | some f => s.setFlush p (some { f with active := f.active.filter (· ≠ sl) })
    | none => s) s

/-- Flow island i loses its operations and its caches; records, index and free rings stay (R238). -/
def State.flowClear (s : State) (i : Nat) : State :=
  (slicesOf i).foldl (fun s sl =>
    let x := s.slice sl
    let s := (s.setSlice sl { x with queue := [], jwait := [], recCache := [], idxCache := [] }).passCut sl
    (x.queue ++ x.jwait).foldl (fun s o => s.opMissed sl o) s) s

/-- Queues whose port is one of Tailrace t, with something in them. -/
def State.tailQueues (s : State) (t : Nat) : List Nat :=
  (s.eg.queues.filter (fun e => decide (s.queuePort e.1 / 32 = t))).map (·.1)

/-- Packets queued at Tailrace t. -/
def State.tailWork (s : State) (t : Nat) : Nat := ((s.tailQueues t).map (fun q => (s.queue q).fifo.length)).sum

/-- A frame in transmission, or suspended, is cut: it leaves without a valid FCS, and its copy is released. -/
def State.cutTx (s : State) (n : Nat) : State :=
  let x := s.portS n
  let s := (s.settleCbs n).setPortS n { x with tx := none, susp := none, sel := none }
  (x.tx.toList ++ x.susp.toList).foldl (fun s t => (s.sendOut { port := n, frame := t.frame, ok := false }).dropCopy t.d n) s

/-- The port of a scheduled node, by its key (R359, R366). -/
def State.nodePort (s : State) (k : Nat) : Nat :=
  match k / 2 ^ 20 with
  | 0 => s.queuePort (k % 2 ^ 20)
  | 1 => s.groupPort (s.subGroup (k % 2 ^ 20))
  | 2 => s.groupPort (k % 2 ^ 20)
  | _ => k % 2 ^ 20

/-- Tailrace t drops what is queued for its ports; levels, credits, deficits and statistics return to their start. -/
def State.tailClear (s : State) (t : Nat) : State :=
  let s := (upTo 32).foldl (fun s i =>
    let s := s.cutTx (32 * t + i)
    s.setPortS (32 * t + i) { s.portS (32 * t + i) with tier := none, oversize := [] }) s
  let qs := s.tailQueues t
  let s := qs.foldl (fun s q =>
    let x := s.queue q
    let s := s.setQueue q { x with fifo := [], depth := 0 }
    x.fifo.foldl (fun s d => s.dropCopy d (s.queuePort q)) s) s
  let s := qs.foldl (fun s q => s.setQueue q { s.queue q with credit := 0, crAt := s.clk.gtc, stat := {} }) s
  let other := fun (k : Nat) => decide (s.nodePort k / 32 ≠ t)
  { s with eg := { s.eg with levels := s.eg.levels.filter (fun e => other e.1)
                             deficit := s.eg.deficit.filter (fun e => other e.1)
                             turn := s.eg.turn.filter (fun e => other e.1) } }

/-- Octet k: its links go down, frames in its MACs are lost (R515). -/
def State.octetClear (s : State) (k : Nat) : State :=
  (upTo 8).foldl (fun s i => (s.linkFall (8 * k + i)).cutTx (8 * k + i)) s

/-- Packets that hold cells or pages. -/
def State.hopWork (s : State) : Nat :=
  (s.pkts.filter (fun e => decide (e.2.cells ≠ []))).length +
    ((s.eg.queues.flatMap (fun e => e.2.fifo)).filter (fun d => decide (d.pages ≠ []))).length

/-- The free runs of n numbers without those of an ascending list. -/
def runsWithout (n : Nat) : Nat → List Nat → List (Nat × Nat)
  | lo, [] => if lo < n then [(lo, n - lo)] else []
  | lo, k :: l => (if lo < k then [(lo, k - lo)] else []) ++ runsWithout n (k + 1) l

/-- Cells and pages that stay quarantined. -/
def quarOf (m : SMap CellSt) : SMap CellSt := m.filter (fun e => e.2.quar)

/-- The packets of race r that lie, or will lie, in cells: all but expiry tasks (R241). -/
def State.cellPkts (s : State) (r : Nat) : List Nat := (s.racePkts r).filter fun k => decide ((s.pkt k).kind ≠ .expiry)

/-- Race r drops its Sluice frames and the packets `gone`, the threads that run them are free, and what has ended in its
reorder unit leaves nothing. Nothing else of the race changes. -/
def State.raceDiscard (s : State) (r : Nat) (gone : List Nat) : State :=
  let s := (s.race r).sluice.foldl (fun s k => s.sluiceDrop k) s
  let x := s.race r
  let stays := fun (k : Nat) => !gone.contains k
  let s := s.setRace r
    { x with held := x.held.filter (fun t => stays t.ctx.pkt), ntq := x.ntq.filter (fun t => stays t.ctx.pkt), leat := []
             dly := x.dly.filter (fun d => d.pkt?.all stays), due := x.due.filter (fun d => d.pkt?.all stays)
             rob := x.rob.filter (fun e => e.out.isNone) }
  let ns := (s.threads.filter (fun e => decide (raceOf e.1 = r) && !e.2.pkt?.all stays)).map (·.1)
  let s := ns.foldl (fun s n => s.freeThread n) s
  let s := (x.rob.filterMap (fun e => e.out)).foldl (fun s l => l.foldl (fun s y => s.leavingDrop y) s) s
  (gone.foldl (fun s k => s.dropPkt k) s).pauses r

/-- Tailrace t drops what is queued for its ports and cuts what they send; its levels, credits and statistics go on. -/
def State.tailDiscard (s : State) (t : Nat) : State :=
  let s := (upTo 32).foldl (fun s i => s.cutTx (32 * t + i)) s
  (s.tailQueues t).foldl (fun s q => (s.queue q).fifo.foldl (fun s d => (s.unqueue q d).dropCopy d (s.queuePort q)) s) s

/-- The Hopper discards every packet held in cells and pages, wherever its descriptor stands, and rebuilds its rings
without what is quarantined; the committed owner set, GEN of every buffer, and the requests that no packet has made
stay (R353). Pauses end, since no owner holds a cell (R329). -/
def State.hopClear (s : State) : State :=
  let s := (upTo 16).foldl (fun s r => s.raceDiscard r (s.cellPkts r)) s
  let s := (upTo 16).foldl (fun s t => s.tailDiscard t) s
  let s := (upTo 16).foldl (fun s r =>
    let x := s.race r
    let s := s.setRace r { x with switch := [] }
    x.switch.foldl (fun s d => s.dropCopy d 0x1FF) s) s
  let qc := quarOf s.hop.cells
  let qp := quarOf s.hop.pages
  let idle := fun (m : SMap CellSt) =>
    (m.map fun e => (e.1, ({ gen := e.2.gen, quar := e.2.quar } : CellSt))).filter fun e => decide (e.2 ≠ {})
  let own : SMap OwnerUse := (s.hop.own.filter (fun e => e.2.pause)).map fun e => (e.1, { pause := true })
  State.pauseEnds
    { s with pkts := s.pkts.filter (fun e => e.2.kind = .expiry), rx := []
             host := { s.host with bufs := [], retDue := [] }
             hop := { ring := runsWithout 786432 0 (qc.map (·.1)), cells := idle s.hop.cells, quarCells := qc.length, own := own
                      reqs := s.hop.reqs.filter (fun q => match q.who with | .frame _ => false | _ => true)
                      pauseTx := s.hop.pauseTx
                      pageRing := runsWithout 8388608 0 (qp.map (·.1)), pages := idle s.hop.pages, quarPages := qp.length } }

/-- Work items the island of a block reset holds (R497). -/
def State.blockWork (s : State) (kind i : Nat) : Nat :=
  match kind with
  | 0 => s.raceWork i
  | 1 => (s.flowOps i).length
  | 2 => s.tailWork i
  | 3 => ((upTo 8).map (fun j =>
      let x := s.portS (8 * i + j)
      x.rxE.toList.length + x.rxP.toList.length + x.tx.toList.length + x.susp.toList.length)).sum
  | _ => s.hopWork

/-- Does the island hold nothing that it would still drain? A Tailrace waits for its frames in transmission only. -/
def State.blockIdle (s : State) (kind i : Nat) : Bool :=
  match kind with
  | 2 => (upTo 32).all fun j => (s.portS (32 * i + j)).tx.isNone && (s.portS (32 * i + j)).susp.isNone
  | _ => s.blockWork kind i = 0

/-- The block loses what R515 says. -/
def State.blockClear (s : State) (kind i : Nat) : State :=
  match kind with
  | 0 => s.raceClear i
  | 1 => s.flowClear i
  | 2 => s.tailClear i
  | 3 => s.octetClear i
  | _ => (s.bump (aHopCnt 2) s.hopWork).hopClear

end Sys2Proof.Machine
end

