-- ==== Sys2Proof/Machine/Replay.lean ====
section
/-! DEFINITION. The replay of the journal at a cold start (R237, R253). -/

namespace Sys2Proof.Machine

open Sys2Proof

/-- A persistent record as the journal gives it: key, F_FLAGS bits [63:56] and [30:0], F_XLATE. -/
structure Kept where
  key : List Word64
  flags : Word64
  xlate : Word64
deriving DecidableEq, Repr

/-- The bits of F_FLAGS that a replayed record has. -/
def keptFlags (v : Word64) : Word64 := v &&& 0xFF0000007FFFFFFF

def Image.kept (x : Image) : Kept :=
  { key := x.key, xlate := x.xlate, flags := BitVec.ofNat 64 (x.flags % 2 ^ 31 + (x.dom % 16 * 16 + x.own % 4 * 4 + 3) * 2 ^ 56) }

/-- Step 1: the last CKPT_END whose CKPT_START is there and whose CRC matches, as S0 with the images of its area. -/
def lastCkpt (area : Nat → List Image) : List JEntry → List JEntry → Option (Nat × List Image)
  | _, [] => none
  | before, e :: l =>
    match lastCkpt area (before ++ [e]) l with
    | some r => some r
    | none =>
      if e.type = 6 ∧ e.crcOk then
        match (before.filter (fun f => decide (f.type = 5 ∧ f.idx = e.idx) && f.crcOk)).getLast? with
        | some f =>
          let imgs := area e.idx
          if e.b = ((crc32cStd (imgs.flatMap Image.bytes)).zeroExtend 64 : Word64) ∧ e.a.toNat = imgs.length
          then some (f.seq, imgs) else none
        | none => none
      else none

/-- Where the replay stands: the records so far by index, the last SEQ applied, an INSERT that waits for its
INSERT_KEY, and whether it has stopped. -/
structure Replay where
  recs : SMap (Option Kept) := []
  seq : Nat
  ins : Option JEntry := none
  stop : Bool := false

def noKept : Nat → Option Kept := fun _ => none

/-- Steps 2 and 3: one entry in SEQ order; a gap, or an entry whose CRC fails, stops the replay, and an INSERT without
its key is discarded. -/
def Replay.apply (x : Replay) (e : JEntry) : Replay :=
  if x.stop || e.seq != x.seq + 1 || !e.crcOk then { x with stop := true }
  else
    let y : Replay := { x with seq := e.seq, ins := none }
    let put := fun (v : Option Kept) => { y with recs := mset noKept x.recs e.idx v }
    match e.type with
    | 1 => { y with ins := some e }
    | 2 =>
      match x.ins with
      | some i =>
        if i.idx = e.idx then put (some { key := i.c ++ e.c, flags := keptFlags i.a, xlate := i.b }) else y
      | none => y
    | 3 =>
      match mget noKept x.recs e.idx with
      | some k => put (some (if e.word = 6 then { k with flags := keptFlags e.a } else { k with xlate := e.a }))
      | none => y
    | 4 => put none
    | _ => y

/-- The records that the journal restores, in index order. -/
def State.replayed (s : State) : List (Nat × Kept) :=
  let j := s.mst.jnl
  let (s0, imgs) := (lastCkpt (fun a => if a = 0 then j.area0 else j.area1) [] j.ring).getD (0, [])
  let start : Replay := { seq := s0, recs := imgs.foldl (fun m x => mset noKept m x.idx (some x.kept)) [] }
  let x := (j.ring.filter (fun e => decide (s0 < e.seq))).foldl Replay.apply start
  x.recs.filterMap (fun e => e.2.map (fun k => (e.1, k)))

/-- A free ring without index i. -/
def freeWithout (i : Nat) (l : List FreeRun) : List FreeRun :=
  l.flatMap fun r =>
    if r.first ≤ i ∧ i < r.first + r.count then
      (if r.first < i then [{ r with count := i - r.first }] else []) ++
        (if i + 1 < r.first + r.count then [{ r with first := i + 1, count := r.first + r.count - i - 1 }] else [])
    else [r]

/-- Put a restored record at index i of slice sl; whether its entry found room. -/
def State.restoreAt (s : State) (sl i : Nat) (k : Kept) : State × Bool :=
  let p := bitsOf k.flags.toNat 58 2
  let now := BitVec.ofNat 64 s.clk.gtc
  let e : FEntry := { valid := true, fp := s.keyHash 0 p k.key % 2 ^ 32, idx := i, pers := true, own := p,
                      epoch := s.newEpoch p 16 }
  match s.fPlace sl e k.key with
  | (_, t, .ok) =>
    ((t.setRecWords i ((upTo 16).map fun w =>
        if w = fFlags then k.flags else if w = fLast ∨ w = fCreate then now else if w = fXlate then k.xlate
        else k.key.getD w 0)).addHeld p true, true)
  | (_, t, _) => (t, false)

/-- A record whose entry can be placed nowhere is not restored: event 0x0305, with its DELETE in the journal. -/
def State.notRestored (s : State) (i : Nat) (k : Kept) : State :=
  s.event srcWindshaft 0x0305 (i + bitsOf k.flags.toNat 58 2 * 2 ^ 32)

/-- Restore a record at its journalled index. -/
def State.restoreHome (s : State) (i : Nat) (k : Kept) : State :=
  let sl := i / 2 ^ 22
  match s.restoreAt sl i k with
  | (t, true) => t.setSlice sl { t.slice sl with free := freeWithout i (t.slice sl).free }
  | (_, false) => (s.jDelete i).notRestored i k

/-- Restore a record, whose old index is journalled as deleted, in the home slice of its key, at an index from that
slice's free ring (event 0x0304). -/
def State.restoreMoved (s : State) (i : Nat) (k : Kept) : State :=
  let sl := s.homeOf (bitsOf k.flags.toNat 58 2) k.key
  match freeTake s.clk.gtc (s.slice sl).free with
  | none => s.notRestored i k
  | some (j, _, rest) =>
    match s.restoreAt sl j k with
    | (t, true) =>
      ((t.setSlice sl { t.slice sl with free := rest }).jInsert j).event srcWindshaft 0x0304 (i + j * 2 ^ 32)
    | (_, false) => s.notRestored i k

/-- The replay (R253): records at their own index first, then those that another slice now owns, each in index order.
The old indices of the latter are journalled as deleted before any of them takes a new index, so that no DELETE drops
a record that has taken the index it names. -/
def State.replay (s : State) : State :=
  let l := s.replayed
  let home := fun (e : Nat × Kept) => decide (s.homeOf (bitsOf e.2.flags.toNat 58 2) e.2.key = e.1 / 2 ^ 22)
  let s := (l.filter home).foldl (fun s e => s.restoreHome e.1 e.2) s
  let moved := l.filter (fun e => !home e)
  let s := moved.foldl (fun s e => s.jDelete e.1) s
  moved.foldl (fun s e => s.restoreMoved e.1 e.2) s

end Sys2Proof.Machine
end

