-- ==== Sys2Proof/Machine/Starts.lean ====
section
/-! DEFINITION. Resets, starts and restarts (R494 to R506, R508, R511, R512): what each reach keeps, and the steps of
a cold start and of a warm restart. -/

namespace Sys2Proof.Machine

open Sys2Proof

/-! ### Sources (R494) -/

def rstPor : Nat := 0
def rstBor : Nat := 1
def rstPinWarm : Nat := 2
def rstPinCold : Nat := 3
def rstWdt : Nat := 4
def rstSwr : Nat := 5
def rstDbg : Nat := 6
def rstClkf : Nat := 7
def rstLock : Nat := 8
def rstEscalate : Nat := 9

/-- Note a reset in RST_CAUSE: its bit, REACH and LAST, with event 0x0001 (R520, R541). -/
def State.rstCause (s : State) (src reach : Nat) : State :=
  let v := putBits (putBits (s.regN aRstCause ||| 2 ^ src) 16 4 src) 20 2 reach
  (s.setRegN aRstCause v).event srcReset 0x0001 v

/-- Set a cause bit and count the reset, leaving REACH and LAST (R512). -/
def State.rstMerge (s : State) (src : Nat) : State :=
  (s.setRegN aRstCause (s.regN aRstCause ||| 2 ^ src)).bump (aRstCnt src) 1

def State.setTop (s : State) (t : Top) : State := { s with top := t }

/-- The start under way ends in SAFE with a cause of R517; the first cause stays. -/
def State.endInSafe (s : State) (cause : Option Nat) : State :=
  match cause with
  | some c => if s.top.endSafe then s else s.setTop { s.top with endSafe := true, safeCause := c }
  | none => s

/-! ### Mode changes with what follows from them -/

/-- Ports whose link is up. -/
def State.linked (s : State) : List Nat := (s.eg.ports.filter (fun e => e.2.link)).map (·.1)

/-- Change the mode. Links go down where frames no longer pass (R409), and passes stop in RESTART and SAFE (R239). -/
def State.enterMode (s : State) (m : Mode) : State :=
  let was := s.serves
  let s := s.setMode m
  let s := if was && !s.serves then s.linked.foldl (fun s n => s.linkFall n) s else s
  if m = .restart ∨ m = .safe then s.stopPasses else s

/-- Enter SAFE with a cause (R517). -/
def State.enterSafe (s : State) (cause : Nat) : State := (s.setFld aTopStatus 24 4 cause).enterMode .safe

/-! ### What a reset keeps -/

/-- Does a register row survive a warm reset (with R496), a reset of any reach? -/
def RegRow.survives (r : RegRow) (cold : Bool) : Bool :=
  match r.keep with
  | .both => false
  | .cold => !cold
  | .nv => true

def survivesAt (cold : Bool) (a : Nat) : Bool :=
  match findReg a with
  | some (r, _, _) => r.survives cold
  | none => false

/-- The end of a debug session (R628) with what a reset leaves of the debug port: failures, lockout and USER digest. -/
def Dbg.afterReset (d : Dbg) : Dbg := { fails := d.fails, lockEnd := d.lockEnd, user := d.user, ir := d.ir }

/-- A reset ends a debug session (R638). -/
def State.sessionReset (s : State) : State := if s.dbg.level = 0 then s else s.event srcEosta 0x8012 2

/-- The recorder goes on over every reset; freezes end, and a new start begins (R542, R547). -/
def Evr.afterReset (e : Evr) : Evr := { e with freeze := [], frozenSince := 0, startNext := e.faultNext + e.hold.length }

/-- A cold reset by source `src` (R496, R500, R512): every sequence is abandoned, and what lies in the nonvolatile
memory, the commit domain and the fuses stays. The mode change and the reset are recorded. -/
def State.coldReset (s : State) (src : Nat) : State :=
  let s := s.drainTail.sessionReset
  let s := s.setMode .cold
  let j := s.mst.jnl
  let t : State :=
    { State.reset with
      pending := s.pending, nextPkt := s.nextPkt, nextTask := s.nextTask
      clk := { free := s.clk.free }
      regs := s.regs.filter (fun e => survivesAt true e.1)
      cnt := s.cnt.filter (fun e => survivesAt true e.1)
      evr := s.evr.afterReset
      ucs := { slot0 := s.ucs.slot0, slot1 := s.ucs.slot1, cur := s.ucs.cur, stagedSince := s.ucs.stagedSince, modeBad := s.ucs.modeBad }
      top := { fwm := s.top.fwm, rstHeld := s.top.rstHeld, vinUp := s.top.vinUp, vinLow := s.top.vinLow
               trimFails := if src = rstPinCold then s.top.trimFails else 0 }
      mst := { jnl := { ring := j.ring, seq := j.seq, area := j.area, area0 := j.area0, area1 := j.area1 }
               expSeq := if src = rstPinCold then s.mst.expSeq else [] }
      saf := { trim := s.saf.trim }
      dbg := s.dbg.afterReset
      mems := { nvRaw := s.mems.nvRaw, host := s.mems.host }
      host := { perst := s.host.perst, epoch := s.host.epoch }
      eg := { sent := s.eg.sent, mods := s.eg.mods.filterMap fun e =>
                if e.2.prs || e.2.int then some (e.1, { prs := e.2.prs, int := e.2.int }) else none }
      ptp := { todSent := s.ptp.todSent }
      smb := { out := s.smb.out }
      msix := s.msix, rdata := s.rdata }
  let e := t.host.epoch
  let t := { t with host := { t.host with epoch := (upTo 4).foldl (fun m p => mset zeroN m p (mget zeroN m p + 1)) e } }
  -- RST_CAUSE holds the cold cause alone
  let v := 2 ^ src + src * 2 ^ 16
  ((t.setRegN aRstCause v).event srcReset 0x0001 v).newNonce

/-- A cold-reach source: ignored in COMMIT (R511, R512). -/
def State.coldSource (s : State) (src : Nat) : State := if s.top.mode = .commit then s else s.coldReset src

/-- Every running activity is abandoned (R512, R252). -/
def State.abandon (s : State) : State :=
  let s := ((upTo 13).filter s.mntOn).foldl (fun s c => s.mntAbort c) s
  { s with ucs := { s.ucs with act := none } }

/-- Register words after a warm reset: what survives, the RWS words at their committed values, and the fields that
keep their values (R517, R589, R596). -/
def State.warmRegs (s : State) : SMap Word32 :=
  let kept := s.regs.filter (fun e => survivesAt false e.1 && rwsMask e.1 = 0)
  let staged := s.committed.foldl (fun m e => mset regDefault m e.1 e.2) kept
  let starts := (upTo 12).foldl (fun m i => mset regDefault m (aMntAct i + 4) (s.reg (aMntAct i + 4))) staged
  let saf := mset regDefault starts aSafStatus (s.reg aSafStatus &&& 0x00FF0000)
  mset regDefault saf aTopStatus (s.reg aTopStatus &&& 0xE0300000)

/-- Page state after a warm reset: ring and state words stay in DRAM, and every page held, cached or quarantined goes
back to the ring, with no piece in it and out of quarantine (R352). -/
def Hop.afterWarm (h : Hop) : Hop :=
  let free := h.pageRing ++ h.pageCache
  let isFree := fun (k : Nat) => free.any fun r => decide (r.1 ≤ k ∧ k < r.1 + r.2)
  let back := (h.pages.map (·.1)).filter (fun k => !isFree k)
  { pageRing := back.foldl runPut free, pageHead := h.pageHead
    pages := (h.pages.map (fun e => (e.1, { e.2 with ref := 0, quar := false }))).filter (fun e => decide (e.2 ≠ {})) }

/-- A slice after a warm reset: records, index, stash and free ring are kept, its caches and operations are not
(R238). -/
def Slice.afterWarm (x : Slice) : Slice := { free := x.free, v := x.v, failed := x.failed ++ x.rebuild }

/-- Walks and epochs after a warm reset: the flow table keeps its entries, so an unfinished walk of it leads to a
restamp (R287, R288); the exact-match tables are empty. -/
def Walks.afterWarm (w : Walks) : Walks :=
  let flow := fun (m : SMap Bool) => m.filter (fun e => decide (e.1 % 32 = 16))
  let broken := (w.run.filter (fun e => e.1 % 32 = 16 && e.2.isSome)).map (·.1)
  { epoch := flow w.epoch, learnSeq := w.learnSeq
    restamp := broken.foldl (fun m k => mset epoch0 m k true) (flow w.restamp) }

/-- A meter with full buckets, as of now (R388). -/
def State.meterFull (s : State) (m : Meter) : Meter :=
  if m.prof = 0 then m
  else
    let f := s.mprof m.prof
    { m with tc := 16 * f.cbs, te := 16 * f.ebs, last := s.clk.gtc / 16 % 2 ^ 48 }

/-- Step 4 of R501: every island in warm reach is reset (R496, and what each block keeps). The links of the hosts go
down, which starts a partition reset at each (R475, R482). -/
def State.warmReach (s : State) : State :=
  let s := s.abandon.drainTail.sessionReset
  let live := (upTo 4).filter (fun p => s.linkUp p)
  let s := live.foldl (fun s p => s.presetBegin p false) s
  let t : State :=
    { s with
      regs := s.warmRegs
      cnt := s.cnt.filter (fun e => survivesAt false e.1)
      latch := [], threads := [], comps := [], pkts := [], rx := []
      races := (s.races.map (fun e => (e.1, ({ relocV := e.2.relocV } : Race)))).filter (fun e => decide (e.2 ≠ {}))
      cls := {}, em := [], weirq := [], link := []
      clusters := (s.clusters.map (fun e => (e.1, ({ deadSpare := e.2.deadSpare } : Cluster)))).filter (fun e => decide (e.2 ≠ {}))
      clk := { s.clk with frozen := false }
      ucs := { s.ucs with staged := none, act := none }
      evr := s.evr.afterReset
      hop := s.hop.afterWarm
      ptp := { at_ := s.clk.gtc, todSent := s.ptp.todSent }
      host := { perst := s.host.perst, epoch := s.host.epoch, preset := s.host.preset, presetAt := s.host.presetAt
                resets := s.host.resets }
      mst := { s.mst with slices := (s.mst.slices.map (fun e => (e.1, e.2.afterWarm))).filter (fun e => decide (e.2 ≠ dSlice e.1))
                          flush := [], jnl := { s.mst.jnl with ckpt := none } }
      walks := s.walks.afterWarm
      weir := s.weir.map (fun e => (e.1, s.meterFull e.2))
      eg := { ports := (s.eg.ports.map (fun e => (e.1, ({ op := e.2.op } : PortS)))).filter (fun e => decide (e.2 ≠ dPortS e.1))
              sent := s.eg.sent
              mods := s.eg.mods.filterMap fun e =>
                if e.2.prs || e.2.int then some (e.1, { prs := e.2.prs, int := e.2.int }) else none }
      coll := {}
      saf := { trim := s.saf.trim, swapDue := s.saf.swapDue, optAt := s.saf.optAt, ageAt := s.saf.ageAt
               aliveAt := s.clk.gtc, hbAt := s.clk.gtc, powerAt := s.clk.gtc }
      dbg := s.dbg.afterReset
      top := { s.top with blk := none, fw := none, fwStatus := 0 } }
  t.gatesRestart.newNonce

/-! ### Warm resets (R499, R501, R512) -/

/-- A new warm reset is accepted: the storm history, RST_CAUSE, and mode RESTART. `uncounted` is the WARM_RESET in SAFE
that clears the history. -/
def State.warmAccept (s : State) (src : Nat) (cause : Option Nat) (uncounted : Bool) : State :=
  let now := s.clk.gtc
  let full := decide (s.top.storm.length = 9) && decide (now < s.top.storm.headD 0 + 60 * second)
  let esc := !uncounted && full
  let storm := if uncounted then [] else if s.top.storm.length = 9 then s.top.storm.drop 1 ++ [now] else s.top.storm ++ [now]
  let s := s.setTop { s.top with
    storm := storm, escalated := !uncounted && (esc || s.top.escalated)
    coldStart := false, endSafe := false, safeCause := 0, blk := none, fw := none }
  -- a patch activation is discarded (R130)
  let s := { s with ucs := { s.ucs with act := none } }
  let s := if s.top.escalated then s.endInSafe (some 3) else s.endInSafe cause
  let s := if esc then (s.setRegN aRstCause (s.regN aRstCause ||| 2 ^ rstEscalate)).bump (aRstCnt rstEscalate) 1 else s
  ((s.bump (aRstCnt src) 1).rstCause src 1).enterMode .restart

/-- A warm-reach source (R494, R511, R512). `cause` is that of SAFE where the reset is to end there. -/
def State.warmReset (s : State) (src : Nat) (cause : Option Nat) (uncounted : Bool) : State :=
  match s.top.mode with
  | .cold | .commit | .test => s
  | .restart => (s.rstMerge src).endInSafe cause
  | .trim | .boot =>
    let s := (s.rstMerge src).endInSafe cause
    if s.top.coldStart then s.setMode .trim else s.setMode .restart
  | _ => s.warmAccept src cause uncounted

/-- RESTART_QUIESCED (R501 steps 2 to 6): frames in transmission have ended and the flush is done. -/
def execRestartQuiesced (s : State) : Host.Outcome State Fault Refusal :=
  if s.top.mode = .restart ∧ s.eg.ports.all (fun e => e.2.tx.isNone && e.2.susp.isNone) then .next (s.warmReach.setMode .trim) else .next s

/-! ### Cold starts (R498, R500) -/

/-- CLOCKS_VALID (R500 step 3). The power-cycle count rises after POR and BOR. -/
def execClocksValid (s : State) : Host.Outcome State Fault Refusal :=
  if s.top.mode = .cold ∧ !s.top.rstHeld ∧ s.top.vinUp then
    let power := bitOf (s.regN aRstCause) rstPor || bitOf (s.regN aRstCause) rstBor
    let s := { s with clk := { s.clk with run := true }
                      evr := { s.evr with pcyc := if power then (s.evr.pcyc + 1) % 2 ^ 24 else s.evr.pcyc } }
    .next (s.setMode .trim)
  else .next s

/-- Voltage and clock of an island, as the trim copies hold them. -/
def trimWord (v : Nat) : Nat := v / 2048 % 1024 * 65536 + v % 2048

/-- The trim set in use is applied: 0 working copy, 1 factory copy, 2 safe defaults (R505, R506, R517). -/
def State.trimApply (s : State) (src : Nat) : State :=
  let s := (upTo 107).foldl (fun s i =>
    let v := if src = 0 then mget Config.factoryTrim s.saf.trim i else if src = 1 then Config.factoryTrim i else 800 * 2048 + 1200
    s.setRegN (aAgeIsl i) (trimWord v)) s
  let s := if src = 2 then s else s.setTop { s.top with trimFails := 0 }
  (s.setFld aTopStatus 22 2 src).setFld aTopStatus 20 2 s.top.trimFails

/-- A failed load: counted, up to 3, and recorded. -/
def State.trimFailed (s : State) : State :=
  (s.setTop { s.top with trimFails := min 3 (s.top.trimFails + 1) }).eventAny srcReset 0x0010

/-- The loads of TRIM: bit i of `fails` says whether load i fails. Fuel: the loads possible. -/
def State.trimLoads (s : State) (fails : Nat) : Nat → Nat → State
  | 0, _ => s
  | f + 1, i =>
    if !bitOf fails i then s.trimApply 0
    else
      let s := s.trimFailed
      if s.top.trimFails < 3 then s.trimLoads fails f (i + 1)
      else
        let s := s.eventAny srcReset 0x0011
        if bitOf fails (i + 1) then (s.eventAny srcReset 0x0010).trimApply 2 else s.trimApply 1

/-- TRIM_APPLIED (R500 step 4, R505, R506): which loads failed comes with it. -/
def execTrimApplied (fails : BitVec 32) (s : State) : Host.Outcome State Fault Refusal :=
  if s.top.mode = .trim then .next ((s.trimLoads fails.toNat 4 0).setMode .boot) else .next s

/-! ### BOOT (R94, R131, R253, R500, R508) -/

/-- Is slot i accepted: its other checks pass (`ok`), and SECVER is not below the minimum raised since? -/
def State.slotOk (s : State) (ok : Bool) (i : Nat) : Bool :=
  ok && decide (s.top.fwm.secMin ≤ Config.secver (mget (fun _ => ([] : List Byte)) s.top.fwm.slots i))

/-- The verdict of a check of slot i. -/
def State.slotVerdict (s : State) (i : Nat) (ok : Bool) : State :=
  let f := s.top.fwm
  let s := s.setTop { s.top with fwm := if i = 0 then { f with ok0 := ok } else { f with ok1 := ok } }
  if ok then s else s.event srcWindshaft 0x8001 i

/-- The slot that BOOT runs: the preferred one, then the other. -/
def State.pickSlot (s : State) (ok : Nat → Bool) : Option Nat × State :=
  let a := s.top.fwm.pref % 2
  let b := 1 - a
  if s.slotOk (ok a) a then (some a, s.slotVerdict a true)
  else
    let s := s.slotVerdict a false
    if s.slotOk (ok b) b then (some b, s.slotVerdict b true) else (none, s.slotVerdict b false)

/-- UCS_CFG from the stored image choice, or the vertical image everywhere (R94, R132). -/
def State.ucsConfig (s : State) : State :=
  let s := if s.ucs.modeBad then s.eventAny srcWindshaft 0x0020 else s
  (upTo 192).foldl (fun s k =>
    s.setRegN (aUcsCfg k) (if s.ucs.modeBad then 0 else bitsOf (s.regN (aUcsModeNext (k / 32))) (k % 32) 1)) s

/-- DRAM and on-chip SRAM are cleared, and the journal is replayed (R500 steps 6 and 7). -/
def State.memInit (s : State) : State :=
  let s := { s with mems := { s.mems with dram := [], sram := [] }
                    mst := { jnl := s.mst.jnl, expSeq := s.mst.expSeq } }
  let s := s.replay
  { s with mst := { s.mst with slices := s.mst.slices.map (fun e => (e.1, { e.2 with recCache := [], idxCache := [] })) } }

/-- SAFE at the end of BOOT, with its cause (R511, R517): the reset ends there, safe defaults, or the backup
oscillator. -/
def State.bootSafe (s : State) : Option Nat :=
  if s.top.endSafe then some s.top.safeCause
  else if s.fld aTopStatus 22 2 = 2 then some 6
  else if s.top.backup then some 4
  else none

/-- The running slot first reaches READY: its RAISE lifts the minimum security version (R508). -/
def State.raiseMin (s : State) : State :=
  let m := s.runSlot
  if Config.raise m ∧ s.top.fwm.secMin < Config.secver m then
    (s.setTop { s.top with fwm := { s.top.fwm with secMin := Config.secver m } }).eventAny srcWindshaft 0x8004
  else s

/-- The end of BOOT: SAFE, or READY. -/
def State.bootEnd (s : State) : State :=
  match s.bootSafe with
  | some c => s.enterSafe c
  | none => (s.enterMode .ready).raiseMin

/-- A warm reset ends: its alert cause arises (R616). -/
def State.warmOver (s : State) : State := if s.top.coldStart then s else s.alertCause 5

/-- BOOT_COMPLETE (R500 steps 5 to 8, R501 step 7, R508): `slotA` and `slotB` say whether slots 0 and 1 pass the checks
of R508 other than SECVER. -/
def execBootComplete (slotA slotB : Bool) (s : State) : Host.Outcome State Fault Refusal :=
  if s.top.mode = .boot then
    match s.pickSlot (fun i => if i = 0 then slotA else slotB) with
    | (none, s) => .next (s.enterMode .recovery).warmOver
    | (some i, s) =>
      let s := s.setTop { s.top with fwm := { s.top.fwm with run := i } }
      let s := s.setFld aTopStatus 19 1 i
      let s := if s.top.coldStart then s.memInit else s
      .next s.ucsConfig.patchStart.bootEnd.warmOver
  else .next s

/-! ### Power (R583 to R586, R608) -/

/-- VIN12_RISE through 10.8 V (R494, R586, R608): a POR where it comes from below 9.0 V. -/
def execVin12Rise (s : State) : Host.Outcome State Fault Refusal :=
  if s.top.vinUp then .next s
  else
    let low := s.top.vinLow
    let s := s.setTop { s.top with vinUp := true, vinLow := false }
    .next (if low then s.coldSource rstPor else s)

/-- BROWN_OUT (R494, R608): the hold-up rail, after the start, or internal rail `rail` out of its window (event
0x0110). -/
def execBrownOut (rail : Option Byte) (s : State) : Host.Outcome State Fault Refusal :=
  if s.top.mode = .commit then .next s
  else
    match rail with
    | some r => .next ((s.event srcWindshaft 0x0110 r.toNat).coldReset rstBor)
    | none =>
      if s.top.vinUp then .next ((s.setTop { s.top with vinUp := false, vinLow := true }).coldReset rstBor) else .next s

/-- The commit domain takes over (R583): nothing more is accepted, links go down, and frames are cut short. -/
def State.commitStart (s : State) : State :=
  let s := s.setTop { s.top with pfail := true, vinUp := false, preHalt := s.top.mode, blk := none, fw := none }
  let s := s.enterMode .commit
  let s := (s.eg.ports.map (·.1)).foldl (fun s n => s.cutTx n) s
  { s with link := [] }

/-- POWER_FAIL_WARNING (R511, R583, R608): in COLD it holds the start until VIN12 rises again. -/
def execPowerFailWarning (s : State) : Host.Outcome State Fault Refusal :=
  match s.top.mode with
  | .commit => .next s
  | .cold => .next (s.setTop { s.top with vinUp := false })
  | _ => .next s.commitStart

/-- The record of the commit (R584 item 2): tail bytes, and the records of item 4. -/
def State.commitRecord (s : State) : EvRec :=
  let n := s.evr.inq.length + s.evr.hold.length
  { src := srcWindshaft, code := 0x0111, detail := s.mst.jnl.tail.length * 64 % 2 ^ 32 + n % 65536 * 2 ^ 32
    gtc := s.clk.gtc, secs := s.evr.optime, pcyc := s.evr.pcyc, commit := true }

/-- COMMIT_END (R584, R586): what the commit writes is in the nonvolatile memory, and a cold start records BOR. -/
def execCommitEnd (s : State) : Host.Outcome State Fault Refusal :=
  if s.top.mode = .commit then
    let s := s.ringAppend s.commitRecord
    let mark := fun (l : List EvRec) => l.map (fun e => { e with commit := true })
    let s := s.setEvr { s.evr with inq := mark s.evr.inq, hold := mark s.evr.hold }
    .next (s.coldReset rstBor)
  else .next s

/-! ### RST_N (R495) -/

/-- RST_N_LOW_100MS: PIN_COLD; the device stays in COLD until the rising edge. -/
def execRstNLow100ms (s : State) : Host.Outcome State Fault Refusal :=
  if s.top.mode = .commit ∨ s.top.rstHeld then .next s
  else
    let s := s.coldReset rstPinCold
    .next (s.setTop { s.top with rstHeld := true })

/-- RST_N_RELEASE after `lowNs` ns low. -/
def execRstNRelease (lowNs : Nat) (s : State) : Host.Outcome State Fault Refusal :=
  if s.top.rstHeld then .next (s.setTop { s.top with rstHeld := false })
  else if lowNs < 2000 ∨ 100000000 ≤ lowNs then .next s
  else if lowNs < 10000 then
    let t := s.useFree
    if Config.shortPulseResets s.clk.free then .next (t.warmReset rstPinWarm none false) else .next t
  else .next (s.warmReset rstPinWarm none false)

/-! ### Windshaft and the clocks (R22, R498, R563, R566) -/

/-- WINDSHAFT_WATCHDOG: event 0x0241 and a warm reset. The watchdog does not run in HALT (R512). -/
def execWindshaftWatchdog (pair : Fin 4) (s : State) : Host.Outcome State Fault Refusal :=
  match s.top.mode with
  | .cold | .commit | .halt => .next s
  | _ => .next (((s.safety (0x380 + pair.val) 0x0241 pair.val 4).reacted 5).warmReset rstWdt none false)

/-- LOCKSTEP_MISMATCH: event 0x0240 and a warm reset. -/
def execLockstepMismatch (pair : Fin 4) (s : State) : Host.Outcome State Fault Refusal :=
  match s.top.mode with
  | .cold | .commit => .next s
  | _ => .next (((s.safety (0x380 + pair.val) 0x0240 pair.val 3).reacted 5).warmReset rstLock none false)

/-- Both resonators have failed (R498): the backup oscillator takes over, with a warm reset that ends in SAFE, or drives
the start under way. -/
def State.clocksLost (s : State) : State :=
  let s := (s.setTop { s.top with resFail0 := true, resFail1 := true, backup := true }).safety srcWindshaft 0x0101 0 7
  (s.reacted 5).warmReset rstClkf (some 4) false

/-- RESONATOR_FAIL (R498): the PLLs move to the other one; SERVICE becomes DEGRADED. -/
def execResonatorFail (which : Fin 2) (s : State) : Host.Outcome State Fault Refusal :=
  let failed := if which.val = 0 then s.top.resFail0 else s.top.resFail1
  let other := if which.val = 0 then s.top.resFail1 else s.top.resFail0
  if s.top.mode = .commit ∨ failed then .next s
  else if other then .next s.clocksLost
  else
    let s := s.setTop (if which.val = 0 then { s.top with resFail0 := true } else { s.top with resFail1 := true })
    .next ((s.safety srcWindshaft 0x0100 which.val 7).degrade 30)

/-- BOTH_RESONATORS_FAIL (R498). -/
def execBothResonatorsFail (s : State) : Host.Outcome State Fault Refusal :=
  if s.top.mode = .commit ∨ (s.top.resFail0 ∧ s.top.resFail1) then .next s else .next s.clocksLost

/-- ISLAND_PLL_LOST_LOCK (R560, R564): event 0x0102; an octet, a race or a Tailrace is isolated, any other island means
SAFE. -/
def execIslandPllLostLock (island : Fin 107) (s : State) : Host.Outcome State Fault Refusal :=
  let i := island.val
  match s.top.mode with
  | .cold | .commit => .next s
  | _ =>
    let s := s.safety srcWindshaft 0x0102 i 7
    .next (if i < 64 then s.dueC 0x0102 3 i else if i < 80 then s.dueC 0x0102 0 (i - 64)
      else if 89 ≤ i ∧ i < 105 then s.dueC 0x0102 2 (i - 89) else s.dueD 0x0102)

/-- GTC_SYNC (R22): the sync code of every 1.024 µs, which is 4 096 counts, reaches an island whose copy stands `drift`
counts from the master. A copy that is ahead, by no more than the 1 count that R22 allows, holds; one more than 1 count
behind loads the master value, with event 0x0103. No copy runs backwards. -/
def execGtcSync (island : Fin 107) (drift : Int) (s : State) : Host.Outcome State Fault Refusal :=
  let i := island.val
  if s.clk.run ∧ s.clk.gtc % 4096 = 0 then
    let off := if drift = -1 then drift else 0
    let least := max (s.islGtc i) (if 0 < drift then s.clk.gtc + 1 else 0)
    let t := { s with clk := { s.clk with isl := mset (fun _ => (0 : Int)) s.clk.isl i off, hold := mset zeroN s.clk.hold i least } }
    .next (if drift < -1 then t.event srcWindshaft 0x0103 i else t)
  else .next s

end Sys2Proof.Machine
end

