-- ==== Sys2Proof/Machine/Modes.lean ====
section
/-! DEFINITION. MODE_REQ, BLOCK_RESET and WARM_RESET (R497, R513 to R515) and the firmware loader (R509, R510, R519). -/

namespace Sys2Proof.Machine

open Sys2Proof

/-! ### MODE_REQ and WARM_RESET -/

/-- The mode that MODE_REQ with a TARGET enters from mode m; none where R511 lists no such transition. -/
def State.modeTarget (s : State) (target : Nat) : Option Mode :=
  match s.top.mode, target with
  | .ready, 4 => some .ready
  | .service, 4 | .degraded, 4 => some .ready
  | .ready, 5 => some (if 2 ^ 29 ≤ s.regN aTopStatus then .degraded else .service)
  | .service, 5 => some .service
  | .degraded, 5 => some .degraded
  | .ready, 8 | .service, 8 | .degraded, 8 | .safe, 8 => some .safe
  | _, _ => none

/-- MODE_REQ (R513). -/
def execModeReq (h : HostCmd) (s : State) : Host.Outcome State Fault Refusal :=
  .next (s.startCmd h 0x90 .foreground (h.part.val = 0) (modeC s.top.mode h.part.val) fun c s =>
    match s.modeTarget (h.op 0 1) with
    | none => s.cmdDone c stReject 0
    | some m =>
      if m = s.top.mode then s.cmdDone c stOk (modeCode m)
      else
        let s := if m = .safe then s.enterSafe 1 else s.enterMode m
        (s.eventAny (srcHost 0) 0x8031).cmdDone c stOk (modeCode m))

/-- WARM_RESET (R514): the completion is written, and the warm restart starts. In SAFE it clears the storm history and
is not counted (R499). -/
def execWarmReset (h : HostCmd) (s : State) : Host.Outcome State Fault Refusal :=
  .next (s.startCmd h 0xA1 .foreground (h.part.val = 0) (modeC s.top.mode h.part.val) fun c s =>
    let e := h.op 0 1
    if 1 < e then s.cmdDone c stReject 0
    else (s.cmdDone c stOk 0).warmReset rstSwr (if e = 1 then some 5 else none) (s.top.mode = .safe))

/-! ### Block resets (R497, R515) -/

/-- Does KIND have this INDEX? -/
def blockExists (kind i : Nat) : Bool :=
  match kind with
  | 0 | 2 => decide (i < 16)
  | 1 => decide (i < 4)
  | 3 => decide (i < 64)
  | 4 => i = 0
  | _ => false

/-- A block reset is accepted: the island is asked to go idle. -/
def State.blockBegin (s : State) (src kind i : Nat) (who : Option CmdRef) : State :=
  let s := (s.bump (aRstCnt src) 1).rstCause src 2
  s.setTop { s.top with blk := some { kind := kind, index := i, phase := 0, since := s.clk.gtc, who := who } }

/-- BLOCK_RESET (R515). -/
def execBlockReset (h : HostCmd) (s : State) : Host.Outcome State Fault Refusal :=
  .next (s.startCmd h 0xA0 .background (h.part.val = 0) (modeB s.top.mode) fun c s =>
    let k := h.op 0 1
    let i := h.op 1 1
    if !blockExists k i then s.cmdDone c stReject 0
    else if s.top.blk.isSome then s.cmdDone c stBusy 0
    else (s.cmdAccept c).blockBegin rstSwr k i (some c))

/-- The reset is applied. The work lost with it is reported, and counted where the quiesce timed out. -/
def State.blockApply (s : State) (b : BlkReset) (timedOut : Bool) : State :=
  let n := s.blockWork b.kind b.index
  let s := if timedOut then s.bump aRstBlkDrop n else s
  let s := s.blockClear b.kind b.index
  s.setTop { s.top with blk := some { b with phase := 1, drops := n, timedOut := timedOut } }

/-- ISLAND_QUIESCED (R497): the island acknowledges, once it has drained what it held. -/
def execIslandQuiesced (s : State) : Host.Outcome State Fault Refusal :=
  match s.top.blk with
  | some b => if b.phase = 0 ∧ s.blockIdle b.kind b.index then .next (s.blockApply b false) else .next s
  | none => .next s

/-- QUIESCE_TIMEOUT (R497, R521): RST_QUIESCE_TMO has passed without the acknowledgement. -/
def execQuiesceTimeout (s : State) : Host.Outcome State Fault Refusal :=
  match s.top.blk with
  | some b =>
    if b.phase = 0 ∧ b.since + 4000 * s.fld aRstQuiesceTmo 0 16 ≤ s.clk.gtc then .next (s.blockApply b true) else .next s
  | none => .next s

/-- ISLAND_RESUMED (R497, R515): the reset is over, and BLOCK_RESET completes. -/
def execIslandResumed (s : State) : Host.Outcome State Fault Refusal :=
  match s.top.blk with
  | some b =>
    if b.phase = 1 then
      let s := s.setTop { s.top with blk := none }
      let s := if b.kind = 1 then (slicesOf b.index).foldl (fun s sl => s.passCut sl) s else s
      match b.who with
      | some c => .next (s.cmdDone c stOk (b.drops % 2 ^ 32 + natBool b.timedOut * 2 ^ 63))
      | none => .next s
    else .next s
  | none => .next s

/-! ### The firmware loader (R509, R510, R519) -/

def State.fwEnd (s : State) (status : Nat) : State := s.setTop { s.top with fw := none, fwStatus := status }

/-- A write of GO = 1 with an operation. -/
def State.fwStart (s : State) (op slot : Nat) : State :=
  let s := s.eventAny srcWindshaft 0x8032
  let len := s.regN aTopFwLen
  let up := modeB s.top.mode
  let f := s.top.fwm
  match op with
  | 1 =>
    if !(up || s.top.mode = .recovery) || (up && slot = f.run) || s.regN aTopFwAddr % 4096 ≠ 0 || 0x03000000 < len then s.fwEnd stReject
    else s.setTop { s.top with fw := some { op := 1, slot := slot } }
  | 2 =>
    if up || s.top.mode = .recovery then (s.setTop { s.top with fwm := { f with pref := slot } }).fwEnd stOk else s.fwEnd stReject
  | 3 => if up then s.setTop { s.top with fw := some { op := 3, slot := slot } } else s.fwEnd stReject
  | _ => s.fwEnd stReject

/-- A write of TOP_FW_CTL by partition 0 or the debug port: ignored while an operation runs. -/
def State.fwCtlWrite (s : State) (m : Master) (v : Nat) : State :=
  if !masterIs m 0 then s.denyMaster m 2 aTopFwCtl
  else if s.top.fw.isSome then s
  else
    let s := s.setRegN aTopFwCtl (v &&& 0x70000001)
    if bitOf v 31 then s.fwStart (bitsOf v 28 3) (v % 2) else s

/-- TOP_FW_CTL with GO = 1 and an operation. -/
def fwWord (op : Nat) (slot : Bool) : Nat := 2 ^ 31 + op * 2 ^ 28 + natBool slot

/-- FW_WRITE (R509, R510). -/
def execFwWrite (m : Master) (slot : Bool) (s : State) : Host.Outcome State Fault Refusal :=
  s.atBus m fun s => s.fwCtlWrite m (fwWord 1 slot)

/-- FW_SELECT (R509, R510). -/
def execFwSelect (m : Master) (slot : Bool) (s : State) : Host.Outcome State Fault Refusal :=
  s.atBus m fun s => s.fwCtlWrite m (fwWord 2 slot)

/-- FW_ACTIVATE (R510). -/
def execFwActivate (m : Master) (slot : Bool) (s : State) : Host.Outcome State Fault Refusal :=
  s.atBus m fun s => s.fwCtlWrite m (fwWord 3 slot)

def noBytesAt : Nat → List Byte := fun _ => []

/-- The verdict of the checks of R508 on a slot. -/
def Fwm.accept (f : Fwm) (slot : Nat) : Fwm := if slot = 0 then { f with ok0 := true } else { f with ok1 := true }

/-- FW_OPERATION_DONE (R509, R510): the checks pass (`some true`), fail, or the host read fails (`none`). -/
def execFwOperationDone (result : Option Bool) (s : State) : Host.Outcome State Fault Refusal :=
  match s.top.fw with
  | none => .next s
  | some o =>
    let f := s.top.fwm
    match o.op, result with
    | 1, some true =>
      let a := s.regN aTopFwAddr + s.regN (aTopFwAddr + 4) * 2 ^ 32
      let b := s.hostRead 0 a (s.regN aTopFwLen)
      let s := s.dmaRead b.length
      .next ((s.setTop { s.top with fwm := { f with slots := mset noBytesAt f.slots o.slot b }.accept o.slot }).fwEnd stOk)
    | 1, some false => .next (s.fwEnd stReject)
    | 1, none => .next (s.fwEnd stTimeout)
    | _, some true =>
      let s := (s.setTop { s.top with fwm := { f with pref := o.slot, run := o.slot }.accept o.slot }).fwEnd stOk
      .next (s.setFld aTopStatus 19 1 o.slot)
    | _, some false => .next (s.fwEnd stReject)
    | _, none => .next s

end Sys2Proof.Machine
end

