-- ==== Sys2Proof/Machine/Aperture.lean ====
section
/-! DEFINITION. What stands in the stacked DRAM (R29, R649, R650), and the DRAM aperture BAR2 (R456, R651). -/

namespace Sys2Proof.Machine

open Sys2Proof

/-! ### The contents of DRAM -/

/-- A state word of R323. -/
def CellSt.word (c : CellSt) : Nat :=
  c.owner % 2 ^ 13 + c.next % 2 ^ 20 * 2 ^ 16 + natBool c.head * 2 ^ 39 + natBool c.quar * 2 ^ 40 +
    natBool c.host * 2 ^ 41 + c.ownp % 4 * 2 ^ 42 + c.gen % 256 * 2 ^ 44 + c.ref % 4096 * 2 ^ 52

def cellOfWord (v : Nat) : CellSt :=
  { ref := bitsOf v 52 12, gen := bitsOf v 44 8, ownp := bitsOf v 42 2, host := bitOf v 41, quar := bitOf v 40
    head := bitOf v 39, next := bitsOf v 16 20, owner := bitsOf v 0 13 }

/-- An index entry of R218. -/
def FEntry.word (e : FEntry) : Nat :=
  natBool e.epoch + e.own % 4 * 2 + natBool e.pers * 8 + natBool e.valid * 16 + e.idx % 2 ^ 27 * 32 + e.fp % 2 ^ 32 * 2 ^ 32

def fentryOfWord (v : Nat) : FEntry :=
  { valid := bitOf v 4, fp := bitsOf v 32 32, idx := bitsOf v 5 27, pers := bitOf v 3, own := bitsOf v 1 2, epoch := bitOf v 0 }

/-- What the 8 bytes at an 8 B aligned DRAM address are (R221, R308, R323, R649, R650): a word of a record, an index
entry, a slot of the load balancer, a page's state word, bytes of a host-private area, a dump or telemetry area or the
vendor region, two entries of the free page ring (R322), or contents whose place the manual does not give (R650). The
deep buffer is bytes, those of the packets in its pages among them (R319, R345). -/
inductive DramAt where
  | record (index word : Nat)
  | bucket (slice pos : Nat)
  | slot (index : Nat)
  | page (index : Nat)
  | ring (place : Nat)
  | raw
  | open_

def dramAt (a : Nat) : DramAt :=
  if a < 0x400000000 then .record (a / 128) (a % 128 / 8)
  else if a < 0x480000000 then
    let e := (a - 0x400000000) / 8
    .bucket (e / 8388608) (e % 8388608)
  else if a < 0xF00000000 then .raw
  else if a < 0xF10000000 then .slot ((a - 0xF00000000) / 8)
  else if a < 0xF14000000 then .page ((a - 0xF10000000) / 8)
  else if a < 0xF16000000 then .ring ((a - 0xF14000000) / 4)
  else if a < 0xF80000000 then .open_
  else .raw

/-- Which free page, counted from the head, stands at a place of the page ring (R322; log 106). -/
def Hop.ringPos (h : Hop) (i : Nat) : Option Nat :=
  let k := (i + 8388608 - h.pageHead) % 8388608
  if k < runCount h.pageRing then some k else none

/-- The 4 B entry at a place of the page ring: a free page's number, or a value left by one taken, a free value. -/
def State.ringEntry (s : State) (i : Nat) : Nat :=
  match s.hop.ringPos i with
  | some k => ((runTake (runSplit k s.hop.pageRing).2).map (·.1)).getD 0
  | none => bitsOf s.freeVal.toNat (i % 2 * 32) 32

/-- Write an entry of the page ring: it names another page then. -/
def State.setRingEntry (s : State) (i v : Nat) : State :=
  match s.hop.ringPos i with
  | some k =>
    let (a, b) := runSplit k s.hop.pageRing
    { s with hop := { s.hop with pageRing := a ++ (v % 8388608, 1) :: (runSplit 1 b).2 } }
  | none => s

/-- The 8 bytes at an 8 B aligned DRAM address. -/
def State.dramWord (s : State) (a : Nat) : Nat × State :=
  match dramAt a with
  | .record i w => ((s.recW i w).toNat, s)
  | .bucket sl pos => ((s.fent sl pos).word, s)
  | .slot i => ((mget zero64 s.mst.lb i).toNat, s)
  | .page k => ((mget dCell s.hop.pages k).word, s)
  | .ring i =>
    (s.ringEntry i + s.ringEntry (i + 1) * 2 ^ 32,
     if (s.hop.ringPos i).isSome ∧ (s.hop.ringPos (i + 1)).isSome then s else s.useFree)
  | .raw => (memLe s.mems.dram a 8, s)
  | .open_ => (s.freeVal.toNat, s.useFree)

def State.setDramWord (s : State) (a v : Nat) : State :=
  match dramAt a with
  | .record i w => s.setRecW i w (BitVec.ofNat 64 v)
  | .bucket sl pos => s.setFent sl pos (fentryOfWord v)
  | .slot i => { s with mst := { s.mst with lb := mset zero64 s.mst.lb i (BitVec.ofNat 64 v) } }
  | .page k => { s with hop := { s.hop with pages := mset dCell s.hop.pages k (cellOfWord v) } }
  | .ring i => (s.setRingEntry i (v % 2 ^ 32)).setRingEntry (i + 1) (v / 2 ^ 32)
  | .raw | .open_ => s.dramWrite a (leBytes 8 v)

/-- n bytes, 4 or 8, at an aligned DRAM address. -/
def State.dramGet (s : State) (a n : Nat) : Nat × State :=
  let (v, s) := s.dramWord (a / 8 * 8)
  (bitsOf v (8 * (a % 8)) (8 * n), s)

def State.dramPut (s : State) (a n v : Nat) : State :=
  let (old, _) := s.dramWord (a / 8 * 8)
  s.setDramWord (a / 8 * 8) (putBits old (8 * (a % 8)) (8 * n) v)

/-! ### BAR2 (R453, R456, R458, R651) -/

/-- A host's address is an offset of its BAR0 below 2^32, `bar2` + y for the offset y of its BAR2, and `bar4` + y for
the offset y of its BAR4 (log 19). -/
def bar2 : Nat := 2 ^ 32
def bar4 : Nat := 2 ^ 33

/-- The offset of BAR4, which is 4 KiB, that a host names. -/
def doorOffset (x : Nat) : Option Nat := if bar4 ≤ x ∧ x < bar4 + 4096 then some (x - bar4) else none

/-- The DRAM address of an offset of BAR2, which is 1 GiB. -/
def State.bar2Addr (s : State) (p x : Nat) : Option Nat :=
  if bar2 ≤ x ∧ x < bar2 + 2 ^ 30 then some (s.regN (aHstBar2Win p) * 2 ^ 26 + (x - bar2)) else none

/-- May partition p access the byte at DRAM address `a` (R456)? -/
def State.bar2May (s : State) (p : Nat) (wr : Bool) (a : Nat) : Bool :=
  if a < 0x480000000 then p = 0 && !wr
  else if a < 0xC80000000 then false
  else if a < 0xE00000000 then (a - 0xC80000000) / 0x60000000 == p
  else if a < 0xF00000000 then !wr && (p = 0 || s.inSub p 0 (a - dumpRegion) 1 || s.inSub p 1 (a - dumpRegion) 1)
  else false

/-- Every byte of the access is checked; one refused byte refuses the whole. -/
def State.bar2Ok (s : State) (p : Nat) (wr : Bool) (a : Nat) : Bool := (upTo 4).all fun i => s.bar2May p wr (a + i)

/-- 4 B at any DRAM address that a host may read. -/
def State.dramWord4 (s : State) (a : Nat) : Nat :=
  let lo := (s.dramWord (a / 8 * 8)).1
  let hi := (s.dramWord (a / 8 * 8 + 8)).1
  bitsOf (lo + hi * 2 ^ 64) (8 * (a % 8)) 32

/-- A read through BAR2: the value and the state. Flow records read in SERVICE are case 2 of R484: older contents, or
a mix of older and current words, so a free value. -/
def State.bar2Read (s : State) (p a : Nat) : Nat × State :=
  if !s.bar2Ok p false a then (0, s.deny p 3 a)
  else if s.top.mode = .service ∧ a < 0x400000000 then (bitsOf s.freeVal.toNat 0 32, s.useFree)
  else (s.dramWord4 a, s)

/-- A write through BAR2. -/
def State.bar2Write (s : State) (p a v : Nat) : State :=
  if s.bar2Ok p true a then s.dramWrite a (leBytes 4 v) else s.deny p 3 a

end Sys2Proof.Machine
end

