-- ==== Sys2Proof/Machine/Reactions.lean ====
section
/-! DEFINITION. The safety monitor (R559 to R568, R591), ageing (R569 to R575), and the timed duties of Windshaft
(R540, R617). -/

namespace Sys2Proof.Machine

open Sys2Proof

/-! ### Isolation (R563, R564, R566) -/

/-- The running activity whose target a reaction isolates ends with ABORTED, and is counted (R566, R597). -/
def State.targetLost (s : State) (code : Nat) (hit : Nat → Bool) : State :=
  if s.mntOn code && hit (s.mntArg code) then (s.mntAbort code).bump (aMntCnt 3) 1 else s

/-- Reaction B on engine e of cluster k. -/
def State.reactB (s : State) (k e : Nat) : State :=
  ((s.isolateEngine k e).reacted 2).targetLost 6 (fun a => a % 256 = k)

/-- Island of a block (R14). -/
def blockIsland (kind i : Nat) : Nat := match kind with | 0 => 64 + i | 2 => 89 + i | _ => i

/-- The ports of a block. -/
def blockPorts (kind i : Nat) : List Nat :=
  if kind = 3 then (upTo 8).map (fun j => 8 * i + j) else (upTo 32).map (fun j => 32 * i + j)

/-- Isolate a race, a Tailrace or an octet: its ports go to electrical idle, and a race or a Tailrace drops what it
holds. -/
def State.isolateBlock (s : State) (kind i : Nat) : State :=
  let s := s.setTop { s.top with isolated := s.top.isolated ++ [(kind, i)] }
  let s := (blockPorts kind i).foldl (fun s n => (s.linkFall n).cutTx n) s
  let s := match kind with
    | 0 => s.raceDiscard i (s.racePkts i)
    | 2 => s.tailDiscard i
    | _ => s
  let s := s.event srcWindshaft 0x0204 (kind + i * 65536)
  let s := s.targetLost 4 (fun a => a = blockIsland kind i)
  if kind = 3 then s.targetLost 5 (fun a => a = i) else s

/-- Isolate a cluster. -/
def State.isolateCluster (s : State) (k : Nat) : State :=
  let s := (s.setTop { s.top with isolated := s.top.isolated ++ [(5, k)] }).clusterOff k
  ((s.degrade 31).targetLost 6 (fun a => a % 256 = k)).targetLost 7 (fun a => a = k)

/-- Reaction C. An isolated block stays so. -/
def State.reactC (s : State) (kind i : Nat) : State :=
  if s.top.isolated.contains (kind, i) then s
  else
    let s := if kind = 5 then s.isolateCluster i else s.isolateBlock kind i
    let s := s.setFld aSafStatus 16 8 (min 255 (s.fld aSafStatus 16 8 + 1))
    (s.degrade 29).reacted 3

/-- Reaction D (R566): SAFE with cause 2. In a start or a restart it is recorded, and the sequence ends in SAFE
(R512). -/
def State.reactD (s : State) (code : Nat) : State :=
  match s.top.mode with
  | .ready | .service | .degraded => ((s.event srcWindshaft 0x0205 code).reacted 4).enterSafe 2
  | .restart | .trim | .boot => ((s.event srcWindshaft 0x0205 code).reacted 4).endInSafe (some 2)
  | _ => s

/-- The next reaction that the monitor has decided on is applied. -/
def State.reactNext (s : State) : State :=
  match s.saf.due with
  | [] => s
  | d :: l =>
    let s := { s with saf := { s.saf with due := l } }
    if d.blockReaction then s.reactC d.kind d.index else s.reactD d.code

/-! ### Failures (R560, R562) -/

/-- The frame in transmission at port n ends with an inverted FCS. -/
def State.markTx (s : State) (n : Nat) : State :=
  let x := s.portS n
  s.setPortS n { x with tx := x.tx.map (fun t => { t with crcBad := true }) }

def State.setMst (s : State) (m : Mst) : State := { s with mst := m }

/-- Does a piece of the descriptor lie at DRAM address a? -/
def Desc.holdsPage (d : Desc) (a : Nat) : Bool :=
  (d.pages.zip d.spans).any fun e =>
    decide (deepBase + e.1 * 4096 + e.2.1 ≤ a ∧ a < deepBase + e.1 * 4096 + roundUp64 (e.2.1 + e.2.2))

/-- An uncorrectable error in a page: the frame in transmission, or cut off, at port n that lies there ends with an
inverted FCS, and queued ones are dropped (R562). -/
def State.pageBad (s : State) (n a : Nat) : State :=
  let x := s.portS n
  let mark := fun (t : Tx) => if t.d.holdsPage a then { t with crcBad := true } else t
  let s := s.setPortS n { x with tx := x.tx.map mark, susp := x.susp.map mark }
  (s.tailQueues (n / 32)).foldl (fun s q =>
    ((s.queue q).fifo.filter (fun d => d.holdsPage a && decide (s.queuePort q = n))).foldl (fun s d =>
      (s.unqueue q d).dropCopy d n) s) s

/-- A word of race r's class entries or parse nodes is in error: until it has been rewritten from another race bank,
packets that read it are dropped (R562). -/
def State.wordBad (s : State) (r a : Nat) : State :=
  let l := s.cls.bad.filter fun w => decide (s.clk.gtc < w.at_ + badWordTime)
  { s with cls := { s.cls with bad := ⟨r, a, s.clk.gtc⟩ :: l } }

/-- What the detection of a failure does (R560, R562). -/
def State.failed (s : State) (f : Failure) : State :=
  let ecc := fun (s : State) (src code detail : Nat) => s.safety src code detail 5
  match f with
  | .crc32c p =>
    let n := p.val
    if (s.portS n).tx.isSome then (s.markTx n).crcFailed n else s
  | .residue r c e =>
    let k := 12 * r.val + c.val
    (s.safety (srcCluster r.val c.val) 0x0201 (k + e.val * 65536) 1).reactB k e.val
  | .cell k a =>
    if (s.pkt k).cells = [] then s
    else (ecc (s.setPkt k { s.pkt k with bad := true }) srcHopper 0x0220 a).reacted 1
  | .page p a =>
    -- which controller holds the address is not given: a free value (log 100)
    (ecc (s.useFree.pageBad p.val a) (srcDram (s.freeVal.toNat % 4)) 0x0221 a).reacted 1
  | .thread t =>
    let n := thrNum t
    if (s.thr n).ctx.isSome || (s.thr n).svc.isSome then s.setThr n { s.thr n with ints := { (s.thr n).ints with ecc := true } } else s
  | .program a => { s with mems := { s.mems with progBad := a / 4 * 4 :: s.mems.progBad.filter (· ≠ a / 4 * 4) } }
  | .classEntry r a => ecc (s.wordBad r.val a) (32 * r.val + 2) 0x0220 a
  | .rule r i => s.setRule r.val i { s.rule r.val i with err := true }
  | .emEntry r x =>
    if (s.emAt r.val x).valid then ecc (s.emDelete r.val x) (32 * r.val + 2) 0x0220 x else s
  | .lpm v6 t n a =>
    let hit := fun (x : Prefix) => x.v6 = v6 && x.table = t && x.len = n && x.addr = a
    if s.cls.lpm.any hit then
      ecc (s.setLpm (s.cls.lpm.map (fun x => if hit x then { x with bad := true } else x))) srcWindshaft 0x0220 t
    else s
  | .record i => s.setMst { s.mst with eccRec := i :: s.mst.eccRec.filter (· ≠ i) }
  | .bucket sl g =>
    let b := sl.val * 2 ^ 20 + g
    s.setMst { s.mst with eccBkt := b :: s.mst.eccBkt.filter (· ≠ b) }
  | .controlStore r c m =>
    let k := 12 * r.val + c.val
    s.setClu k { s.clu k with csFault := some m }
  | .noOwner u a => (ecc s srcWindshaft 0x0220 (u + a * 65536)).dueD 0x0220
  | .corrected => s.bump (aSafCnt 5) 1

/-- SAFETY_REACTION (R562, R563): a diagnostic detects a failure, or the monitor applies the next reaction it has
decided on. It runs while Windshaft does, outside HALT (R635). -/
def execSafetyReaction (failure : Option Failure) (s : State) : Host.Outcome State Fault Refusal :=
  if !s.clk.run ∨ s.top.mode = .halt ∨ s.top.mode = .commit then .next s
  else
    match failure with
    | some f => .next (s.failed f)
    | none => .next s.reactNext

/-! ### The outputs of the monitor (R518, R567) -/

/-- Level of FAULT_N: driven once released; low while SAF_FAULT has a bit, low before release and in COMMIT. -/
def State.faultN (s : State) : Bool := s.fld aTopOutctl 0 1 = 1 && s.regN aSafFault = 0 && s.top.mode != .commit

/-- Level of SAFE_N: driven once released; high in SERVICE and DEGRADED only. -/
def State.safeN (s : State) : Bool := s.fld aTopOutctl 1 1 = 1 && (s.top.mode = .service || s.top.mode = .degraded)

/-! ### Heartbeats (R114, R561) -/

/-- GTC counts of the heartbeat period, 250 µs. -/
def hbPeriod : Nat := 1000000

/-- Engine number: cluster * 17 + engine. -/
def hbKey (k e : Nat) : Nat := 17 * k + e

/-- Does engine e of cluster k take part: it works, and no thread of it is halted? -/
def State.hbTakes (s : State) (k e : Nat) : Bool :=
  (s.engActive k e || s.spareOf k = some e) && !s.cluOff k &&
    (upTo 4).all fun t => (s.thr ((17 * k + e) * 4 + t)).halted.isNone

/-- Segment 1 of a heartbeat has sent its probe to the home slice, counted there (R114). Which slice is home, and the
counter, are not given: a free slice's operations applied (log 109). -/
def State.probe (s : State) : State := s.useFree.bump (aMstCnt (s.freeVal.toNat % 32) 0) 1

/-- HEARTBEAT_RUN (R114): the routine of an engine posts a right or a wrong signature, or was ended at its safe point
behind segment 1. -/
def execHeartbeatRun (race : RaceId) (cluster : ClusterId) (engine : EngineId) (pass : Option Bool) (s : State) :
    Host.Outcome State Fault Refusal :=
  let k := 12 * race.val + cluster.val
  let x := hbKey k engine.val
  if s.runs ∧ s.hbTakes k engine.val then
    let s := s.probe
    match pass with
    | some b => .next { s with saf := { s.saf with hb := mset zeroN s.saf.hb x (if b then 1 else 2) } }
    | none => .next { s with saf := { s.saf with excused := x :: s.saf.excused.filter (· ≠ x) } }
  else .next s

/-- The verdict on one engine at the end of a period. -/
def State.hbVerdict (s : State) (hb : SMap Nat) (excused : List Nat) (k e : Nat) : State :=
  let x := hbKey k e
  if !s.hbTakes k e then s
  else
    let fail := fun (s : State) => (s.safety (srcCluster (k / 12) (k % 12)) 0x0200 (k + e * 65536) 2).reactB k e
    let misses := fun (s : State) (n : Nat) => { s with saf := { s.saf with missed := mset zeroN s.saf.missed x n } }
    match mget zeroN hb x with
    | 1 => misses s 0
    | 2 => fail s
    | _ =>
      let n := mget zeroN s.saf.missed x + 1
      if excused.contains x && decide (n < 3) then misses s n else fail (misses s 0)

/-- HEARTBEAT_CHECK (R561): at the end of each 250 µs in which the races run. -/
def execHeartbeatCheck (s : State) : Host.Outcome State Fault Refusal :=
  if s.runs ∧ max s.saf.hbAt s.top.resumeGtc + hbPeriod ≤ s.clk.gtc then
    let hb := s.saf.hb
    let ex := s.saf.excused
    let s := { s with saf := { s.saf with hb := [], excused := [], hbAt := s.clk.gtc } }
    .next ((upTo 192).foldl (fun s k => (upTo 17).foldl (fun s e => s.hbVerdict hb ex k e) s) s)
  else .next s

/-- TCAM_SCAN (R562): a faulty rule is rewritten from its shadow, or, with the shadow uncorrectable, invalidated. -/
def execTcamScan (race : RaceId) (rule : Nat) (shadowOk : Bool) (s : State) : Host.Outcome State Fault Refusal :=
  let r := race.val
  let x := s.rule r rule
  if x.err && s.clk.run then
    let s := s.setRule r rule { x with err := false, valid := x.valid && shadowOk }
    .next (s.safety (32 * r + 2) 0x0225 (r + rule * 65536 + natBool (!shadowOk) * 2 ^ 63) 5)
  else .next s

/-! ### Ageing (R569 to R575, R593, R594) -/

/-- The result of one island: margin, margin at 0.80 V and 1.50 GHz, years in units of 0.1 year. -/
def State.islandAged (s : State) (i margin guard years : Nat) : State :=
  let a := aAgeIsl i + 4
  let before := s.fld a 0 16
  let s := s.setRegN a (margin % 65536 * 65536 + years % 65536)
  let s := if years < 20 ∧ 20 ≤ before then
      ((s.setFld aAgeSummary 31 1 1).event srcWindshaft 0x0302 (i + years % 65536 * 65536)).alertCause 4
    else s
  if guard < 25 then
    let s := s.safety srcWindshaft 0x0302 (i + years % 65536 * 65536) 11
    if i < 64 then s.dueC 0x0302 3 i else if i < 80 then s.dueC 0x0302 0 (i - 64)
    else if 89 ≤ i ∧ i < 105 then s.dueC 0x0302 2 (i - 89) else s.dueD 0x0302
  else s

/-- AGE_SUMMARY: the island with the fewest YEARS. -/
def State.ageSummary (s : State) : State :=
  let best := (upTo 107).foldl (fun (b : Nat × Nat) i =>
    let y := s.fld (aAgeIsl i + 4) 0 16
    if y < b.2 then (i, y) else b) (0, s.fld (aAgeIsl 0 + 4) 0 16)
  (s.setFld aAgeSummary 16 15 best.1).setFld aAgeSummary 0 16 best.2

/-- AGEING_MEASURE (R569, R573, R575): the round of every 10 min. `islands` gives island, margin in ps, margin at 0.80 V
and 1.50 GHz, and years in units of 0.1 year; `canaries` gives engines (17 k + e) with their canary margin in ps. -/
def execAgeingMeasure (islands : List (Nat × Nat × Nat × Nat)) (canaries : List (Nat × Nat)) (s : State) :
    Host.Outcome State Fault Refusal :=
  if modeB s.top.mode ∧ (s.saf.ageAt = 0 ∨ s.saf.ageAt + 600 * second ≤ s.clk.gtc + 1) then
    let s := islands.foldl (fun s e => if e.1 < 107 then s.islandAged e.1 e.2.1 e.2.2.1 e.2.2.2 else s) s
    let s := s.ageSummary
    let low := (canaries.filter (fun e => e.2 < s.fld aAgePolicy 8 10 && s.engActive (e.1 / 17) (e.1 % 17))).map
      (fun e => (e.1 / 17, e.1 % 17))
    let due := s.saf.swapDue ++ low.filter (fun e => !s.saf.swapDue.contains e)
    .next { s with saf := { s.saf with ageAt := s.clk.gtc + 1, swapDue := due } }
  else .next s

/-! ### Timed duties (R540, R591, R617) -/

/-- SAF_ALIVE_TICK: every 100 µs while the monitor runs. -/
def execSafAliveTick (s : State) : Host.Outcome State Fault Refusal :=
  if s.clk.run ∧ s.top.mode ≠ .halt ∧ s.top.mode ≠ .commit ∧ s.saf.aliveAt + 400000 ≤ s.clk.gtc then
    .next ({ s with saf := { s.saf with aliveAt := s.saf.aliveAt + 400000 } }.bumpReg aSafAlive)
  else .next s

/-- OPTIME_TICK: one more second of operating time. -/
def execOptimeTick (s : State) : Host.Outcome State Fault Refusal :=
  if s.clk.run ∧ s.saf.optAt + second ≤ s.clk.gtc then
    .next { s with saf := { s.saf with optAt := s.saf.optAt + second }, evr := { s.evr with optime := s.evr.optime + 1 } }
  else .next s

/-- The alert cause of VIN12 outside 11.4 V to 12.6 V for 10 ms (R616). -/
def State.vinAlert (s : State) (vin : Nat) : State :=
  let put := fun (s : State) (n : Nat) => { s with smb := { s.smb with vinSince := n } }
  if 11400 ≤ vin ∧ vin ≤ 12600 then put s 0
  else if s.smb.vinSince = 0 then put s (s.clk.gtc + 1)
  else if s.smb.vinSince + 40000000 ≤ s.clk.gtc + 1 then put (s.alertCause 1) (2 ^ 64)
  else s

/-- POWER_MONITOR_UPDATE (R616, R617): every 1 ms; voltage in mV, current in mA, power in 0.1 W, hottest island and its
temperature in 0.1 °C. -/
def execPowerMonitorUpdate (vin iin pin tj : Half) (island : Fin 107) (s : State) : Host.Outcome State Fault Refusal :=
  if s.clk.run ∧ s.top.mode ≠ .commit ∧ s.saf.powerAt + 4000000 ≤ s.clk.gtc then
    let s := { s with saf := { s.saf with powerAt := s.clk.gtc } }
    let s := ((s.setRegN aTopPwr vin.toNat).setRegN (aTopPwr + 4) iin.toNat).setRegN (aTopPwr + 8)
      (tj.toNat + island.val * 65536)
    let s := (s.setRegN (aTopPwr + 12) pin.toNat).vinAlert vin.toNat
    let hot := decide ((BitVec.ofNat 16 (s.fld aTopTalert 0 16)).toInt < tj.toInt)
    let t := { s with smb := { s.smb with hot := hot } }
    .next (if hot && !s.smb.hot then t.alertCause 0 else t)
  else .next s

end Sys2Proof.Machine
end

