-- ==== Sys2Proof/Machine/Bus.lean ====
section
/-! DEFINITION. Accesses of the global register space (R10 to R12, R454 to R458, R645 to R652): who may read and
write, what a read returns and latches, what a write changes, the program store and the exact-match view. -/

namespace Sys2Proof.Machine

open Sys2Proof

/-! ### Addresses (R454, R645) -/

/-- The global address an access names: a host gives an offset of its BAR0, the debug port a global address. Partition
0 reaches 16 MiB more through HST_BAR0_WIN. -/
def State.globalAddr (s : State) (m : Master) (x : Nat) : Option Nat :=
  match m with
  | .eosta => if x < 0x10000000 then some x else none
  | .host p =>
    if x < 0x03000000 then some x
    else if p.val = 0 ∧ x < 0x04000000 then some (s.fld aHstBar0Win 0 4 * 2 ^ 24 + (x - 0x03000000))
    else none

/-- Offset in the program store: the banks written, the bank read, the offset (R455). -/
def progPlace (a : Nat) : Option (List Nat × Nat × Nat) :=
  if 0x02000000 ≤ a ∧ a < 0x02800000 then
    let r := (a - 0x02000000) / 0x80000
    some ([r], r, (a - 0x02000000) % 0x80000)
  else if 0x02800000 ≤ a ∧ a < 0x02880000 then some (upTo 16, 0, a - 0x02800000)
  else none

/-- A word of the exact-match view (R647). -/
def State.emView (s : State) (a : Nat) : Nat :=
  let o := a - 0x04000000
  let e := s.emAt (o / 0x200000) (o % 0x200000 / 16)
  leNat (((if e.valid then e.bytes true else []).drop (o % 16)).take 4)

def inEmView (a : Nat) : Bool := decide (0x04000000 ≤ a ∧ a < 0x06000000)

/-- The debug block, which a host reaches at DBG_STATUS alone, and the debug port through EACC (R639). -/
def inDbg (a : Nat) : Bool := decide (0x01300004 ≤ a ∧ a < 0x01400000)

/-- CNT_SEL and CNT_VAL of counters a unit does not have are reserved offsets (R523, R551). -/
def unitCounters (u : Nat) : Nat := if u < 64 ∨ (80 ≤ u ∧ u < 88) ∨ u = 106 then 8 else 16

/-- The register at a global address, reserved offsets left out. -/
def busReg (a : Nat) : Option (RegRow × List Nat × Nat) :=
  match findReg a with
  | some (r, is, w) =>
    if (r.base = aCntSel 0 0 ∨ r.base = aCntVal 0 0) ∧ unitCounters (is.headD 0) ≤ is.getD 1 0 then none
    else some (r, is, w)
  | none => none

/-! ### Reads -/

/-- A refused access: a host's is recorded, and a read of it returns 0 (R458). -/
def State.refuse (s : State) (m : Master) (kind a : Nat) : Nat × Nat × State := (stDenied, 0, s.denyMaster m kind a)

/-- A read of a reserved offset may return any value (R484 case 11); one of the debug port returns 0 (R630). -/
def State.readReserved (s : State) (m : Master) (a : Nat) : Nat × Nat × State :=
  match m with
  | .eosta => (stReject, 0, s)
  | .host p => if p.val = 0 then (stOk, s.freeVal.toNat % 2 ^ 32, s.useFree) else s.refuse m 1 a

/-- HST_DENY word 0 latches the refusal for its reader (R492). -/
def State.readDeny (s : State) (m : Master) (p : Nat) : Nat × State :=
  let a := aHstDeny p
  (s.regN a, s.latchAll m (a + 4) [s.regN (a + 4), s.regN (a + 8), s.regN (a + 12)])

/-- RACE_ROB_STATUS: MAX is cleared by the read (R176). -/
def State.readRob (s : State) (r : Nat) : Nat × State :=
  let x := s.race r
  (x.robMax % 8192 * 65536 + x.rob.length % 8192, s.setRace r { x with robMax := x.rob.length })

/-- PORT_STATUS: LINKDN is cleared by the read (R444). -/
def State.readPortStatus (s : State) (n : Nat) : Nat × State :=
  (s.portStatus n, s.setPortS n { s.portS n with linkDn := 0 })

/-- What a permitted read of a register word returns, and its effect. -/
def State.readReg (s : State) (m : Master) (r : RegRow) (is : List Nat) (w a : Nat) : Nat × State :=
  let i := is.headD 0
  if hidesSeed m r then (0, s)
  else if r.base = aPtpCapture ∧ w = 0 then s.readCapture m
  else if r.base = aPtpPpsin ∧ w = 0 then s.readPpsin m
  else if r.base = aPtpTodRx ∧ w = 0 then s.readTodRx m
  else if r.base = aPtpTsq 0 ∧ w = 0 then s.popTsq i
  else if r.base = aHstDeny 0 then (if w = 0 then s.readDeny m i else (s.latched m a, s))
  else if r.base = aRaceRobStatus 0 then s.readRob i
  else if r.base = aPortStatus 0 then s.readPortStatus i
  else if r.wide then
    -- R10: the low word latches the high word; the high word reads the latch
    if w % 2 = 0 then (s.regValue m r is w a, s.setLatch m (a + 4) (s.regValue m r is (w + 1) (a + 4)))
    else (s.latched m a, s)
  else (s.regValue m r is w a, s)

/-- A 4 B read at a global address: status, value, state. -/
def State.busRead (s : State) (m : Master) (a : Nat) : Nat × Nat × State :=
  if a % 4 ≠ 0 then (stReject, 0, s)
  else
    match progPlace a with
    | some (_, r, off) =>
      if m = .eosta ∧ s.dbg.level = 0 then (stDenied, 0, s) else (stOk, memLe s.mems.prog (bankBase r + off) 4, s)
    | none =>
      if inEmView a then
        match m with
        | .host p => if p.val = 0 then (stOk, s.emView a, s) else s.refuse m 1 a
        | .eosta => if 1 ≤ s.dbg.level then (stOk, s.emView a, s) else (stDenied, 0, s)
      else
        match busReg a with
        | none => s.readReserved m a
        | some (r, is, w) =>
          if inDbg a ∨ !s.mayRead m r (is.headD 0) then s.refuse m 1 a
          else
            let (v, t) := s.readReg m r is w a
            (stOk, v, t)

/-- What a host's address names outside BAR0: the DRAM address behind an offset of BAR2, or an offset of BAR4. -/
inductive Beyond where
  | dram (part addr : Nat)
  | door (part off : Nat)

def State.beyond (s : State) (m : Master) (x : Nat) : Option Beyond :=
  match m with
  | .host p =>
    match s.bar2Addr p.val x with
    | some a => some (.dram p.val a)
    | none => (doorOffset x).map (Beyond.door p.val)
  | .eosta => none

/-- The value a read returned to its reader. -/
def State.returned (s : State) (m : Master) (v : Nat) : State :=
  { s with rdata := mset zero32 s.rdata (readerOf m) (BitVec.ofNat 32 v) }

/-- A read that reaches the block at an address it names. In HALT it completes as a refused one (R635). -/
def State.readAt (s : State) (m : Master) (x : Nat) : Host.Outcome State Fault Refusal :=
  if s.reaches m then
    match s.beyond m x with
    | some (.dram p a) =>
      let (v, t) := s.bar2Read p a
      .next (t.returned m v)
    | some (.door _ _) => .next (s.returned m 0)
    | none =>
      match s.globalAddr m x with
      | some a =>
        let (_, v, t) := s.busRead m a
        .next (t.returned m v)
      | none => .next ((s.denyMaster m 1 x).returned m 0)
  else if s.top.mode = .halt then .next (s.returned m 0)
  else .next s

/-! ### Who may write -/

/-- Does partition p reach the register for writing? A write of a read-only word it reaches is ignored (R12, R648). -/
def State.partWrites (s : State) (p : Nat) (r : RegRow) (is : List Nat) : Bool :=
  let i := is.headD 0
  match r.wp with
  | .w_none =>
    p = 0 || ((r.rp = .r_own || r.base = aQshTaccStat 0 || r.base = aQshTaccAt 0 || r.base = aClsTcamStgOpstat 0 ||
        r.base = aGateCommitStatus 0) && p = i) ||
      (r.rp = .r_port && p = s.portOwner i)
  | .w_p0 => p = 0
  | .w_part => p = i
  | .w_partOr0 => p = 0 || p = i
  | .w_port => p = s.portOwner i
  | .w_mod => p = s.modOwner i
  | .w_dom | .w_vd => p = s.domOwner i
  | .w_cent => inRange (clsRange s.committed p 1) i
  | .w_node => inRange (clsRange s.committed p 0) i
  | .w_any => true
  | .w_dbg => false

def State.mayWrite (s : State) (m : Master) (r : RegRow) (is : List Nat) : Bool :=
  match m with
  | .host p => s.partWrites p.val r is
  | .eosta => true

/-- Does a live version protect the word from writes (R179, R191, R203)? -/
def State.protects (s : State) (r : RegRow) (is : List Nat) : Bool :=
  let i := is.headD 0
  match r.wp with
  | .w_node => s.liveSlots.any fun e => (s.graph e.1 e.2).contains i
  | .w_cent => s.liveSlots.any fun e =>
      let v := s.regN (aClsVd e.1 e.2 + 4)
      let b := bitsOf v 16 16
      decide (b ≤ i ∧ i < b + bitsOf v 0 13)
  | .w_vd => s.live i (is.getD 1 0)
  | _ => false

/-! ### Writes -/

/-- The write itself, by the access type of each bit (R12). -/
def State.putWord (s : State) (x : RegWord) (a v : Nat) : State :=
  let m := x.rw ||| x.rws
  let old := s.regN a
  let new := (old &&& (2 ^ 32 - 1 - m)) ||| (v &&& m)
  s.setRegN a (new &&& (2 ^ 32 - 1 - (v &&& x.w1c)))

/-- Events and occupancies of a unit's kind (R526). -/
def unitEvents (u : Nat) : List Nat :=
  if u < 64 then [0x000, 0x010, 0x011, 0x012, 0x100]
  else if u < 80 then [0x000, 0x010, 0x011, 0x012, 0x013, 0x014, 0x015, 0x100, 0x101, 0x102, 0x103, 0x104]
  else if u < 84 then [0x000, 0x010, 0x011, 0x012, 0x013, 0x100, 0x101]
  else if u < 88 then [0x000, 0x010, 0x011, 0x012, 0x100]
  else if u = 88 then [0x000, 0x010, 0x011, 0x012, 0x013, 0x100, 0x101]
  else if u < 105 then [0x000, 0x010, 0x011, 0x012, 0x013, 0x100]
  else if u = 105 then [0x000, 0x010, 0x011, 0x100]
  else [0x000, 0x010, 0x100]

/-- Checks of R524 on a CNT_SEL value. -/
def selOk (u v : Nat) : Bool :=
  let mode := bitsOf v 28 2
  let ev := bitsOf v 16 10
  mode != 3 && (unitEvents u).contains ev && (mode = 0 || decide (0x100 ≤ ev))

/-- Signed 32-bit value within a bound. -/
def within (v b : Nat) : Bool := decide (v ≤ b ∨ 2 ^ 32 - b ≤ v)

/-- Does the value pass the register's own check (R138, R175, R205, R260, R449, R518, R521, R593)? -/
def State.valueOk (s : State) (r : RegRow) (w v : Nat) : Bool :=
  match r.valid with
  | .v_quiesce => decide (10 ≤ v % 65536 ∧ v % 65536 ≤ 10000)
  | .v_drain => decide (21 ≤ v % 65536 ∧ v % 65536 ≤ 1000)
  | .v_reord => decide (500 ≤ v % 65536 ∧ v % 65536 ≤ 20000)
  | .v_malact => (upTo 8).all fun c => bitsOf v (2 * c + 2) 2 != 3
  | .v_mstexp => bitsOf v 30 2 != 3
  | .v_ppsout => if w = 0 then decide (1 ≤ bitsOf v 0 19 ∧ bitsOf v 0 19 ≤ 500000) else within v 500000000
  | .v_freqout => v % 4 != 3
  | .v_agepol => v % 4 != 3 && decide (30 ≤ bitsOf v 8 10 ∧ bitsOf v 8 10 ≤ 200)
  | .v_modeA => modeA s.top.mode
  | _ => true

/-- MST_TRING and EMT_LRING words (R261, R300): entries of `size` bytes. -/
def State.ringWrite (s : State) (x : RegWord) (p size w a v : Nat) : State :=
  let b := a - 4 * w
  let log := s.fld (b + 4) 0 5
  let new := v % 32
  match w with
  | 0 => if log ≠ 0 then s else s.putWord x a v
  | 1 =>
    if new = 0 then s.putWord x a v
    else if log ≠ 0 ∨ new < 10 ∨ 22 < new ∨ s.inSub p 1 (s.regN b) (2 ^ new * size) = false then s
    else ((s.putWord x a v).setRegN (b + 8) 0).setRegN (b + 12) 0
  | _ => s.putWord x a v

/-- HST_CMDQ words (R489). -/
def State.cmdqWrite (s : State) (x : RegWord) (p i w a v : Nat) : State :=
  let b := a - 4 * w
  let on := bitOf (s.regN (b + 16)) 31
  if w < 4 then (if on then s else s.putWord x a v)
  else if w ≠ 4 ∨ v % 16 < 4 ∨ 12 < v % 16 then s
  else if bitOf v 31 ∧ (s.regN b % 64 ≠ 0 ∨ s.regN (b + 8) % 32 ≠ 0) then s
  else if on then s.setFld (b + 16) 31 1 (v / 2 ^ 31)
  else
    let s := s.putWord x a v
    if bitOf v 31 then
      let r := s.ring p i
      (((s.setRegN (b + 20) 0).setRegN (b + 24) 0).setRegN (b + 28) 0).setCmdRing p i { r with done := 0 }
    else s

/-- HST_RXQ and HST_TXQ words (R490). -/
def State.dmaqWrite (s : State) (x : RegWord) (tx : Bool) (p j w a v : Nat) : State :=
  let b := a - 4 * w
  let on := bitOf (s.regN (b + 8)) 31
  if w < 2 then (if on then s else s.putWord x a v)
  else if w ≠ 2 ∨ v % 16 < 4 ∨ 12 < v % 16 then s
  else if bitOf v 31 ∧ s.regN b % 32 ≠ 0 then s
  else if on then s.setFld (b + 8) 31 1 (v / 2 ^ 31)
  else
    let s := s.putWord x a v
    if bitOf v 31 then
      let s := (s.setRegN (b + 12) 0).setRegN (b + 16) 0
      if tx then
        let k := p * 64 + j
        let h := s.host
        State.withdraw { s with host := { h with txs := mset noTxs h.txs k [], txWait := h.txWait.filter (· ≠ k) } }
          (fun w => decide (w = .hostTx p j))
      else s
    else s

/-- UCS_MODE_NEXT: the stored value of the images, with its CRC-32, for the next start (R94). -/
def State.modeNextWrite (s : State) (w v : Nat) : State :=
  { s.setRegN (aUcsModeNext w) v with ucs := { s.ucs with modeBad := false } }

/-- HST_DSUB: a word that would make a sub-region overlap one of another partition is ignored (R488). -/
def State.dsubWrite (s : State) (p w v : Nat) : State :=
  let t := s.setRegN (aHstDsub p + 4 * w) (v &&& 0x0FFF0FFF)
  let range := fun (q k : Nat) => let u := t.regN (aHstDsub q + 4 * k); (bitsOf u 0 12, bitsOf u 16 12)
  let clash := (upTo 4).any fun q => q != p && (upTo 2).any fun k => (upTo 2).any fun l => rangesMeet (range p k) (range q l)
  if clash then s else t

/-- CNT_SEL (R524): EN from 0 to 1 zeroes the counter. -/
def State.selWrite (s : State) (u i v : Nat) : State :=
  if !selOk u v then s
  else
    let a := aCntSel u i
    let rise := bitOf v 31 && !bitOf (s.regN a) 31
    let s := s.setRegN a (v &&& 0xF3FFFFFF)
    if rise then { s with cnt := mset zeroN s.cnt (aCntVal u i) 0 } else s

/-- CNT_WIN (R527, R550): the high word applies both. A value at or below the GTC is case 9 of R484: it occurs at
once, or never. -/
def State.winWrite (s : State) (w v : Nat) : State :=
  let s := s.setRegN (aCntWin + 4 * w) v
  let put := fun (s : State) (n : Nat) =>
    if w = 1 then { s with coll := { s.coll with winStart := n } } else { s with coll := { s.coll with winStop := n } }
  if w % 2 = 0 then s
  else
    let n := s.regN (aCntWin + 4 * (w - 1)) + v % 2 ^ 32 * 2 ^ 32
    if n ≤ s.clk.gtc then put s.useFree (if s.freeVal.getLsbD 0 then n else 2 ^ 64 - 1) else put s n

/-- CNT_USER_READ (R538): stream 1 of a partition that may no longer run is disabled. -/
def State.userReadWrite (s : State) (p v : Nat) : State :=
  let s := s.setRegN (aCntUserRead p) (v &&& 0x80000003)
  let x := s.stream p 1
  if x.en && !s.userMay p x.cfg.pages then s.setStream p 1 { x with en := false } else s

/-- PORT_LANEMAP and PORT_POL act when written (R408). A change of the lane map of an enabled port is case 6 of R484:
its link may go down. -/
def State.laneWrite (s : State) (n v : Nat) : State :=
  let a := aPortLanemap n
  let old := s.regN a
  let s := s.setRegN a (v % 2 ^ 24)
  if s.portEn n ∧ old ≠ v % 2 ^ 24 then
    if s.freeVal.getLsbD 0 then s.useFree.linkFall n else s.useFree
  else s

/-- SAF_STATUS: COVERAGE_REDUCED is cleared only with no cause left (R568). -/
def State.coverWrite (s : State) (v : Nat) : State :=
  if bitOf v 31 ∧ s.fld aSafStatus 27 4 = 0 then s.setFld aSafStatus 31 1 0 else s

/-- A permitted write of a register word, with what the register does besides. -/
def State.writeReg (s : State) (m : Master) (r : RegRow) (x : RegWord) (is : List Nat) (w a v : Nat) : State :=
  let i := is.headD 0
  let j := is.getD 1 0
  let b := r.base
  if (commitWriter a).isSome then s.commitWrite m a v
  else if b = aQshTaccCtl 0 then s.taccWrite m i v
  else if b = aClsTcamStgOp 0 then s.tcamGo m i v
  else if b = aMstLbWdata 0 then s.lbWrite m i (w = 1) v
  else if b = aMstLbSvc 0 then s.lbSvc m i v
  else if b = aPtpRate then s.rateWrite m (w = 1) v
  else if b = aPtpStep then s.stepWrite m v
  else if b = aPtpSet then s.setWrite m w v
  else if b = aPtpEecCfg then s.eecWrite m v
  else if b = aTopFwCtl then s.fwCtlWrite m v
  else if (b = aTopFwAddr ∨ b = aTopFwLen) ∧ s.top.fw.isSome then s
  else if b = aUcsModeNext 0 then s.modeNextWrite i v
  else if b = aHstDsub 0 then s.dsubWrite i w v
  else if b = aCntSel 0 0 then s.selWrite i j v
  else if b = aCntWin then s.winWrite w v
  else if b = aCntUserRead 0 then s.userReadWrite i v
  else if b = aPortLanemap 0 then s.laneWrite i v
  else if b = aSafStatus then s.coverWrite v
  else if b = aMstTring 0 then s.ringWrite x i 160 w a v
  else if b = aEmtLring 0 then s.ringWrite x i 32 w a v
  else if b = aHstCmdq 0 0 then s.cmdqWrite x i j w a v
  else if b = aHstRxq 0 0 then s.dmaqWrite x false i j w a v
  else if b = aHstTxq 0 0 then s.dmaqWrite x true i j w a v
  else if b = aPortMod 0 ∧ w = 0 then
    let s := s.putWord x a v
    if bitOf v 31 then s.modGo m i (bitsOf v 30 1) else s
  else if !s.valueOk r w v then s
  else s.putWord x a v

/-- Writes the program store at an offset the master may write (R455). -/
def State.progWrite (s : State) (m : Master) (banks : List Nat) (off v a : Nat) : Nat × State :=
  let may := match m with
    | .host p => inRange (progRange s.committed p.val) (off / 4096)
    | .eosta => true
  if !may then (stDenied, s.denyMaster m 2 a)
  else
    let x := s.mems
    let at_ := banks.map (fun r => bankBase r + off)
    (stOk, { s with mems := { x with
      prog := at_.foldl (fun q b => setBytes q b (leBytes 4 v)) x.prog
      progBad := x.progBad.filter (fun b => !at_.contains b) } })

/-- A 4 B write at a global address: status and state. -/
def State.busWrite (s : State) (m : Master) (a v : Nat) : Nat × State :=
  if a % 4 ≠ 0 then (stReject, s)
  else
    match progPlace a with
    | some (banks, _, off) => s.progWrite m banks off v a
    | none =>
      if inEmView a then (stDenied, s.denyMaster m 2 a)
      else
        match busReg a with
        | none =>
          -- case 11 of R484: the write changes nothing here
          match m with
          | .eosta => (stReject, s)
          | .host p => if p.val = 0 then (stOk, s) else (stDenied, s.denyMaster m 2 a)
        | some (r, is, w) =>
          if inDbg a ∨ !s.mayWrite m r is then (stDenied, s.denyMaster m 2 a)
          else if s.protects r is then (stOk, s.bump (aClsWprotCnt (readerOf m % 4)) 1)
          else
            match r.words[w]? with
            | some x => (stOk, s.writeReg m r x is w a v)
            | none => (stOk, s)

/-- A write that reaches the block at an address it names. -/
def State.writeAt (s : State) (m : Master) (x v : Nat) : Host.Outcome State Fault Refusal :=
  s.atBus m fun s =>
    match s.beyond m x with
    | some (.dram p a) => s.bar2Write p a v
    | some (.door p o) => s.bar4Write p o v
    | none =>
      match s.globalAddr m x with
      | some a => (s.busWrite m a v).2
      | none => s.denyMaster m 2 x

/-! ### The commands -/

/-- REGISTER_WRITE (R12, R454, R456, R458): a host writes 4 B at an offset of BAR0 or, from `bar2`
and `bar4` on, of BAR2 and BAR4; the debug port in access space 0. -/
def execRegisterWrite (m : Master) (addr : Nat) (value : Word32) (s : State) : Host.Outcome State Fault Refusal :=
  s.writeAt m addr value.toNat

/-- LOW_WORD_READ_LATCH (R10): a read of 4 B; that of a low word latches the high word for its reader. A host reads
its BAR0, BAR2 or BAR4, as in REGISTER_WRITE. -/
def execLowWordReadLatch (m : Master) (addr : Nat) (s : State) : Host.Outcome State Fault Refusal := s.readAt m addr

/-- UCS_MODE_NEXT_WRITE (R94). -/
def execUcsModeNextWrite (m : Master) (word : Fin 6) (value : Word32) (s : State) : Host.Outcome State Fault Refusal :=
  s.writeAt m (aUcsModeNext word.val) value.toNat

/-- HST_DSUB_WRITE (R488). -/
def execHstDsubWrite (m : Master) (part : Part) (hi : Bool) (value : Word32) (s : State) :
    Host.Outcome State Fault Refusal :=
  s.writeAt m (aHstDsub part.val + 4 * natBool hi) value.toNat

/-- CNT_SEL_WRITE (R524). -/
def execCntSelWrite (m : Master) (island : Fin 107) (sel : Fin 16) (value : Word32) (s : State) :
    Host.Outcome State Fault Refusal :=
  s.writeAt m (aCntSel island.val sel.val) value.toNat

/-- CNT_WIN_WRITE (R527). -/
def execCntWinWrite (m : Master) (word : Fin 4) (value : Word32) (s : State) : Host.Outcome State Fault Refusal :=
  s.writeAt m (aCntWin + 4 * word.val) value.toNat

/-- CNT_USER_READ_WRITE (R538). -/
def execCntUserReadWrite (m : Master) (part : Part) (value : Word32) (s : State) : Host.Outcome State Fault Refusal :=
  s.writeAt m (aCntUserRead part.val) value.toNat

/-- LANEMAP_WRITE (R408). -/
def execLanemapWrite (m : Master) (port : PortId) (value : Word32) (s : State) : Host.Outcome State Fault Refusal :=
  s.writeAt m (aPortLanemap port.val) value.toNat

/-- PTP_CAPTURE_READ (R425). -/
def execPtpCaptureRead (m : Master) (s : State) : Host.Outcome State Fault Refusal := s.readAt m aPtpCapture

/-- PTP_TSQ_POP (R429). -/
def execPtpTsqPop (m : Master) (part : Part) (s : State) : Host.Outcome State Fault Refusal :=
  s.readAt m (aPtpTsq part.val)

/-- HST_DENY_READ (R492). -/
def execHstDenyRead (m : Master) (part : Part) (s : State) : Host.Outcome State Fault Refusal :=
  s.readAt m (aHstDeny part.val)

/-- PTP_PPSIN_READ (R449). -/
def execPtpPpsinRead (m : Master) (s : State) : Host.Outcome State Fault Refusal := s.readAt m aPtpPpsin

/-- PTP_TOD_RX_READ (R449). -/
def execPtpTodRxRead (m : Master) (s : State) : Host.Outcome State Fault Refusal := s.readAt m aPtpTodRx

/-- ROB_STATUS_READ (R176). -/
def execRobStatusRead (m : Master) (race : RaceId) (s : State) : Host.Outcome State Fault Refusal :=
  s.readAt m (aRaceRobStatus race.val)

/-- PORT_STATUS_READ (R444). -/
def execPortStatusRead (m : Master) (port : PortId) (s : State) : Host.Outcome State Fault Refusal :=
  s.readAt m (aPortStatus port.val)

end Sys2Proof.Machine
end

