-- ==== Sys2Proof/Machine/Debug.lean ====
section
/-! DEFINITION. The Eosta debug port (R620 to R644): the TAP, EACC, unlocking, the access port, thread debug, the
device HALT and debug resets. -/

namespace Sys2Proof.Machine

open Sys2Proof

def State.setDbg (s : State) (d : Dbg) : State := { s with dbg := d }

/-! ### Sessions (R625 to R628, R638) -/

/-- Does the resume token of a halted service routine name another patch version than its cluster runs (R113)? -/
def State.stale (s : State) (n : Nat) : Bool :=
  match (s.thr n).svc with
  | some k => k.ver != (s.reg (aUcsPatchVersion (cluOf n))).truncate 16
  | none => false

/-- A halted thread goes on at its pc: the halted time does not count for its budget (R167), and it rejoins its ready
list unless it stands at a gate. A service routine goes on at its token, or ends as an abort ends it (R113). -/
def State.unhalt (s : State) (n : Nat) (step mstep : Bool) : State :=
  if s.stale n then (s.setThr n { s.thr n with ints := {} }).endService n
  else
  let t := s.thr n
  let ctx := t.ctx.map fun c => { c with start := c.start + (s.clk.gtc - t.haltAt) }
  let s := s.setThr n { t with ctx := ctx, halted := none, stepping := step, mstep := mstep, bpPass := true, svcAt := s.clk.gtc }
  let s := match ctx with
    | some c => if t.gate.isNone then s.join n c.prio else s
    | none => s
  s.haltCover

/-- The device resumes at the next instant that R636 gives for an AT of 0. -/
def haltInstant (g : Nat) : Nat := nextMultiple 4096 (g + 8000)

/-- Pin-driving instructions and breakpoints end with the session; a HALT asked for is withdrawn, one in force
resumes. -/
def State.sessionRelease (s : State) : State :=
  let s := (s.threads.filter (fun e => e.2.halted.isSome)).foldl (fun s (e : Nat × Thread) => s.unhalt e.1 false false) s
  let s := (upTo 16).foldl (fun s r =>
    let s := (upTo 8).foldl (fun s i => s.setFld (aDbgBp r i) 31 1 0) s
    (upTo 4).foldl (fun s i => s.setFld (aDbgWp r i) 31 1 0) s) s
  let s : State := { s with threads := s.threads.map (fun (e : Nat × Thread) => (e.1, { e.2 with wpHit := none })) }
  if s.top.mode = .halt then
    if s.dbg.mine then s.setDbg { s.dbg with halt := some { enter := false, at_ := haltInstant s.clk.gtc } } else s
  else if s.dbg.halt.isSome then (s.setDbg { s.dbg with halt := none }).coverageEnd 3
  else s

/-- The session ends: OBSERVE, with an event that says why: 0 OP 3, 1 TRST_N (R628, R638). -/
def State.sessionEnd (s : State) (why : Nat) : State :=
  if s.dbg.level = 0 then s
  else
    let s := s.sessionRelease
    let s := s.setDbg { s.dbg with level := 0, wrote := false, pins := false }
    (s.event srcEosta 0x8012 why).debugCover

/-- 64 free bytes: the random challenge (R626; log 7). -/
def State.freeBytes64 (s : State) : List Byte × State :=
  let k := s.clk.free
  ((upTo 8).flatMap (fun i => leBytes 8 (Config.freeWord (k + i)).toNat), { s with clk := { s.clk with free := k + 8 } })

/-- The response block of 268 B (R626). -/
def State.response (s : State) : List Byte := (upTo 67).flatMap fun i => leBytes 4 (s.regN (aDbgResp 0 + 4 * i))

/-- The USER digest: the one programmed, else that of the fuses (R626, R628). -/
def State.userDigest (s : State) : List Byte :=
  match s.dbg.user with
  | some l => l
  | none => fuseUser

/-- Is the challenge still valid: under 60 s old (R626)? -/
def State.challenge (s : State) : Option (List Byte) :=
  match s.dbg.chal with
  | some (l, g) => if s.clk.gtc < g + 60 * second then some l else none
  | none => none

/-- The checks of an unlock, in order: status, and the key's digest (R626, R627). -/
def State.unlockCheck (s : State) (level : Nat) : Nat × List Byte :=
  let r := s.response
  let key := r.take 133
  let digest := Config.sha512 key
  if s.lockedOut then (stDenied, digest)
  else
    match s.challenge with
    | none => (stReject, digest)
    | some c =>
      if level ≠ 1 ∧ level ≠ 2 then (stReject, digest)
      else if !Config.ecdsaOk key (c ++ fuseIdentity) (r.drop 136) then (stReject, digest)
      else if level = 2 ∧ digest ≠ fuseVendor then (stReject, digest)
      else if level = 1 ∧ !blank s.userDigest ∧ digest ≠ s.userDigest then (stReject, digest)
      else if secSlots ≤ s.evr.sec.length then (stFull, digest)
      else (stOk, digest)

/-- DBG_UNLOCK OP 2: the attempt uses up the challenge. A failed verification counts; the fourth in a row, and each
after it, starts a lockout of 60 s of operating time (R627). -/
def State.unlockTry (s : State) (level : Nat) : State :=
  let (st, digest) := s.unlockCheck level
  let d : Dbg := { s.dbg with chal := none, uStatus := st }
  if st = stOk then
    let s := s.setDbg { d with level := level, fails := 0, lockEnd := none }
    (s.event srcEosta 0x8010 (level + leNat (digest.take 6) * 65536)).debugCover
  else
    let s := (s.setDbg d).event srcEosta 0x8011 (level % 4 + st * 256)
    if st = stReject then
      let f := min 4 (d.fails + 1)
      if f = 4 then
        (s.setDbg { s.dbg with fails := f, lockEnd := some (s.evr.optime + 60) }).event srcEosta 0x8013 f
      else s.setDbg { s.dbg with fails := f }
    else s

/-- DBG_UNLOCK OP 4 programs the USER digest, once (R628). -/
def State.programUser (s : State) : State :=
  let l := (upTo 16).flatMap fun i => leBytes 4 (s.regN (aDbgUfuse i))
  if s.dbg.level = 0 ∨ s.dbg.user.isSome ∨ !blank fuseUser then s.setDbg { s.dbg with uStatus := stDenied }
  else (s.setDbg { s.dbg with user := some l, uStatus := stOk }).event srcEosta 0x8016 (leNat (l.take 8))

/-- DBG_UNLOCK with GO = 1. -/
def State.unlockOp (s : State) (op level : Nat) : State :=
  match op with
  | 1 =>
    let (l, s) := s.freeBytes64
    s.setDbg { s.dbg with chal := some (l, s.clk.gtc), uStatus := stOk }
  | 2 => s.unlockTry level
  | 3 =>
    let s := s.sessionEnd 0
    s.setDbg { s.dbg with uStatus := stOk }
  | 4 => s.programUser
  | _ => s.setDbg { s.dbg with uStatus := stReject }

/-! ### The access port (R629, R630, R641) -/

/-- Byte i of the thread state of space 4. -/
def State.threadByte (s : State) (r : Nat) (c : Ctx) (i : Nat) : Byte :=
  let at_ := fun (v k : Nat) => BitVec.ofNat 8 (bitsOf v (8 * k) 8)
  if i < 0x80 then at_ (c.gr (Fin.ofNat 16 (i / 8))).toNat (i % 8)
  else if i < 0x88 then
    at_ (c.pc.toNat + natBool c.v * 2 ^ 16 + natBool c.c * 2 ^ 17 + natBool c.n * 2 ^ 18 + natBool c.z * 2 ^ 19 +
      c.dc.toNat * 2 ^ 20 + (s.pkt c.pkt).pass % 4 * 2 ^ 24 + natBool c.ordrel * 2 ^ 26) (i % 8)
  else if i < 0x90 then at_ ((upTo 16).map (fun t => (c.rcOf t).toNat * 2 ^ (4 * t))).sum (i % 8)
  else if i < 0x100 then 0
  else if i < 0x200 then s.winByte r c 0 (i - 0x100)
  else if i < 0x280 then s.winByte r c 1 (i - 0x200)
  else s.winByte r c 2 (i - 0x280)

def setThreadByte (c : Ctx) (i : Nat) (b : Byte) : Ctx :=
  if i < 0x80 then
    let g : GReg := Fin.ofNat 16 (i / 8)
    c.setGr g (BitVec.ofNat 64 (putBits (c.gr g).toNat (8 * (i % 8)) 8 b.toNat))
  else if i < 0x200 then setWinByte c 0 (i - 0x100) b
  else if i < 0x280 then setWinByte c 1 (i - 0x200) b
  else setWinByte c 2 (i - 0x280) b

def setThreadBytes (c : Ctx) (i : Nat) : List Byte → Ctx
  | [] => c
  | b :: l => setThreadBytes (setThreadByte c i b) (i + 1) l

/-- The selected thread, where it is halted. -/
def State.haltedThread (s : State) : Option Nat :=
  match s.selThread with
  | some n => if (s.thr n).halted.isSome then some n else none
  | none => none

/-- A byte of space 5: control store of a cluster, or cell state words; none at an offset the space does not list. -/
def State.storeByte (s : State) (a : Nat) : Option Byte :=
  let at_ := fun (v k : Nat) => some (BitVec.ofNat 8 (bitsOf v (8 * k) 8))
  let k := a / 0x40000
  let o := a % 0x40000
  if 0x04000000 ≤ a then
    let c := (a - 0x04000000) / 8
    if c < 786432 then at_ (mget dCell s.hop.cells c).word (a % 8) else none
  else if 192 ≤ k then none
  else if o < 0x38000 then some (Config.microRom o)
  else if o < 0x3A000 then at_ (mget (fun _ => (0 : BitVec 48)) (s.clu k).patch ((o - 0x38000) / 8)).toNat (o % 8)
  else if o < 0x3A100 then at_ (mget zero32 (s.clu k).matchReg ((o - 0x3A000) / 4)).toNat (o % 4)
  else none

/-- Is an address inside its space? -/
def spaceHas (space a n : Nat) : Bool :=
  match space with
  | 0 => decide (a + n ≤ 0x10000000)
  | 1 => decide (a + n ≤ 384 * 2 ^ 20)
  | 2 => decide (a + n ≤ 2 ^ 36)
  | 3 => decide (a + n ≤ 2 ^ 29)
  | 4 => decide (a + n ≤ 0x300)
  | 5 => true
  | _ => false

/-- The level an access needs (R625, R629); 3 for never. -/
def spaceLevel (space : Nat) (wr : Bool) (a : Nat) : Nat :=
  match space with
  | 0 => if wr then 1 else 0
  | 2 => if 0xF80000000 ≤ a then 2 else 1
  | 3 => if wr then 2 else 1
  | 4 => if wr ∧ 0x80 ≤ a ∧ a < 0x100 then 3 else 1
  | 5 => if wr then 3 else 2
  | _ => 1

/-- A read of n bytes: status, value, state. Space 1 and 3 hold, at places that the manual does not give, what this
model keeps in fields of its own: a read of them is a free value. -/
def State.apGet (s : State) (space a n : Nat) : Nat × Nat × State :=
  match space with
  | 0 =>
    let (st, v, s) := s.busRead .eosta a
    if n = 4 ∨ st ≠ stOk then (st, v, s)
    else
      let (st2, v2, s) := s.busRead .eosta (a + 4)
      (st2, v + v2 * 2 ^ 32, s)
  | 1 | 3 => (stOk, bitsOf s.freeVal.toNat 0 (8 * n), s.useFree)
  | 2 =>
    let (v, s) := s.dramGet a n
    (stOk, v, s)
  | 4 =>
    match s.haltedThread with
    | none => (stReject, 0, s)
    | some t =>
      match (s.thr t).ctx with
      | some c => (stOk, leNat ((upTo n).map (fun i => s.threadByte (raceOf t) c (a + i))), s)
      | none => (stOk, bitsOf s.freeVal.toNat 0 (8 * n), s.useFree)
  | _ =>
    let l := (upTo n).map (fun i => s.storeByte (a + i))
    if l.any (·.isNone) then (stReject, 0, s) else (stOk, leNat (l.map (fun b => b.getD 0)), s)

/-- A write of n bytes: status and state. -/
def State.apPut (s : State) (space a n v : Nat) : Nat × State :=
  match space with
  | 0 =>
    let (st, s) := s.busWrite .eosta a (v % 2 ^ 32)
    if n = 4 ∨ st ≠ stOk then (st, s) else s.busWrite .eosta (a + 4) (v / 2 ^ 32)
  | 1 => (stOk, { s with mems := { s.mems with sram := setBytes s.mems.sram a (leBytes n v) } })
  | 2 => (stOk, s.dramPut a n v)
  | 3 =>
    -- whether the bytes are those of the stored UCS_MODE_NEXT is not given: a free value (R94, log 106)
    (stOk, { s.useFree with mems := { s.mems with nvRaw := setBytes s.mems.nvRaw a (leBytes n v) }
                            ucs := { s.ucs with modeBad := s.freeVal.getLsbD 0 } })
  | _ =>
    match s.haltedThread with
    | none => (stReject, s)
    | some t =>
      match (s.thr t).ctx with
      | some c => (stOk, s.putCtx t (setThreadBytes c a (leBytes n v)))
      | none => (stOk, s)

/-- One access: status, value read, state. -/
def State.apDo (s : State) (wr : Bool) (space a n v : Nat) : Nat × Nat × State :=
  if 6 ≤ space then (stReject, 0, s)
  else if s.dbg.level < spaceLevel space wr a then (stDenied, 0, s)
  else if !spaceHas space a n then (stReject, 0, s)
  else if wr then
    let (st, s) := s.apPut space a n v
    (st, 0, s)
  else s.apGet space a n

/-- The first write through the port in a session is recorded (R638). -/
def State.firstWrite (s : State) (space : Nat) : State :=
  if s.dbg.wrote then s else (s.setDbg { s.dbg with wrote := true }).event srcEosta 0x8015 space

/-- DBG_AP with GO = 1 and the CTL word `v`: the address is aligned to the size; with INC it advances after each
access that its level permits. A rejected read gives 0 (R630). -/
def State.apGo (s : State) (v : Nat) : State :=
  let wr := bitOf v 30
  let n := if bitOf v 29 then 8 else 4
  let space := bitsOf v 8 3
  let full := s.regN aDbgApAddr + s.regN (aDbgApAddr + 4) * 2 ^ 32
  let a := full / n * n
  let data := s.regN aDbgApData + s.regN (aDbgApData + 4) * 2 ^ 32
  let (st, x, s) := s.apDo wr space a n (data % 2 ^ (8 * n))
  let s := s.setDbg { s.dbg with apStatus := st }
  if st = stDenied then s
  else
    let s := if wr then (if st = stOk then s.firstWrite space else s)
      else (s.setRegN aDbgApData (x % 2 ^ 32)).setRegN (aDbgApData + 4) (x / 2 ^ 32)
    if bitOf v 28 then
      (s.setRegN aDbgApAddr ((full + n) % 2 ^ 32)).setRegN (aDbgApAddr + 4) ((full + n) / 2 ^ 32 % 2 ^ 32)
    else s

/-! ### Thread debug (R631, R632) -/

/-- What a microword sees on thread n, and where its routine begins: the program's state and its instruction, or the
token of a service routine. -/
def State.microView (s : State) (n : Nat) : Option (MView × Nat) :=
  let t := s.thr n
  match t.ctx, t.svc with
  | some c, _ =>
    let w := s.fetch (raceOf n) c
    some ({ c := c, w := w }, s.microEntry (cluOf n) w)
  | none, some k => some ({ c := {}, w := 0, token := k.word }, k.addr.toNat)
  | none, none => none

/-- The thread stands behind the word at `f`. The END of an instruction lets it take effect, and the thread halts again
behind it; a safe point of a service routine ends a segment (R112). -/
def State.microDone (s : State) (n : Nat) (v : MView) (x : MWord) (f : Nat) : State :=
  let t := s.thr n
  let m := v.exec t.micro x f
  match m.addr with
  | none => State.unhalt (s.setThr n { t with micro := {} }) n true true
  | some b =>
    let svc := t.svc.map fun k => if m.safe then { k with segment := k.segment + 1, addr := BitVec.ofNat 16 b } else k
    s.setThr n { t with micro := m, svc := svc }

/-- MSTEP: one microword. A vertical gate issues with the word behind it; at a gate whose condition does not hold
nothing issues (R104, log 103); a word in error ends the thread (R106). -/
def State.microStep (s : State) (n : Nat) : Nat → State
  | 0 => s
  | more + 1 =>
    let t := s.thr n
    let k := cluOf n
    match s.microView n with
    | none => s
    | some (v, entry) =>
      let f := (s.clu k).fetched (t.micro.addr.getD entry) t.micro.patch
      if (s.clu k).csFault = some f then s.csFaultAt n f
      else
        match (s.clu k).wordAt (s.twoLevel k) f with
        | none => s
        | some x =>
          if x.seq ≠ 6 then s.microDone n v x f
          else if (match v.gate t.micro x.cond x.target with
                   | some g => gateHolds s v.c g
                   | none => true) then
            let u := s.microDone n v x f
            if x.ops = [] then u.microStep n more else u
          else s

/-- DBG_THR_CTL with GO = 1: status and state. -/
def State.threadOp (s : State) (op : Nat) : Nat × State :=
  match s.selThread with
  | none => (stReject, s)
  | some n =>
    let t := s.thr n
    let idle := t.ctx.isNone && t.svc.isNone
    match op with
    | 1 =>
      if idle then (stNotFound, s)
      else if t.halted.isSome then (stOk, s)
      else (stOk, s.setThr n { t with ints := { t.ints with halt := true } })
    | 2 => if t.halted.isNone then (stReject, s) else (stOk, s.unhalt n true false)
    | 3 => if t.halted.isNone then (stReject, s) else (stOk, s.unhalt n false false)
    | 4 => if idle then (stNotFound, s) else (stOk, s.setThr n { t with ints := { t.ints with abort := true } })
    | 5 =>
      if s.dbg.level < 2 then (stDenied, s)
      else if t.halted.isNone then (stReject, s)
      else (stOk, s.microStep n 2)
    | _ => (stReject, s)

def State.threadGo (s : State) (op : Nat) : State :=
  let (st, s) := s.threadOp op
  s.setDbg { s.dbg with thrStatus := st }

/-! ### Device HALT (R635, R636) -/

/-- AT as R635 and R636 choose it; none gives REJECT. -/
def State.haltAt (s : State) : Option Nat :=
  let a := s.regN aDbgHaltAt + s.regN (aDbgHaltAt + 4) * 2 ^ 32
  let g := s.clk.gtc
  if a = 0 then some (haltInstant g) else if a < g + 8000 ∨ g + 10 * second < a then none else some a

/-- DBG_HALT with GO = 1. -/
def State.haltOp (s : State) (op : Nat) : State :=
  let reject := s.setDbg { s.dbg with haltStatus := stReject }
  let may := if op = 1 then modeB s.top.mode else op = 2 && s.top.mode = .halt
  match if may then s.haltAt else none with
  | none => reject
  | some a =>
    let s := (s.setRegN aDbgHaltAt (a % 2 ^ 32)).setRegN (aDbgHaltAt + 4) (a / 2 ^ 32)
    let s := s.setDbg { s.dbg with halt := some { enter := op = 1, at_ := a }, haltStatus := stOk }
    if op = 1 then (s.irqAll 136).coverage 3 else s

/-- HALT is entered: every island stops, ports go idle, links of ports go down; PCIe links stay up. The interrupt of the
mode change was sent when it was asked for. -/
def State.haltEnter (s : State) (a : Nat) : State :=
  let s := (s.eg.ports.map (·.1)).foldl (fun s n => (s.linkFall n).cutTx n) s
  let s := s.setTop { s.top with preHalt := s.top.mode, prev := s.top.mode, mode := .halt, modeGtc := s.clk.gtc }
  let s := s.setDbg { s.dbg with halt := none, mine := true }
  ((s.eventAny srcReset 0x0002).event srcEosta 0x8014 a).debugCover

/-- Budgets do not run in HALT (R635): the time of it is added to the start of every task's pass. -/
def Ctx.later (c : Ctx) (d : Nat) : Ctx := { c with start := c.start + d }

def Delayed.later (x : Delayed) (d : Nat) : Delayed := { x with ctx := x.ctx.later d }

def Thread.later (t : Thread) (d : Nat) : Thread :=
  if t.halted.isSome then t else { t with ctx := t.ctx.map (fun c => c.later d) }

def Race.later (x : Race) (d : Nat) : Race :=
  { x with dly := x.dly.map (fun y => y.later d), due := x.due.map (fun y => y.later d) }

/-- HALT is left: every island goes on, in the mode before (R636). -/
def State.haltLeave (s : State) : State :=
  let d := s.clk.gtc - s.top.modeGtc
  let s := s.setDbg { s.dbg with halt := none, mine := false }
  let s : State :=
    { s with threads := s.threads.map (fun (e : Nat × Thread) => (e.1, e.2.later d))
             races := s.races.map (fun (e : Nat × Race) => (e.1, e.2.later d))
             saf := { s.saf with hbAt := s.saf.hbAt + d, aliveAt := s.saf.aliveAt + d } }
  (s.setMode s.top.preHalt).coverageEnd 3

/-! ### Debug resets (R637) -/

/-- Is a warm restart under way (R512)? -/
def State.restarts (s : State) : Bool :=
  match s.top.mode with
  | .restart => true
  | .trim | .boot => !s.top.coldStart
  | _ => false

/-- DBG_RESET with GO = 1 and the word `v`. -/
def State.resetOp (s : State) (v : Nat) : State :=
  let st := fun (s : State) (x : Nat) => s.setDbg { s.dbg with resetStatus := x }
  let bk := bitsOf v 24 4
  let i := bitsOf v 16 8
  match bitsOf v 29 2 with
  | 0 =>
    if s.top.mode = .test then st s stReject
    else (st s stOk).warmReset rstDbg (if bitOf v 28 then some 5 else none) false
  | 1 =>
    if s.restarts then st s stBusy
    else if !modeB s.top.mode ∨ !blockExists bk i then st s stReject
    else if s.top.blk.isSome then st s stBusy
    else (st s stOk).blockBegin rstDbg bk i none
  | 2 => if s.dbg.level = 2 ∧ s.top.mode = .ready then (st s stOk).enterMode .test else st s stReject
  | _ => st s stReject

/-! ### EACC (R624, R625, R639 to R644) -/

/-- Offsets of the DBG block that OBSERVE may read: DBG_STATUS, DBG_UNLOCK, DBG_CHAL and the access port; and write: the
unlock procedure and the access port. -/
def observeReads (o : Nat) : Bool := o < 8 || (0x100 ≤ o && o < 0x140) || (0x400 ≤ o && o < 0x418)
def observeWrites (o : Nat) : Bool := o = 4 || (0x200 ≤ o && o < 0x30C) || (0x400 ≤ o && o < 0x418)

/-- The DBG register at an offset. -/
def dbgReg (o : Nat) : Option (RegRow × List Nat × Nat) := if o < 0x100000 then findReg (0x01300000 + o) else none

/-- What a write of a DBG register does. -/
def State.dbgWrite (s : State) (x : RegWord) (a v : Nat) : State :=
  let go := bitOf v 31
  if a = aDbgUnlock then
    let s := s.putWord x a v
    if go then s.unlockOp (bitsOf v 28 3) (v % 4) else s
  else if a = aDbgApCtl then
    let s := s.putWord x a v
    if go then s.apGo v else s
  else if a = aDbgThrCtl then
    let s := s.putWord x a v
    if go then s.threadGo (bitsOf v 28 3) else s
  else if a = aDbgHaltCtl then
    let s := s.putWord x a v
    if go then s.haltOp (bitsOf v 29 2) else s
  else if a = aDbgReset then
    let s := s.putWord x a v
    if go then s.resetOp v else s
  else s.putWord x a v

/-- STATUS, ADDR and DATA of the last access. -/
def State.eaccEnd (s : State) (st o data : Nat) : State :=
  s.setDbg { s.dbg with eStatus := st, eAddr := o, eData := data }

/-- The EACC register is selected, so a pin-driving instruction has been left. -/
def State.eaccIr (s : State) : State := s.setDbg { s.dbg with ir := 0x20, pins := false, dr := 0 }

def State.eaccDown (s : State) : Bool := s.top.mode = .cold || s.top.mode = .commit

/-- A read of a DBG register. -/
def State.eaccGet (s : State) (o : Nat) : State :=
  let s := s.eaccIr
  match dbgReg o with
  | none => s.eaccEnd 3 o 0
  | some (r, is, w) =>
    if s.eaccDown then s.eaccEnd 3 o 0
    else if s.dbg.level = 0 ∧ !observeReads o then s.eaccEnd 2 o 0
    else
      let (v, s) := s.readReg .eosta r is w (0x01300000 + o)
      s.eaccEnd 0 o v

/-- A write of a DBG register. -/
def State.eaccPut (s : State) (o v : Nat) : State :=
  let s := s.eaccIr
  match dbgReg o with
  | none => s.eaccEnd 3 o 0
  | some (r, _, w) =>
    if s.eaccDown then s.eaccEnd 3 o 0
    else if s.dbg.level = 0 ∧ !observeWrites o then s.eaccEnd 2 o 0
    else
      match r.words[w]? with
      | some x => (s.eaccEnd 0 o 0).dbgWrite x (0x01300000 + o) v
      | none => s.eaccEnd 0 o 0

/-- EACC_READ (R624). -/
def execEaccRead (addr : Word32) (s : State) : Host.Outcome State Fault Refusal := .next (s.eaccGet addr.toNat)

/-- EACC_WRITE (R624). -/
def execEaccWrite (addr : Word32) (value : Word32) (s : State) : Host.Outcome State Fault Refusal :=
  .next (s.eaccPut addr.toNat value.toNat)

/-- The write of a control register of the DBG block with GO = 1 and an operation in a field of it. -/
def State.dbgGo (s : State) (a lo w op : Nat) : State :=
  s.eaccPut (a - 0x01300000) (putBits (putBits (s.regN a) lo w op) 31 1 1)

/-! ### TAP instructions (R620 to R623) -/

/-- The identification register (R622). -/
def idcode : Nat := Config.siliconRev.toNat * 2 ^ 28 + 0x5120 * 2 ^ 12 + Config.maker.toNat * 2 + 1

def State.tap (s : State) (ir : Nat) (pins : Bool) (dr : Nat) : Host.Outcome State Fault Refusal :=
  .next (s.setDbg { s.dbg with ir := ir, pins := pins, dr := dr })

/-- An instruction that drives pins: at USER level in READY or SAFE; elsewhere it acts as BYPASS (R621). -/
def State.tapPins (s : State) (ir : Nat) : Host.Outcome State Fault Refusal :=
  if 1 ≤ s.dbg.level ∧ (s.top.mode = .ready ∨ s.top.mode = .safe) then s.tap ir true 0 else s.tap 0xFF false 0

/-- EXTEST (R621). -/
def execExtest (s : State) : Host.Outcome State Fault Refusal := s.tapPins 0x00
/-- IDCODE (R622). -/
def execIdcode (s : State) : Host.Outcome State Fault Refusal := s.tap 0x01 false idcode
/-- SAMPLE_PRELOAD (R621). -/
def execSamplePreload (s : State) : Host.Outcome State Fault Refusal := s.tap 0x02 false 0
/-- CLAMP (R621). -/
def execClamp (s : State) : Host.Outcome State Fault Refusal := s.tapPins 0x03
/-- HIGHZ (R621). -/
def execHighz (s : State) : Host.Outcome State Fault Refusal := s.tapPins 0x04
/-- EXTEST_PULSE (R621, R623). -/
def execExtestPulse (s : State) : Host.Outcome State Fault Refusal := s.tapPins 0x05
/-- EXTEST_TRAIN (R621, R623). -/
def execExtestTrain (s : State) : Host.Outcome State Fault Refusal := s.tapPins 0x06
/-- BYPASS (R621). -/
def execBypass (s : State) : Host.Outcome State Fault Refusal := s.tap 0xFF false 0

/-- TRST_N_LOW (R620, R628). -/
def execTrstNLow (s : State) : Host.Outcome State Fault Refusal :=
  let s := s.sessionEnd 1
  s.tap 0x01 false 0

/-! ### Operations of the DBG registers -/

/-- UNLOCK_CHALLENGE (R626). -/
def execUnlockChallenge (s : State) : Host.Outcome State Fault Refusal := .next (s.dbgGo aDbgUnlock 28 3 1)
/-- UNLOCK (R626, R627): LEVEL as DBG_UNLOCK holds it. -/
def execUnlock (s : State) : Host.Outcome State Fault Refusal := .next (s.dbgGo aDbgUnlock 28 3 2)
/-- LOCK (R628). -/
def execLock (s : State) : Host.Outcome State Fault Refusal := .next (s.dbgGo aDbgUnlock 28 3 3)
/-- PROGRAM_USER_DIGEST (R628). -/
def execProgramUserDigest (s : State) : Host.Outcome State Fault Refusal := .next (s.dbgGo aDbgUnlock 28 3 4)

/-- CHALLENGE_EXPIRE (R626): 60 s have passed. -/
def execChallengeExpire (s : State) : Host.Outcome State Fault Refusal :=
  if s.challenge = none then .next (s.setDbg { s.dbg with chal := none }) else .next s

/-- LOCKOUT_EXPIRE (R627): 60 s of operating time have passed. -/
def execLockoutExpire (s : State) : Host.Outcome State Fault Refusal :=
  if s.lockedOut then .next s else .next (s.setDbg { s.dbg with lockEnd := none })

/-- AP_READ (R629): SPACE, SIZE and INC as DBG_AP CTL holds them. -/
def execApRead (s : State) : Host.Outcome State Fault Refusal := .next (s.dbgGo aDbgApCtl 30 1 0)
/-- AP_WRITE (R629). -/
def execApWrite (s : State) : Host.Outcome State Fault Refusal := .next (s.dbgGo aDbgApCtl 30 1 1)

/-- THREAD_HALT (R631). -/
def execThreadHalt (s : State) : Host.Outcome State Fault Refusal := .next (s.dbgGo aDbgThrCtl 28 3 1)
/-- THREAD_STEP (R631). -/
def execThreadStep (s : State) : Host.Outcome State Fault Refusal := .next (s.dbgGo aDbgThrCtl 28 3 2)
/-- THREAD_RESUME (R631). -/
def execThreadResume (s : State) : Host.Outcome State Fault Refusal := .next (s.dbgGo aDbgThrCtl 28 3 3)
/-- THREAD_ABORT (R631). -/
def execThreadAbort (s : State) : Host.Outcome State Fault Refusal := .next (s.dbgGo aDbgThrCtl 28 3 4)
/-- THREAD_MSTEP (R631). -/
def execThreadMstep (s : State) : Host.Outcome State Fault Refusal := .next (s.dbgGo aDbgThrCtl 28 3 5)

/-- DEVICE_HALT_REQUEST (R635). -/
def execDeviceHaltRequest (s : State) : Host.Outcome State Fault Refusal := .next (s.dbgGo aDbgHaltCtl 29 2 1)
/-- DEVICE_RESUME_REQUEST (R636). -/
def execDeviceResumeRequest (s : State) : Host.Outcome State Fault Refusal := .next (s.dbgGo aDbgHaltCtl 29 2 2)

/-- DEVICE_HALT_ENTER (R635): AT has come, in a mode that HALT may be entered from. -/
def execDeviceHaltEnter (s : State) : Host.Outcome State Fault Refusal :=
  match s.dbg.halt with
  | some h =>
    if h.enter ∧ h.at_ ≤ s.clk.gtc then
      if modeB s.top.mode then .next (s.haltEnter h.at_) else .next ((s.setDbg { s.dbg with halt := none }).coverageEnd 3)
    else .next s
  | none => .next s

/-- DEVICE_HALT_RESUME (R636). -/
def execDeviceHaltResume (s : State) : Host.Outcome State Fault Refusal :=
  match s.dbg.halt with
  | some h => if !h.enter ∧ h.at_ ≤ s.clk.gtc ∧ s.top.mode = .halt then .next s.haltLeave else .next s
  | none => .next s

/-- DEBUG_WARM_RESET (R637): END as DBG_RESET holds it. -/
def execDebugWarmReset (s : State) : Host.Outcome State Fault Refusal := .next (s.dbgGo aDbgReset 29 2 0)
/-- DEBUG_BLOCK_RESET (R637): BKIND and INDEX as DBG_RESET holds them. -/
def execDebugBlockReset (s : State) : Host.Outcome State Fault Refusal := .next (s.dbgGo aDbgReset 29 2 1)
/-- DEBUG_TEST_ENTRY (R637). -/
def execDebugTestEntry (s : State) : Host.Outcome State Fault Refusal := .next (s.dbgGo aDbgReset 29 2 2)

end Sys2Proof.Machine
end

