-- ==== Sys2Proof/Machine/Smbus.lean ====
section
/-! DEFINITION. The SMBus target (R615, R616). -/

namespace Sys2Proof.Machine

open Sys2Proof

/-- The target answers in every mode except COMMIT, while there is power. -/
def State.smbOn (s : State) : Bool := s.top.mode != .commit && s.top.vinUp

def State.setSmb (s : State) (x : Smb) : State := { s with smb := x }

/-- A read returns a number; a target that does not answer returns nothing. -/
def State.smbReply (s : State) (v : Nat) : State := if s.smbOn then s.setSmb { s.smb with out := v } else s

/-- After a write of LATCH or MASK, ALERT_N goes high when no bit is 1 in both. -/
def Smb.settle (x : Smb) : Smb := if x.latch &&& x.mask = 0 then { x with alert := false } else x

/-- SMBUS_MODE: TOP_MODE.MODE. -/
def execSmbusMode (s : State) : Host.Outcome State Fault Refusal := .next (s.smbReply (modeCode s.top.mode))

/-- SMBUS_LATCH: read, or write 1 to clear. -/
def execSmbusLatch (write : Bool) (value : Half) (s : State) : Host.Outcome State Fault Refusal :=
  if !write then .next (s.smbReply s.smb.latch)
  else if s.smbOn then
    .next (s.setSmb { s.smb with latch := s.smb.latch - (s.smb.latch &&& value.toNat) }.settle)
  else .next s

/-- SMBUS_MASK: a write that unmasks a bit of LATCH that is 1 drives ALERT_N low. -/
def execSmbusMask (write : Bool) (value : Half) (s : State) : Host.Outcome State Fault Refusal :=
  let x := s.smb
  if !write then .next (s.smbReply x.mask)
  else if s.smbOn then
    let m := value.toNat % 256
    let drive := (upTo 8).any fun b => bitOf m b && !bitOf x.mask b && bitOf x.latch b
    .next (s.setSmb { x with mask := m, alert := x.alert || drive }.settle)
  else .next s

/-- SMBUS_VIN: mV. -/
def execSmbusVin (s : State) : Host.Outcome State Fault Refusal := .next (s.smbReply (s.fld aTopPwr 0 16))

/-- SMBUS_IIN: mA. -/
def execSmbusIin (s : State) : Host.Outcome State Fault Refusal := .next (s.smbReply (s.fld (aTopPwr + 4) 0 16))

/-- SMBUS_PIN: units of 0.1 W. -/
def execSmbusPin (s : State) : Host.Outcome State Fault Refusal := .next (s.smbReply (s.fld (aTopPwr + 12) 0 16))

/-- SMBUS_TJMAX: hottest island, units of 0.1 °C. -/
def execSmbusTjmax (s : State) : Host.Outcome State Fault Refusal := .next (s.smbReply (s.fld (aTopPwr + 8) 0 16))

/-- SMBUS_TALERT: the field of TOP_TALERT. -/
def execSmbusTalert (write : Bool) (value : Half) (s : State) : Host.Outcome State Fault Refusal :=
  if !write then .next (s.smbReply (s.fld aTopTalert 0 16))
  else if s.smbOn then .next (s.setFld aTopTalert 0 16 value.toNat)
  else .next s

/-- SMBUS_OPHOURS: EVR_OPTIME. -/
def execSmbusOphours (s : State) : Host.Outcome State Fault Refusal :=
  .next (s.smbReply (s.evr.optime % 3600 * 2 ^ 20 + s.evr.optime / 3600 % 2 ^ 20))

/-- SMBUS_PCYC: EVR_PCYC. -/
def execSmbusPcyc (s : State) : Host.Outcome State Fault Refusal := .next (s.smbReply (s.evr.pcyc % 2 ^ 24))

/-- SMBUS_PART: 0x0000_5120. -/
def execSmbusPart (s : State) : Host.Outcome State Fault Refusal := .next (s.smbReply 0x00005120)

/-- SMBUS_ALERT_RESPONSE: a read of address 0x0C while ALERT_N is low returns 0x5C, and ALERT_N goes high (R616). -/
def execSmbusAlertResponse (s : State) : Host.Outcome State Fault Refusal :=
  if s.smbOn && s.smb.alert then .next (s.setSmb { s.smb with out := 0x5C, alert := false }) else .next s

end Sys2Proof.Machine
end

