-- ==== Sys2Proof/Machine/Dispatch.lean ====
section
/-! DEFINITION. The meaning of each command: one arm a constructor. -/

namespace Sys2Proof.Machine

open Sys2Proof

/-- The effect of a command on everything but the queue. -/
def exec (i : Instr) (s : State) : Host.Outcome State Fault Refusal :=
  match i with
  | .aluReg t rd ra rb f fn => Sys2Proof.Machine.execAluReg t rd ra rb f fn s
  | .aluImm t rd ra f fn imm => Sys2Proof.Machine.execAluImm t rd ra f fn imm s
  | .aluLi t rd imm => Sys2Proof.Machine.execAluLi t rd imm s
  | .aluLih t rd imm => Sys2Proof.Machine.execAluLih t rd imm s
  | .ld t rd space size x ra off => Sys2Proof.Machine.execLd t rd space size x ra off s
  | .st t rd space size x ra off => Sys2Proof.Machine.execSt t rd space size x ra off s
  | .ext t rd ra pos len1 => Sys2Proof.Machine.execExt t rd ra pos len1 s
  | .ins t rd ra pos len1 => Sys2Proof.Machine.execIns t rd ra pos len1 s
  | .br t cond off => Sys2Proof.Machine.execBr t cond off s
  | .brLink t rd off => Sys2Proof.Machine.execBrLink t rd off s
  | .brReg t ra => Sys2Proof.Machine.execBrReg t ra s
  | .brRc t tag code sense off => Sys2Proof.Machine.execBrRc t tag code sense off s
  | .csumAdj t rd ra rb width => Sys2Proof.Machine.execCsumAdj t rd ra rb width s
  | .tstamp t rd sel off => Sys2Proof.Machine.execTstamp t rd sel off s
  | .flowGet t rd tag mask => Sys2Proof.Machine.execFlowGet t rd tag mask s
  | .flowAdd t rd tag ra rb word mode => Sys2Proof.Machine.execFlowAdd t rd tag ra rb word mode s
  | .flowCas t rd tag ra rb word u => Sys2Proof.Machine.execFlowCas t rd tag ra rb word u s
  | .flowIns t rd tag persist => Sys2Proof.Machine.execFlowIns t rd tag persist s
  | .flowDel t rd tag ra => Sys2Proof.Machine.execFlowDel t rd tag ra s
  | .lkpEm t rd tag ra rb type learn => Sys2Proof.Machine.execLkpEm t rd tag ra rb type learn s
  | .lkpLpm t rd tag ra v6 off => Sys2Proof.Machine.execLkpLpm t rd tag ra v6 off s
  | .hashCrc32c t rd tag space len off => Sys2Proof.Machine.execHashCrc32c t rd tag space len off s
  | .csumSum t rd tag space len off => Sys2Proof.Machine.execCsumSum t rd tag space len off s
  | .meter t rd tag ra rb f c => Sys2Proof.Machine.execMeter t rd tag ra rb f c s
  | .hashCrc32 t rd tag space len off => Sys2Proof.Machine.execHashCrc32 t rd tag space len off s
  | .hashH0 t rd tag space len off => Sys2Proof.Machine.execHashH0 t rd tag space len off s
  | .wait t kind n => Sys2Proof.Machine.execWait t kind n s
  | .delay t unit x ra count => Sys2Proof.Machine.execDelay t unit x ra count s
  | .yield t => Sys2Proof.Machine.execYield t s
  | .ordrel t => Sys2Proof.Machine.execOrdrel t s
  | .emit t q m ra => Sys2Proof.Machine.execEmit t q m ra s
  | .drop t reason => Sys2Proof.Machine.execDrop t reason s
  | .trap t ring code => Sys2Proof.Machine.execTrap t ring code s
  | .recirc t => Sys2Proof.Machine.execRecirc t s
  | .interruptTaken t ecc => Sys2Proof.Machine.execInterruptTaken t ecc s
  | .gateConditionTrue t => Sys2Proof.Machine.execGateConditionTrue t s
  | .asyncComplete t tag ecc => Sys2Proof.Machine.execAsyncComplete t tag ecc s
  | .flowOpApply slice => Sys2Proof.Machine.execFlowOpApply slice s
  | .missQueueRoom slice => Sys2Proof.Machine.execMissQueueRoom slice s
  | .journalRoom slice => Sys2Proof.Machine.execJournalRoom slice s
  | .emLookupApply race => Sys2Proof.Machine.execEmLookupApply race s
  | .lpmLookupApply race => Sys2Proof.Machine.execLpmLookupApply race s
  | .meterApply => Sys2Proof.Machine.execMeterApply s
  | .hashApply race cluster => Sys2Proof.Machine.execHashApply race cluster s
  | .frameReceive port part bytes fcsOk preempt => Sys2Proof.Machine.execFrameReceive port part bytes fcsOk preempt s
  | .headerBytesArrive port n => Sys2Proof.Machine.execHeaderBytesArrive port n s
  | .cellRequest => Sys2Proof.Machine.execCellRequest s
  | .noCellDrop => Sys2Proof.Machine.execNoCellDrop s
  | .refRelease => Sys2Proof.Machine.execRefRelease s
  | .hostTxRetry part => Sys2Proof.Machine.execHostTxRetry part s
  | .parserAdmit race => Sys2Proof.Machine.execParserAdmit race s
  | .leatAdmit race => Sys2Proof.Machine.execLeatAdmit race s
  | .heldPassEnqueue race => Sys2Proof.Machine.execHeldPassEnqueue race s
  | .taskDeal race => Sys2Proof.Machine.execTaskDeal race s
  | .dueTaskTake race cluster => Sys2Proof.Machine.execDueTaskTake race cluster s
  | .delayTick race unit => Sys2Proof.Machine.execDelayTick race unit s
  | .delayEntryObtained t => Sys2Proof.Machine.execDelayEntryObtained t s
  | .dueTaskEnqueue race unit => Sys2Proof.Machine.execDueTaskEnqueue race unit s
  | .keepaliveFire race timer => Sys2Proof.Machine.execKeepaliveFire race timer s
  | .reorderTimeout race => Sys2Proof.Machine.execReorderTimeout race s
  | .budgetWatchdog race task => Sys2Proof.Machine.execBudgetWatchdog race task s
  | .tailraceEnqueue race => Sys2Proof.Machine.execTailraceEnqueue race s
  | .multicastReplicate => Sys2Proof.Machine.execMulticastReplicate s
  | .spillWrite queue => Sys2Proof.Machine.execSpillWrite queue s
  | .portSelect port => Sys2Proof.Machine.execPortSelect port s
  | .frameTxDone port => Sys2Proof.Machine.execFrameTxDone port s
  | .gateEntryAdvance port => Sys2Proof.Machine.execGateEntryAdvance port s
  | .gateListSwitch port => Sys2Proof.Machine.execGateListSwitch port s
  | .pfcFrameReceived port mask times => Sys2Proof.Machine.execPfcFrameReceived port mask times s
  | .pfcPauseExpire port prio => Sys2Proof.Machine.execPfcPauseExpire port prio s
  | .pfcRefresh port prio => Sys2Proof.Machine.execPfcRefresh port prio s
  | .linkUp port => Sys2Proof.Machine.execLinkUp port s
  | .linkDown port => Sys2Proof.Machine.execLinkDown port s
  | .verifyResponse port => Sys2Proof.Machine.execVerifyResponse port s
  | .verifyTimeout port => Sys2Proof.Machine.execVerifyTimeout port s
  | .modRead m octet => Sys2Proof.Machine.execModRead m octet s
  | .modWrite m octet => Sys2Proof.Machine.execModWrite m octet s
  | .modTransactionDone octet ok data => Sys2Proof.Machine.execModTransactionDone octet ok data s
  | .modulePresenceChange octet present => Sys2Proof.Machine.execModulePresenceChange octet present s
  | .moduleInt octet level => Sys2Proof.Machine.execModuleInt octet level s
  | .sweeperPassStart slice => Sys2Proof.Machine.execSweeperPassStart slice s
  | .sweeperVisit slice => Sys2Proof.Machine.execSweeperVisit slice s
  | .agerPass race => Sys2Proof.Machine.execAgerPass race s
  | .learnApply race => Sys2Proof.Machine.execLearnApply race s
  | .holddownExpire race key type => Sys2Proof.Machine.execHolddownExpire race key type s
  | .walkTimeout part => Sys2Proof.Machine.execWalkTimeout part s
  | .restampDone table => Sys2Proof.Machine.execRestampDone table s
  | .meterRefresh meter => Sys2Proof.Machine.execMeterRefresh meter s
  | .nop c => Sys2Proof.Machine.execNop c s
  | .abort c => Sys2Proof.Machine.execAbort c s
  | .commit c => Sys2Proof.Machine.execCommit c s
  | .attest c => Sys2Proof.Machine.execAttest c s
  | .attestDone part ring tag => Sys2Proof.Machine.execAttestDone part ring tag s
  | .search c => Sys2Proof.Machine.execSearch c s
  | .insert c => Sys2Proof.Machine.execInsert c s
  | .delete c => Sys2Proof.Machine.execDelete c s
  | .next c => Sys2Proof.Machine.execNext c s
  | .flushPort c => Sys2Proof.Machine.execFlushPort c s
  | .lpmUpdate c => Sys2Proof.Machine.execLpmUpdate c s
  | .walkStart c => Sys2Proof.Machine.execWalkStart c s
  | .flowSearch c => Sys2Proof.Machine.execFlowSearch c s
  | .flowInsert c => Sys2Proof.Machine.execFlowInsert c s
  | .flowDelete c => Sys2Proof.Machine.execFlowDelete c s
  | .flowNext c => Sys2Proof.Machine.execFlowNext c s
  | .flowFlushPort c => Sys2Proof.Machine.execFlowFlushPort c s
  | .versionCommit c => Sys2Proof.Machine.execVersionCommit c s
  | .versionChecksDone part ring tag => Sys2Proof.Machine.execVersionChecksDone part ring tag s
  | .versionActivate part ring tag => Sys2Proof.Machine.execVersionActivate part ring tag s
  | .versionStatus c => Sys2Proof.Machine.execVersionStatus c s
  | .snapshot c => Sys2Proof.Machine.execSnapshot c s
  | .snapshotLatch => Sys2Proof.Machine.execSnapshotLatch s
  | .counterFreeze => Sys2Proof.Machine.execCounterFreeze s
  | .counterUnfreeze => Sys2Proof.Machine.execCounterUnfreeze s
  | .dumpCfg c => Sys2Proof.Machine.execDumpCfg c s
  | .dumpDue part stream => Sys2Proof.Machine.execDumpDue part stream s
  | .dumpComplete part stream => Sys2Proof.Machine.execDumpComplete part stream s
  | .evrFreeze c => Sys2Proof.Machine.execEvrFreeze c s
  | .evrThaw c => Sys2Proof.Machine.execEvrThaw c s
  | .evrFreezeExpire => Sys2Proof.Machine.execEvrFreezeExpire s
  | .evrRead c => Sys2Proof.Machine.execEvrRead c s
  | .evrClearSec c => Sys2Proof.Machine.execEvrClearSec c s
  | .eventRecord => Sys2Proof.Machine.execEventRecord s
  | .maintStart c => Sys2Proof.Machine.execMaintStart c s
  | .maintStop c => Sys2Proof.Machine.execMaintStop c s
  | .maintStatus c => Sys2Proof.Machine.execMaintStatus c s
  | .maintAutoStart activity => Sys2Proof.Machine.execMaintAutoStart activity s
  | .maintEnd activity ok => Sys2Proof.Machine.execMaintEnd activity ok s
  | .patchLoad c => Sys2Proof.Machine.execPatchLoad c s
  | .patchActivate c => Sys2Proof.Machine.execPatchActivate c s
  | .patchClusterDrained race => Sys2Proof.Machine.execPatchClusterDrained race s
  | .patchDrainTimeout race => Sys2Proof.Machine.execPatchDrainTimeout race s
  | .patchHeartbeatResult race failed => Sys2Proof.Machine.execPatchHeartbeatResult race failed s
  | .bufAlloc c => Sys2Proof.Machine.execBufAlloc c s
  | .bufFree c => Sys2Proof.Machine.execBufFree c s
  | .modeReq c => Sys2Proof.Machine.execModeReq c s
  | .blockReset c => Sys2Proof.Machine.execBlockReset c s
  | .islandQuiesced => Sys2Proof.Machine.execIslandQuiesced s
  | .quiesceTimeout => Sys2Proof.Machine.execQuiesceTimeout s
  | .islandResumed => Sys2Proof.Machine.execIslandResumed s
  | .warmReset c => Sys2Proof.Machine.execWarmReset c s
  | .restartQuiesced => Sys2Proof.Machine.execRestartQuiesced s
  | .clocksValid => Sys2Proof.Machine.execClocksValid s
  | .trimApplied fails => Sys2Proof.Machine.execTrimApplied fails s
  | .bootComplete slotA slotB => Sys2Proof.Machine.execBootComplete slotA slotB s
  | .vin12Rise => Sys2Proof.Machine.execVin12Rise s
  | .brownOut rail => Sys2Proof.Machine.execBrownOut rail s
  | .powerFailWarning => Sys2Proof.Machine.execPowerFailWarning s
  | .commitEnd => Sys2Proof.Machine.execCommitEnd s
  | .rstNRelease lowNs => Sys2Proof.Machine.execRstNRelease lowNs s
  | .rstNLow100ms => Sys2Proof.Machine.execRstNLow100ms s
  | .windshaftWatchdog pair => Sys2Proof.Machine.execWindshaftWatchdog pair s
  | .lockstepMismatch pair => Sys2Proof.Machine.execLockstepMismatch pair s
  | .resonatorFail which => Sys2Proof.Machine.execResonatorFail which s
  | .bothResonatorsFail => Sys2Proof.Machine.execBothResonatorsFail s
  | .islandPllLostLock island => Sys2Proof.Machine.execIslandPllLostLock island s
  | .gtcSync island drift => Sys2Proof.Machine.execGtcSync island drift s
  | .partitionReset part perst => Sys2Proof.Machine.execPartitionReset part perst s
  | .partitionResetClear part => Sys2Proof.Machine.execPartitionResetClear part s
  | .hostBuffersReturn part => Sys2Proof.Machine.execHostBuffersReturn part s
  | .cmdPiDoorbell part ring value => Sys2Proof.Machine.execCmdPiDoorbell part ring value s
  | .cmdChDoorbell part ring value => Sys2Proof.Machine.execCmdChDoorbell part ring value s
  | .rxTailDoorbell part ring value => Sys2Proof.Machine.execRxTailDoorbell part ring value s
  | .txTailDoorbell part ring value => Sys2Proof.Machine.execTxTailDoorbell part ring value s
  | .txDescriptor part ring => Sys2Proof.Machine.execTxDescriptor part ring s
  | .txWriteback part ring => Sys2Proof.Machine.execTxWriteback part ring s
  | .rxPacketWrite part ring => Sys2Proof.Machine.execRxPacketWrite part ring s
  | .stagedCommitGo m addr => Sys2Proof.Machine.execStagedCommitGo m addr s
  | .stagedCommitDiscard m addr => Sys2Proof.Machine.execStagedCommitDiscard m addr s
  | .gateCommit m part value => Sys2Proof.Machine.execGateCommit m part value s
  | .portCommit m part value => Sys2Proof.Machine.execPortCommit m part value s
  | .tcamWrite m part value => Sys2Proof.Machine.execTcamWrite m part value s
  | .tcamVset m part value => Sys2Proof.Machine.execTcamVset m part value s
  | .tcamVclr m part value => Sys2Proof.Machine.execTcamVclr m part value s
  | .tcamInvalidate m part value => Sys2Proof.Machine.execTcamInvalidate m part value s
  | .taccRead m part value => Sys2Proof.Machine.execTaccRead m part value s
  | .taccWrite m part value => Sys2Proof.Machine.execTaccWrite m part value s
  | .lbWdataWrite m part hi value => Sys2Proof.Machine.execLbWdataWrite m part hi value s
  | .lbSvcWrite m svc value => Sys2Proof.Machine.execLbSvcWrite m svc value s
  | .ucsModeNextWrite m word value => Sys2Proof.Machine.execUcsModeNextWrite m word value s
  | .hstDsubWrite m part hi value => Sys2Proof.Machine.execHstDsubWrite m part hi value s
  | .cntSelWrite m island sel value => Sys2Proof.Machine.execCntSelWrite m island sel value s
  | .cntWinWrite m word value => Sys2Proof.Machine.execCntWinWrite m word value s
  | .cntUserReadWrite m part value => Sys2Proof.Machine.execCntUserReadWrite m part value s
  | .lanemapWrite m port value => Sys2Proof.Machine.execLanemapWrite m port value s
  | .ptpRateWrite m hi value => Sys2Proof.Machine.execPtpRateWrite m hi value s
  | .ptpStepWrite m value => Sys2Proof.Machine.execPtpStepWrite m value s
  | .ptpSetWrite m word value => Sys2Proof.Machine.execPtpSetWrite m word value s
  | .ptpChangeApply => Sys2Proof.Machine.execPtpChangeApply s
  | .ptpCaptureRead m => Sys2Proof.Machine.execPtpCaptureRead m s
  | .ptpTsqPop m part => Sys2Proof.Machine.execPtpTsqPop m part s
  | .lowWordReadLatch m addr => Sys2Proof.Machine.execLowWordReadLatch m addr s
  | .hstDenyRead m part => Sys2Proof.Machine.execHstDenyRead m part s
  | .ptpPpsinRead m => Sys2Proof.Machine.execPtpPpsinRead m s
  | .ptpTodRxRead m => Sys2Proof.Machine.execPtpTodRxRead m s
  | .robStatusRead m race => Sys2Proof.Machine.execRobStatusRead m race s
  | .portStatusRead m port => Sys2Proof.Machine.execPortStatusRead m port s
  | .registerWrite m addr value => Sys2Proof.Machine.execRegisterWrite m addr value s
  | .ppsInEdge => Sys2Proof.Machine.execPpsInEdge s
  | .ppsOutEdge => Sys2Proof.Machine.execPpsOutEdge s
  | .todTxMessage => Sys2Proof.Machine.execTodTxMessage s
  | .todRxMessage bytes => Sys2Proof.Machine.execTodRxMessage bytes s
  | .eecReferenceLoss => Sys2Proof.Machine.execEecReferenceLoss s
  | .eecCfgWrite m value => Sys2Proof.Machine.execEecCfgWrite m value s
  | .fwWrite m slot => Sys2Proof.Machine.execFwWrite m slot s
  | .fwSelect m slot => Sys2Proof.Machine.execFwSelect m slot s
  | .fwActivate m slot => Sys2Proof.Machine.execFwActivate m slot s
  | .fwOperationDone result => Sys2Proof.Machine.execFwOperationDone result s
  | .heartbeatRun race cluster engine pass => Sys2Proof.Machine.execHeartbeatRun race cluster engine pass s
  | .heartbeatCheck => Sys2Proof.Machine.execHeartbeatCheck s
  | .selftestStart race cluster => Sys2Proof.Machine.execSelftestStart race cluster s
  | .selftestDone race cluster seg pass => Sys2Proof.Machine.execSelftestDone race cluster seg pass s
  | .tcamScan race rule shadowOk => Sys2Proof.Machine.execTcamScan race rule shadowOk s
  | .safetyReaction failure => Sys2Proof.Machine.execSafetyReaction failure s
  | .ageingMeasure islands canaries => Sys2Proof.Machine.execAgeingMeasure islands canaries s
  | .safAliveTick => Sys2Proof.Machine.execSafAliveTick s
  | .optimeTick => Sys2Proof.Machine.execOptimeTick s
  | .powerMonitorUpdate vin iin pin tj island => Sys2Proof.Machine.execPowerMonitorUpdate vin iin pin tj island s
  | .smbusMode => Sys2Proof.Machine.execSmbusMode s
  | .smbusLatch write value => Sys2Proof.Machine.execSmbusLatch write value s
  | .smbusMask write value => Sys2Proof.Machine.execSmbusMask write value s
  | .smbusVin => Sys2Proof.Machine.execSmbusVin s
  | .smbusIin => Sys2Proof.Machine.execSmbusIin s
  | .smbusPin => Sys2Proof.Machine.execSmbusPin s
  | .smbusTjmax => Sys2Proof.Machine.execSmbusTjmax s
  | .smbusTalert write value => Sys2Proof.Machine.execSmbusTalert write value s
  | .smbusOphours => Sys2Proof.Machine.execSmbusOphours s
  | .smbusPcyc => Sys2Proof.Machine.execSmbusPcyc s
  | .smbusPart => Sys2Proof.Machine.execSmbusPart s
  | .smbusAlertResponse => Sys2Proof.Machine.execSmbusAlertResponse s
  | .extest => Sys2Proof.Machine.execExtest s
  | .idcode => Sys2Proof.Machine.execIdcode s
  | .samplePreload => Sys2Proof.Machine.execSamplePreload s
  | .clamp => Sys2Proof.Machine.execClamp s
  | .highz => Sys2Proof.Machine.execHighz s
  | .extestPulse => Sys2Proof.Machine.execExtestPulse s
  | .extestTrain => Sys2Proof.Machine.execExtestTrain s
  | .bypass => Sys2Proof.Machine.execBypass s
  | .eaccRead addr => Sys2Proof.Machine.execEaccRead addr s
  | .eaccWrite addr value => Sys2Proof.Machine.execEaccWrite addr value s
  | .trstNLow => Sys2Proof.Machine.execTrstNLow s
  | .unlockChallenge => Sys2Proof.Machine.execUnlockChallenge s
  | .unlock => Sys2Proof.Machine.execUnlock s
  | .lock => Sys2Proof.Machine.execLock s
  | .programUserDigest => Sys2Proof.Machine.execProgramUserDigest s
  | .challengeExpire => Sys2Proof.Machine.execChallengeExpire s
  | .lockoutExpire => Sys2Proof.Machine.execLockoutExpire s
  | .apRead => Sys2Proof.Machine.execApRead s
  | .apWrite => Sys2Proof.Machine.execApWrite s
  | .threadHalt => Sys2Proof.Machine.execThreadHalt s
  | .threadStep => Sys2Proof.Machine.execThreadStep s
  | .threadResume => Sys2Proof.Machine.execThreadResume s
  | .threadAbort => Sys2Proof.Machine.execThreadAbort s
  | .threadMstep => Sys2Proof.Machine.execThreadMstep s
  | .deviceHaltRequest => Sys2Proof.Machine.execDeviceHaltRequest s
  | .deviceResumeRequest => Sys2Proof.Machine.execDeviceResumeRequest s
  | .deviceHaltEnter => Sys2Proof.Machine.execDeviceHaltEnter s
  | .deviceHaltResume => Sys2Proof.Machine.execDeviceHaltResume s
  | .debugWarmReset => Sys2Proof.Machine.execDebugWarmReset s
  | .debugBlockReset => Sys2Proof.Machine.execDebugBlockReset s
  | .debugTestEntry => Sys2Proof.Machine.execDebugTestEntry s
  | .samplerVisit queue => Sys2Proof.Machine.execSamplerVisit queue s
  | .journalRingWrite => Sys2Proof.Machine.execJournalRingWrite s
  | .eecLocked => Sys2Proof.Machine.execEecLocked s
  | .perstNRelease part => Sys2Proof.Machine.execPerstNRelease part s
  | .pcieLinkUp part => Sys2Proof.Machine.execPcieLinkUp part s

end Sys2Proof.Machine
end

