-- ==== Sys2Proof/Machine/Tick.lean ====
section
/-! DEFINITION. What an idle step does (log 2): one count of the master GTC, 0.25 ns (R21), the island cycles that end
with it for the programmable counters (R523 to R526), and descriptors whose opcode is unknown (R465). -/

namespace Sys2Proof.Machine

open Sys2Proof

/-- Does an island cycle of unit u end with GTC count g (log 16)? The island clock is AGE_ISL.CLK, in MHz. -/
def State.cycles (s : State) (u g : Nat) : Bool :=
  let f := s.fld (aAgeIsl u) 0 11
  (g + 1) * f / 4000 != g * f / 4000

/-- Does a head of port n wait under R376? -/
def State.headWaits (s : State) (n : Nat) : Bool :=
  (s.portS n).link && (upTo 8).any fun c =>
    let q := directBase + 8 * n + c
    (s.directReady n c && !s.mayStartTx n c (s.queue q).headLen) ||
      (s.subCls n = c && match s.tierOffer n with
        | some p => !s.mayStartTx n c p.child.len
        | none => false)

/-- An occupancy of R526; none where the manual leaves it to the device. -/
def State.occupancy (s : State) (u ev : Nat) : Option Nat :=
  if u < 64 then none
  else if u < 80 then
    let r := u - 64
    let x := s.race r
    match ev with
    | 0x100 => some x.ntq.length
    | 0x101 => some x.rob.length
    | 0x102 => some (s.threads.filter (fun e => decide (raceOf e.1 = r) && e.2.ctx.isSome)).length
    | 0x103 => some x.leat.length
    | _ => some x.dlyHeld
  else if u < 84 then
    let sl := (upTo 8).map (fun j => 8 * (u - 80) + j)
    if ev = 0x100 then some (sl.map s.missQ).sum else some (sl.map (fun i => (s.stashUsed i).length)).sum
  else if u < 88 then none
  else if u = 88 then some ((if ev = 0x100 then s.freeCells else s.freeShared.toNat) / 16)
  else if u < 105 then
    some (((s.eg.queues.filter (fun e => decide (s.queuePort e.1 / 32 = u - 89))).map (fun e => e.2.fifo.length)).sum / 16)
  else if u = 105 then
    some ((upTo 16).map (fun k => sub16 (s.cmdPi (k / 4) (k % 4)) (s.cmdCh (k / 4) (k % 4)))).sum
  else some s.evr.hold.length

/-- Occurrences of an event in one island cycle that no command makes: cycles, cycles with admission paused, cycles in
which a head waits. The traffic of a DRAM controller is left to the device. -/
def State.cycleEvents (s : State) (u ev : Nat) : Option Nat :=
  if ev = 0 then some 1
  else if ev = 0x015 then some (natBool (s.race (u - 64)).paused)
  else if ev = 0x013 ∧ 89 ≤ u ∧ u < 105 then some (natBool ((upTo 32).any (fun i => s.headWaits (32 * (u - 89) + i))))
  else if 84 ≤ u ∧ u < 88 then none
  else some 0

/-- One island cycle of a programmable counter: unit, index, CNT_SEL. -/
def State.countCycle (s : State) (u i v : Nat) : State :=
  let ev := bitsOf v 16 10
  let open_ := !bitOf v 30 || s.inWindow u
  let add := fun (s : State) (n : Nat) => if open_ then s.progAdd u i n else s
  if bitsOf v 28 2 = 0 then
    match s.cycleEvents u ev with
    | some n => add s n
    | none => add s.useFree (s.freeVal.toNat % 4)
  else
    let (above, s) := match s.occupancy u ev with
      | some o => (decide (v % 65536 < o), s)
      | none => (s.freeVal.getLsbD 0, s.useFree)
    let k := 16 * u + i
    let was := mget linkDown0 s.coll.above k
    let s := { s with coll := { s.coll with above := mset linkDown0 s.coll.above k above } }
    if above && (bitsOf v 28 2 = 1 || !was) then add s 1 else s

/-- The enabled programmable counters, as their CNT_SEL words list them. -/
def State.selectors (s : State) : List (Nat × Nat) :=
  (s.regs.filter (fun e => decide (aCntSel 0 0 ≤ e.1 ∧ e.1 < aCntSel 107 0 ∧ 2 ^ 31 ≤ e.2.toNat))).map
    fun e => ((e.1 - aCntSel 0 0) / 4, e.2.toNat)

/-- The cycles that end with the present count; no island runs in HALT (R635). -/
def State.islandCycles (s : State) : State :=
  if s.top.mode = .halt then s
  else
    let g := s.clk.gtc
    s.selectors.foldl (fun s (e : Nat × Nat) => if s.cycles (e.1 / 16) g then s.countCycle (e.1 / 16) (e.1 % 16) e.2 else s) s

/-- Rings whose next descriptor names no command (R465). -/
def State.badRings (s : State) : State :=
  (upTo 16).foldl (fun s k => if s.cmdOn (k / 4) (k % 4) then s.badHeads (k / 4) (k % 4) (s.cmdSize (k / 4) (k % 4)) else s) s

/-- Keepalive timers that fall due with the new count note their version and PTP time (R65, R157, R199). -/
def State.firingsDue (s : State) : State :=
  if s.runs then
    (s.races.filter (fun e => e.2.dly.any fun d => decide (d.due ≤ s.clk.gtc ∧ d.fired = none))).foldl
      (fun s e => s.stampFirings e.1) s
  else s

/-- One GTC count, once the counter runs (R500 step 3). -/
def tick (s : State) : State :=
  if s.clk.run then
    let s := s.badRings.islandCycles
    State.firingsDue { s with clk := { s.clk with gtc := s.clk.gtc + 1 } }
  else s

end Sys2Proof.Machine
end

