-- ==== Sys2Proof/Safety.lean ====
section
/-! DEFINITION. The terms in which statements speak: safe steps, what only counters see, and threads that issue an
instruction. -/

namespace Sys2Proof

open Sys2Proof.Machine

/-- The step answers a next state. -/
def SafeStep (s : Machine.State) : Prop := ∃ t, Machine.step s = .next t

/-- The byte memories have their canonical form. -/
def MemsWf (m : Mems) : Prop :=
  Memory.wf m.prog = true ∧ Memory.wf m.dram = true ∧ Memory.wf m.sram = true ∧ Memory.wf m.nvRaw = true ∧
    Memory.wf m.host = true

/-- `a` is no CNT_OVF register. -/
def NotOvf (a : Nat) : Prop := ∀ u < 107, a ≠ aCntOvf u

/-- From `s` to `t` only counters change, and the overflow bits of programmable ones (R524, R525). -/
def OnlyCounters (s t : Machine.State) : Prop :=
  t = { s with cnt := t.cnt, regs := t.regs } ∧ ∀ a, NotOvf a → t.reg a = s.reg a

/-- Thread `t` with the state `c` now issues the instruction of word `w`: it is selected, the word stands at its pc
inside the image's code, its control store and that word are sound, and no breakpoint holds it. -/
def Issues (t : ThreadId) (w : Word32) (c : Ctx) (s : Machine.State) : Prop :=
  let n := thrNum t
  (s.thr n).ctx = some c ∧ s.selectable n = true ∧ s.fetch t.race.val c = w.toNat ∧
    c.pc.toNat < s.codeLen t.race.val c ∧ (s.clu (cluOf n)).csFault = none ∧
    s.fetchAddr t.race.val c ∉ s.mems.progBad ∧
    (if (s.thr n).bpPass then none else s.bpFind t.race.val c) = none

/-- No STEP is under way and no watchpoint has been hit: the thread does not halt at its next boundary. -/
def NoHalt (t : ThreadId) (s : Machine.State) : Prop :=
  (s.thr (thrNum t)).stepping = false ∧ (s.thr (thrNum t)).wpHit = none

/-- The outcome is a next state in which the thread goes on with `c`, and nothing but this thread, its turn among its
engine's threads (R38) and counters has changed. -/
def GoesOn (t : ThreadId) (c : Ctx) (s : Machine.State) (o : Host.Outcome Machine.State Fault Refusal) : Prop :=
  ∃ u, o = .next u ∧ (u.thr (thrNum t)).ctx = some c ∧ (∀ m, m ≠ thrNum t → u.thr m = s.thr m) ∧
    OnlyCounters { s with threads := u.threads, clusters := (s.turn (thrNum t) c.prio).clusters } u

/-- No watchpoint of the thread's race matches any access. -/
def NoWatch (t : ThreadId) (s : Machine.State) : Prop :=
  ∀ i write space off len, i < 4 → s.wpMatch t.race.val i write space off len = false

/-- The state of a thread after an instruction that falls through. -/
def Ctx.next (c : Ctx) : Ctx := { c with pc := c.pc + 1 }

/-- The instruction after this one lies inside the image's code. -/
def MoreCode (t : ThreadId) (c : Ctx) (s : Machine.State) : Prop := c.pc.toNat + 1 < s.codeLen t.race.val c

end Sys2Proof
end

