-- ==== Sys2Proof/Certificates/Slice0/Obligations.lean ====
section
/-! DEFINITION. The statements about the block: what each command does when its conditions hold, what it leaves
unchanged, and what holds of every state and every step. -/

open Sys2Proof Sys2Proof.Machine

/-! ### The step -/

/-- A step takes the front command and runs it on the state with the queue's rest. -/
def Obligations.StepRunsTheFrontCommand : Prop :=
  ∀ (c : Instr) (l : List Instr) (s : State), step { s with pending := c :: l } = exec c { s with pending := l }

/-- With no command waiting the block ticks (log 2): the GTC counts once when the clocks run and stands when they do
not, and the queue stays empty. -/
def Obligations.EmptyQueueCountsTime : Prop :=
  ∀ s : State, s.pending = [] →
    ∃ t, step s = .next t ∧ t.clk.gtc = s.clk.gtc + (if s.clk.run then 1 else 0) ∧ t.pending = []

/-- Nothing stops the block: every command has a next state from every state, a reserved encoding too. -/
def Obligations.EveryCommandHasANextState : Prop :=
  ∀ (c : Instr) (s : State), ∃ t, exec c s = .next t

/-- A command changes everything but the queue: it leaves the waiting commands as they are. -/
def Obligations.CommandsLeaveTheQueue : Prop :=
  ∀ (c : Instr) (s t : State), exec c s = .next t → t.pending = s.pending

/-- The five byte memories keep their canonical form through every step. -/
def Obligations.StepsKeepMemoriesCanonical : Prop :=
  ∀ s t : State, MemsWf s.mems → step s = .next t → MemsWf t.mems

/-- The memories after reset have the canonical form. -/
def Obligations.ResetMemoriesCanonical : Prop :=
  MemsWf State.reset.mems ∧ State.reset.pending = [] ∧ State.reset.top.mode = .cold ∧ State.reset.clk.run = false

/-! ### Engine instructions -/

/-- The word of the engine instruction `i` of thread `t`, where it is one. -/
def Sys2Proof.wordOf : Instr → Option (ThreadId × Word32)
  | .aluReg t rd ra rb f fn => some (t, encR rd ra rb f fn)
  | .aluImm t rd ra f fn imm => some (t, encI rd ra f fn imm)
  | .br t cond off => some (t, encB 0x08 cond off)
  | .csumAdj t rd ra rb width => some (t, encC rd ra rb width)
  | .tstamp t rd sel off => some (t, encT rd sel off)
  | .flowGet t rd tag mask => some (t, encFlowGet rd tag mask)
  | .flowAdd t rd tag ra rb word mode => some (t, encFlowAdd rd tag ra rb word mode)
  | .flowCas t rd tag ra rb word u => some (t, encFlowCas rd tag ra rb word u)
  | .flowIns t rd tag p => some (t, encFlowIns rd tag p)
  | .flowDel t rd tag ra => some (t, encFlowDel rd tag ra)
  | .lkpEm t rd tag ra rb type learn => some (t, encLkpEm rd tag ra rb type learn)
  | .lkpLpm t rd tag ra v6 off => some (t, encLkpLpm rd tag ra v6 off)
  | .hashCrc32c t rd tag space len off => some (t, encHash 0x1A rd tag space len off)
  | .csumSum t rd tag space len off => some (t, encHash 0x1B rd tag space len off)
  | .hashCrc32 t rd tag space len off => some (t, encHash 0x1D rd tag space len off)
  | .hashH0 t rd tag space len off => some (t, encHash 0x1E rd tag space len off)
  | .meter t rd tag ra rb f c => some (t, encMeter rd tag ra rb f c)
  | .wait t kind n => some (t, encWait kind n)
  | .delay t unit x ra count => some (t, encDelay unit x ra count)
  | .emit t q m ra => some (t, encEmit q m ra)
  | .drop t reason => some (t, encDrop reason)
  | _ => none

/-- Executing a reserved encoding (R52) has one of the effects that R484 case 10 leaves open, by free values (log 19): the thread
stands still, ends, or goes on in a free state; no other thread and no memory changes. -/
def Obligations.ReservedEncodingsStayWithTheirThread : Prop :=
  ∀ (i : Instr) (t : ThreadId) (w : Word32) (c : Ctx) (s : State),
    i.reserved = true → wordOf i = some (t, w) → Issues t w c s →
    let n := thrNum t
    ∃ u, exec i s = .next u ∧ u = ((s.anything n c).issued n c w).boundary n c.task ∧ (∀ m, m ≠ n → u.thr m = s.thr m) ∧
      u.mems = s.mems ∧ u.committed = s.committed ∧
      ((u.thr n).ctx = none ∨ ∃ d, (u.thr n).ctx = some d ∧ d.task = c.task ∧ d.pkt = c.pkt ∧ d.img = c.img)

/-- `alu` (R57, R58): rd receives the result, except for cmp and tst, and the flags follow it where the instruction
sets them. Nothing else changes, but the thread's pc and counters. -/
def Obligations.AluComputesResultAndFlags : Prop :=
  ∀ (t : ThreadId) (rd ra rb : GReg) (f : Bool) (fn : BitVec 5) (imm : BitVec 12) (c : Ctx) (s : State),
    fn.toNat < 0x16 → NoHalt t s → MoreCode t c s →
    let after (b : Word64) : Ctx :=
      let n := fn.toNat
      let r := aluResult n (c.gr ra) b
      let c1 := if n = 0x0D ∨ n = 0x0E then c else c.setGr rd r
      if f = true ∨ n = 0x0D ∨ n = 0x0E then
        { c1 with z := decide (r = 0), n := r.getLsbD 63, c := aluCarry n (c.gr ra) b, v := aluOverflow n (c.gr ra) b }
      else c1
    (Issues t (encR rd ra rb f fn) c s → GoesOn t (Ctx.next (after (c.gr rb))) s (exec (.aluReg t rd ra rb f fn) s)) ∧
    (Issues t (encI rd ra f fn imm) c s →
      GoesOn t (Ctx.next (after (aluImm fn.toNat imm))) s (exec (.aluImm t rd ra f fn imm) s))

/-- g0 always reads 0 and a write to it is discarded (R45): for `li`, and for every function of `alu` without flags. -/
def Obligations.G0ReadsZeroAndDiscardsWrites : Prop :=
  (∀ (t : ThreadId) (imm : Half) (c : Ctx) (s : State), NoHalt t s → MoreCode t c s → Issues t (encW 0 0 imm) c s →
    GoesOn t (Ctx.next c) s (exec (.aluLi t 0 imm) s)) ∧
  (∀ (t : ThreadId) (rd : GReg) (fn : BitVec 5) (c : Ctx) (s : State), fn.toNat < 0x0D → NoHalt t s → MoreCode t c s →
    Issues t (encR rd 0 0 false fn) c s → GoesOn t (Ctx.next (c.setGr rd 0)) s (exec (.aluReg t rd 0 0 false fn) s)) ∧
  ∀ (c : Ctx) (v : Word64), (c.setGr 0 v).gr 0 = 0 ∧ ∀ r : GReg, (c.setGr 0 v).gr r = c.gr r

/-- `li`, `lih`, `ext`, `ins`, `csum.adj` and `tstamp` (R59, R60, R64, R65): the destination's new value.
`ext` and `ins` by bits (R60): bit i of the field, 0 above it; the field replaced and the other bits kept. -/
def Obligations.MovesAndFieldsWriteTheirRegister : Prop :=
  (∀ (t : ThreadId) (rd ra rb : GReg) (imm : Half) (pos len1 : BitVec 6) (width : BitVec 2) (sel : BitVec 3) (off : Byte)
      (c : Ctx) (s : State), NoHalt t s → MoreCode t c s →
      (Issues t (encW rd 0 imm) c s →
        GoesOn t (Ctx.next (c.setGr rd (imm.signExtend 64))) s (exec (.aluLi t rd imm) s)) ∧
      (Issues t (encW rd 1 imm) c s →
        GoesOn t (Ctx.next (c.setGr rd ((c.gr rd <<< 16) ||| imm.zeroExtend 64))) s (exec (.aluLih t rd imm) s)) ∧
      (Issues t (encE 0x06 rd ra pos len1) c s →
        GoesOn t (Ctx.next (c.setGr rd (extField (c.gr ra) pos.toNat (len1.toNat + 1)))) s (exec (.ext t rd ra pos len1) s)) ∧
      (Issues t (encE 0x07 rd ra pos len1) c s →
        GoesOn t (Ctx.next (c.setGr rd (insField (c.gr rd) (c.gr ra) pos.toNat (len1.toNat + 1)))) s
          (exec (.ins t rd ra pos len1) s)) ∧
      (Issues t (encC rd ra rb width) c s → width.toNat < 2 →
        GoesOn t (Ctx.next (c.setGr rd (BitVec.ofNat 64 (csumAdjust ((c.gr rd).toNat % 2 ^ 16) ((c.gr ra).toNat % 2 ^ 32)
          ((c.gr rb).toNat % 2 ^ 32) (decide (width.toNat = 1)))))) s (exec (.csumAdj t rd ra rb width) s)) ∧
      (Issues t (encT rd sel off) c s → badStamp sel rd = false →
        GoesOn t (Ctx.next
          (if sel = 0 then c.setGr rd (BitVec.ofNat 64 (s.islGtc (64 + t.race.val)))
           else if sel = 1 then c.setGr rd (BitVec.ofNat 64 (s.pkt c.pkt).stamp)
           else if sel = 2 then
             c.setGr rd (BitVec.ofNat 64 ((s.pkt c.pkt).ptpS % 2 ^ 32 * 2 ^ 32 + (s.pkt c.pkt).ptpNs % 2 ^ 30))
           else { c with stamps := c.stamps.filter (fun e => e.1 ≠ decide (sel = 5)) ++ [(decide (sel = 5), off.toNat)] }))
          s (exec (.tstamp t rd sel off) s))) ∧
  (∀ (a b : Word64) (pos len i : Nat), pos < 64 → 1 ≤ len → len ≤ 64 → i < 64 →
      (extField a pos len).getLsbD i = (decide (i < len) && a.getLsbD (pos + i)) ∧
      (insField b a pos len).getLsbD i = (if pos ≤ i ∧ i < pos + len then a.getLsbD (i - pos) else b.getLsbD i))

/-- `ld` and `st` (R46, R47): inside its window a load zero-extends the window's bytes, big-endian in spaces 0 and 3, once
they have arrived, and waits for them; a store writes the low bytes of its register into its window and nothing else. Outside
the window, and for a store to space 3, they raise WINDOW.
A store changes no byte of any window outside its own (R46). -/
def Obligations.LoadsAndStoresMoveWindowBytes : Prop :=
  (∀ (t : ThreadId) (rd : GReg) (space size : BitVec 2) (x : Bool) (ra : GReg) (off : Byte) (c : Ctx) (s : State),
      let r := t.race.val
      let sp := space.toNat
      let k := 2 ^ size.toNat
      let a := memAddr c x ra off
      (Issues t (encM 0x04 rd space size x ra off) c s →
        (winSize sp < a + k → exec (.ld t rd space size x ra off) s =
          .next (((s.exception (thrNum t) excWindow).issued (thrNum t) c (encM 0x04 rd space size x ra off)).boundary
            (thrNum t) c.task)) ∧
        (a + k ≤ winSize sp → sp = 0 → hdrNeed (s.pkt c.pkt) a k ≠ 0 →
          ∃ u, exec (.ld t rd space size x ra off) s = .next u ∧ (u.thr (thrNum t)).ctx = some c ∧
            (u.thr (thrNum t)).gate = some (.hdr (hdrNeed (s.pkt c.pkt) a k)) ∧ u.pkts = s.pkts ∧ u.mems = s.mems)) ∧
      (Issues t (encM 0x05 rd space size x ra off) c s → sp = 3 ∨ winSize sp < a + k →
        exec (.st t rd space size x ra off) s =
          .next (((s.exception (thrNum t) excWindow).issued (thrNum t) c (encM 0x05 rd space size x ra off)).boundary
            (thrNum t) c.task)) ∧
      (NoHalt t s → NoWatch t s → MoreCode t c s →
      a + k ≤ winSize sp →
      (Issues t (encM 0x04 rd space size x ra off) c s → (sp = 0 → hdrNeed (s.pkt c.pkt) a k = 0) →
        s.poolBad r c sp a k = none →
        GoesOn t (Ctx.next (c.setGr rd (BitVec.ofNat 64 (winNat sp (s.winBytes r c sp a k))))) s
          (exec (.ld t rd space size x ra off) s)) ∧
      (Issues t (encM 0x05 rd space size x ra off) c s → sp ≠ 3 →
        ¬ (sp = 0 ∧ (s.pkt c.pkt).hasFrame = true ∧ (s.pkt c.pkt).frame.length + 64 < a + k) →
        GoesOn t (Ctx.next (setWinBytes c sp a (if sp = 0 then beBytes k (c.gr rd).toNat else leBytes k (c.gr rd).toNat))) s
          (exec (.st t rd space size x ra off) s)))) ∧
  (∀ (s : State) (r : Nat) (c : Ctx) (sp a i : Nat) (l : List Byte), sp < 3 → a + l.length ≤ winSize sp →
      (∀ j, j < l.length → s.winByte r (setWinBytes c sp a l) sp (a + j) = l.getD j 0) ∧
      (i < a ∨ a + l.length ≤ i → s.winByte r (setWinBytes c sp a l) sp i = s.winByte r c sp i) ∧
      ∀ sp', sp' < 4 → sp' ≠ sp → s.winByte r (setWinBytes c sp a l) sp' i = s.winByte r c sp' i)

/-- Branches (R61 to R63): one that is taken goes to its target inside the image's code, another to the next instruction; `br.link`
writes the next code offset; `br.rc` waits at its gate while its result is pending.
A branch, or a fall-through, outside the image's code, and a `br.reg` to an offset above 15 bits, raise IMAGE (R62). -/
def Obligations.BranchesGoToTheirTargets : Prop :=
  ∀ (t : ThreadId) (cond code : BitVec 4) (rd ra tag : GReg) (sense : Bool) (off : Half) (c : Ctx) (s : State),
    let n := s.codeLen t.race.val c
    let goal : Int := (c.pc.toNat : Int) + off.toInt
    let inside : Prop := 0 ≤ goal ∧ goal < n
    let jump (c : Ctx) (a : Int) : Ctx := { c with pc := BitVec.ofInt 15 a }
    let ended (w : Word32) : Host.Outcome State Fault Refusal :=
      .next (((s.exception (thrNum t) excImage).issued (thrNum t) c w).boundary (thrNum t) c.task)
    let wB := encB 0x08 cond off
    let wL := encB 0x09 (r4 rd) off
    let wC := encBC tag code sense off
    (Issues t wB c s → cond.toNat < 0xD →
      (condHolds cond.toNat c.z c.n c.c c.v = true →
        (inside → NoHalt t s → GoesOn t (jump c goal) s (exec (.br t cond off) s)) ∧
        (¬ inside → exec (.br t cond off) s = ended wB)) ∧
      (condHolds cond.toNat c.z c.n c.c c.v = false →
        (MoreCode t c s → NoHalt t s → GoesOn t (Ctx.next c) s (exec (.br t cond off) s)) ∧
        (¬ MoreCode t c s → exec (.br t cond off) s = ended wB))) ∧
    (Issues t wL c s →
      (inside → NoHalt t s →
        GoesOn t (jump (c.setGr rd (BitVec.ofNat 64 (c.pc.toNat + 1))) goal) s (exec (.brLink t rd off) s)) ∧
      (¬ inside → exec (.brLink t rd off) s = ended wL)) ∧
    (Issues t (encBR ra) c s →
      ((c.gr ra).toNat < n → NoHalt t s → GoesOn t (jump c (c.gr ra).toNat) s (exec (.brReg t ra) s)) ∧
      (n ≤ (c.gr ra).toNat → exec (.brReg t ra) s = ended (encBR ra))) ∧
    (Issues t wC c s →
      (c.rcOf tag.val = 0 →
        ∃ u, exec (.brRc t tag code sense off) s = .next u ∧ (u.thr (thrNum t)).ctx = some c ∧
          (u.thr (thrNum t)).gate = some (.reply tag) ∧ u.pkts = s.pkts ∧ u.mems = s.mems) ∧
      (c.rcOf tag.val ≠ 0 → (c.rcOf tag.val = code ↔ sense = false) →
        (inside → NoHalt t s → GoesOn t (jump c goal) s (exec (.brRc t tag code sense off) s)) ∧
        (¬ inside → exec (.brRc t tag code sense off) s = ended wC)) ∧
      (c.rcOf tag.val ≠ 0 → (c.rcOf tag.val = code ↔ sense = true) →
        (MoreCode t c s → NoHalt t s → GoesOn t (Ctx.next c) s (exec (.brRc t tag code sense off) s)) ∧
        (¬ MoreCode t c s → exec (.brRc t tag code sense off) s = ended wC)))

/-- The state of a thread after it has issued an operation with `tag`: `rc[tag]` is PEND and `dc` one more (R66). -/
def Sys2Proof.opIssued (c : Ctx) (tag : GReg) : Ctx := Ctx.next { c.setRc tag.val 0 with dc := c.dc + 1 }

/-- Flow operations (R66, R71, R73): issued with their tag free, room at the home slice and `dc` not 15, they join the end of the
slice's queue with the thread's flow view; a posted `flow.add` changes neither `dc` nor `rc` (R68).
Lookups, hashes, sums and meters (R66, R74): issued with their tag free, `dc` not 15 and their bytes there, they join the end of
their unit's queue. -/
def Obligations.OperationsJoinTheirUnit : Prop :=
  (∀ (t : ThreadId) (rd tag ra rb : GReg) (mask : Half) (word : BitVec 4) (mode : BitVec 2) (u : Bool) (c : Ctx) (s : State),
      NoHalt t s → NoWatch t s → MoreCode t c s → c.dc ≠ 15 → tag.val ≠ 15 → c.rcOf tag.val ≠ 0 → (∀ sl, s.missFull sl = false) →
      let src := OpSrc.thread (thrNum t) c.task tag.val rd.val
      let i := c.gr ra
      let sent (sl : Nat) (k : FlowKind) (i : Word64) : State := s.sendFlow sl (s.flowOp c src k i)
      (Issues t (encFlowGet rd tag mask) c s →
        GoesOn t (opIssued c tag) (sent (s.viewHome c) (.get mask) 0) (exec (.flowGet t rd tag mask) s)) ∧
      (Issues t (encFlowAdd rd tag ra rb word mode) c s → badAdd rd tag word mode = false →
        GoesOn t (opIssued c tag) (sent (sliceOf i) (.add mode word.toNat (c.gr rb) 1) i)
          (exec (.flowAdd t rd tag ra rb word mode) s)) ∧
      (Issues t (encFlowAdd 0 15 ra rb word mode) c s → badAdd 0 15 word mode = false →
        GoesOn t (Ctx.next c)
          (s.sendFlow (sliceOf i) (s.flowOp c (.posted (thrNum t) c.task) (.add mode word.toNat (c.gr rb) 1) i))
          (exec (.flowAdd t 0 15 ra rb word mode) s)) ∧
      (Issues t (encFlowCas rd tag ra rb word u) c s →
        GoesOn t (opIssued c tag) (sent (sliceOf i) (.cas word.toNat (c.gr rd) (c.gr rb) u) i)
          (exec (.flowCas t rd tag ra rb word u) s)) ∧
      (Issues t (encFlowIns rd tag u) c s →
        GoesOn t (opIssued c tag) (sent (s.viewHome c) (.ins u) 0) (exec (.flowIns t rd tag u) s)) ∧
      (Issues t (encFlowDel rd tag ra) c s →
        GoesOn t (opIssued c tag) (sent (sliceOf i) .del i) (exec (.flowDel t rd tag ra) s))) ∧
  (∀ (t : ThreadId) (rd tag ra rb : GReg) (type : BitVec 3) (learn v6 : Bool) (space : BitVec 2) (len off : Byte)
      (c : Ctx) (s : State),
      NoHalt t s → NoWatch t s → MoreCode t c s → c.dc ≠ 15 → tag.val ≠ 15 → c.rcOf tag.val ≠ 0 → (s.pkt c.pkt).hlen ≤ (s.pkt c.pkt).arrived →
      let n := thrNum t
      let r := t.race.val
      let p := s.pkt c.pkt
      let src := OpSrc.thread n c.task tag.val rd.val
      let bytes := s.winBytes r c space.toNat off.toNat (len.toNat + 1)
      let hashed (k : HashKind) : State :=
        s.setClu (cluOf n) { s.clu (cluOf n) with
          hashq := (s.clu (cluOf n)).hashq ++ [{ src := src, kind := k, seed := c.gr rd, bytes := bytes }] }
      (Issues t (encLkpEm rd tag ra rb type learn) c s → badLookup tag rb learn = false →
        GoesOn t (opIssued c tag)
          (s.setRace r { s.race r with emq := (s.race r).emq ++
            [{ src := src, key := c.gr ra, type := type.toNat, learn := if learn then some (c.gr rb) else none,
               part := s.domOwner p.dom, dom := p.dom, port := p.port,
               seen := ekey (s.islGtc (64 + r)) (srcCluster r t.cluster.val) }] })
          (exec (.lkpEm t rd tag ra rb type learn) s)) ∧
      (Issues t (encLkpLpm rd tag ra v6 off) c s → off.toNat + (if v6 then 16 else 4) ≤ 256 →
        GoesOn t (opIssued c tag)
          (s.setRace r { s.race r with lpmq := (s.race r).lpmq ++
            [{ src := src, table := (c.gr ra).toNat % 65536, v6 := v6, part := s.domOwner p.dom,
               addr := BitVec.ofNat 128 (beNat (s.winBytes r c 0 off.toNat (if v6 then 16 else 4))) }] })
          (exec (.lkpLpm t rd tag ra v6 off) s)) ∧
      (off.toNat + len.toNat + 1 ≤ winSize space.toNat → s.poolBad r c space.toNat off.toNat (len.toNat + 1) = none →
        (Issues t (encHash 0x1A rd tag space len off) c s →
          GoesOn t (opIssued c tag) (hashed .crc32c) (exec (.hashCrc32c t rd tag space len off) s)) ∧
        (Issues t (encHash 0x1B rd tag space len off) c s →
          GoesOn t (opIssued c tag) (hashed .csum) (exec (.csumSum t rd tag space len off) s)) ∧
        (Issues t (encHash 0x1D rd tag space len off) c s →
          GoesOn t (opIssued c tag) (hashed .crc32) (exec (.hashCrc32 t rd tag space len off) s)) ∧
        (Issues t (encHash 0x1E rd tag space len off) c s →
          GoesOn t (opIssued c tag) (hashed .h0) (exec (.hashH0 t rd tag space len off) s))) ∧
      (Issues t (encMeter rd tag ra rb false v6) c s →
        GoesOn t (opIssued c tag)
          { s with weirq := s.weirq ++ [{ src := src, meter := (c.gr ra).toNat % 2 ^ 20, bytes := (c.gr rb).toNat, aware := v6,
                                          colour := c.mdN 0x0A 1 % 4, part := s.domOwner p.dom }] }
          (exec (.meter t rd tag ra rb false v6) s)) ∧
      (Issues t (encMeter rd tag ra rb true v6) c s → s.missFull (sliceOf (c.gr ra)) = false →
        GoesOn t (opIssued c tag)
          (s.sendFlow (sliceOf (c.gr ra))
            (s.flowOp c src (.meter (c.gr rb).toNat v6 (c.mdN 0x0A 1 % 4)) (c.gr ra)))
          (exec (.meter t rd tag ra rb true v6) s)))

/-- `wait`, `delay`, `yield` and `ordrel` (R76 to R78): a condition that holds costs no wait and one that does not makes the
thread wait at its gate; a delay frees the thread and joins its race's list; a yield goes to the tail of its ready list;
ordrel gives the reorder slot back.
A delayed task resumes at the first tick at or after count times unit (R77, R149): the due time is a multiple of the
unit, not before the count has passed, and less than one unit after it. -/
def Obligations.WaitsAndDelays : Prop :=
  (∀ (t : ThreadId) (m : BitVec 9) (unit : BitVec 2) (count : Half) (c : Ctx) (s : State),
      NoHalt t s → MoreCode t c s →
      let n := thrNum t
      let p := s.pkt c.pkt
      (Issues t (encWait 0 m) c s → m.toNat ≤ 15 → c.dc.toNat ≤ m.toNat → GoesOn t (Ctx.next c) s (exec (.wait t 0 m) s)) ∧
      (Issues t (encWait 1 m) c s → 1 ≤ m.toNat → m.toNat ≤ 256 → m.toNat ≤ p.arrived ∨ p.frame.length ≤ p.arrived →
        GoesOn t (Ctx.next c) s (exec (.wait t 1 m) s)) ∧
      (Issues t (encWait 2 m) c s → m.toNat ≤ 14 → c.rcOf m.toNat ≠ 0 → GoesOn t (Ctx.next c) s (exec (.wait t 2 m) s)) ∧
      (Issues t (encWait 0 m) c s → m.toNat < c.dc.toNat →
        ∃ u, exec (.wait t 0 m) s = .next u ∧ (u.thr n).ctx = some c ∧ (u.thr n).gate = some (.dcLe m.toNat)) ∧
      (∀ (x : Bool) (ra : GReg), badDelay x ra count = false → Issues t (encDelay unit x ra count) c s → c.dc = 0 →
        let k := if x then (c.gr ra).toNat % 65536 else count.toNat
        (k ≠ 0 → s.delayRoom t.race.val = true →
          exec (.delay t unit x ra count) s =
            .next ((s.placeDelay n unit.toNat k (Ctx.next c)).issued n c (encDelay unit x ra count))) ∧
        (k = 0 → GoesOn t (Ctx.next c) (s.join n c.prio) (exec (.delay t unit x ra count) s))) ∧
      (Issues t encYield c s → GoesOn t (Ctx.next c) (s.join n c.prio) (exec (.yield t) s)) ∧
      (Issues t encOrdrel c s → p.rob = false → GoesOn t (Ctx.next { c with ordrel := true }) s (exec (.ordrel t) s)) ∧
      (Issues t encOrdrel c s → p.rob = true →
        ∃ u, exec (.ordrel t) s = .next u ∧ (u.thr n).ctx = some (Ctx.next { c with ordrel := true }) ∧
          (∀ e ∈ (u.race t.race.val).rob, e.pkt ≠ c.pkt) ∧ (u.pkt c.pkt).rob = false ∧ u.mems = s.mems)) ∧
  (∀ u n t : Nat, dlyTick u ∣ dlyDue u n t ∧ t + n * dlyTick u ≤ dlyDue u n t ∧ dlyDue u n t < t + (n + 1) * dlyTick u)

/-- The endings (R79): with no operation outstanding the thread is free and the packet leaves, is dropped and counted, is
trapped, or goes through the Leat for its next pass, dropped where the Leat is full. A fourth pass raises RECIRC, an expiry
task and a frame that cannot be made raise WINDOW, and an ending waits until no operation is outstanding. -/
def Obligations.EndingsReleaseTheThread : Prop :=
  ∀ (t : ThreadId) (q m : Bool) (ra : GReg) (reason code : Byte) (ring : BitVec 6) (f : List Byte) (c : Ctx) (s : State),
    let n := thrNum t
    let r := t.race.val
    let p := s.pkt c.pkt
    let qr : GReg := if q then ra else 0
    let raised (w : Word32) (x : Nat) : Host.Outcome State Fault Refusal :=
      .next (((s.exception n x).issued n c w).boundary n c.task)
    let waits (o : Host.Outcome State Fault Refusal) : Prop := ∃ u, o = .next u ∧ (u.thr n).ctx = some c ∧
      (u.thr n).gate = some (.dcLe 0) ∧ (∀ m, m ≠ n → u.thr m = s.thr m) ∧ u.pkts = s.pkts ∧ u.mems = s.mems
    (c.dc ≠ 0 →
      (Issues t (encEmit q m qr) c s → waits (exec (.emit t q m qr) s)) ∧
      (Issues t (encDrop reason) c s → reason.toNat < 0xE0 → waits (exec (.drop t reason) s)) ∧
      (Issues t (encTrap ring code) c s → waits (exec (.trap t ring code) s)) ∧
      (Issues t encRecirc c s → waits (exec (.recirc t) s))) ∧
    (c.dc = 0 → Issues t (encDrop reason) c s → reason.toNat < 0xE0 →
      exec (.drop t reason) s =
        .next ((((s.freeThread n).bump (aRaceExcCnt r 0) 1).dropPkt c.pkt).issued n c (encDrop reason))) ∧
    (c.dc = 0 → p.kind = .expiry ∨ s.outFrame r c = none →
      (Issues t (encEmit q m qr) c s → exec (.emit t q m qr) s = raised (encEmit q m qr) excWindow) ∧
      (Issues t (encTrap ring code) c s → exec (.trap t ring code) s = raised (encTrap ring code) excWindow) ∧
      (Issues t encRecirc c s → p.kind = .expiry ∨ p.pass ≠ 3 → exec (.recirc t) s = raised encRecirc excWindow)) ∧
    (c.dc = 0 → p.kind ≠ .expiry → Issues t encRecirc c s → p.pass = 3 → exec (.recirc t) s = raised encRecirc excRecirc) ∧
    (c.dc = 0 → p.kind ≠ .expiry → s.outFrame r c = some f →
    let d := emitDesc s c f ((if q then (c.gr ra).toNat else c.mdN 0x0C 4) % 2 ^ 20)
    let copied := if m then s.mirrorOf d (c.mdN 0x10 2) else (s, [])
    (Issues t (encEmit q m qr) c s → stampsFit p c = true →
      exec (.emit t q m qr) s =
        .next ((((copied.1.freeThread n).robEnd r c.pkt (.toQueue d :: copied.2)).verOut p.dom p.slot).issued n c
          (encEmit q m qr))) ∧
    (Issues t (encEmit q m qr) c s → stampsFit p c = false →
      exec (.emit t q m qr) s = raised (encEmit q m qr) excWindow) ∧
    (Issues t encRecirc c s → p.pass ≠ 3 → 256 ≤ (s.race r).leat.length →
      exec (.recirc t) s =
        .next (((((s.freeThread n).bump (aTskCnt r 3) 1).dropPkt c.pkt).issued n c encRecirc).boundary n c.task)) ∧
    (Issues t (encTrap ring code) c s →
      exec (.trap t ring code) s =
        .next ((((s.freeThread n).robEnd r c.pkt
          [.toRing (s.trapItem c.pkt ring.toNat code.toNat 1 f c.md)]).verOut p.dom p.slot).issued n c (encTrap ring code))) ∧
    (Issues t encRecirc c s → p.pass ≠ 3 → (s.race r).leat.length < 256 →
      ∃ u, exec (.recirc t) s = .next u ∧ (u.thr n).ctx = none ∧ (u.race r).leat = (s.race r).leat ++ [c.pkt] ∧
        (u.pkt c.pkt).frame = f ∧ (u.pkt c.pkt).pass = p.pass + 1 ∧ (u.pkt c.pkt).dom = p.dom ∧
        (u.pkt c.pkt).slot = p.slot ∧ (∀ i, i < 16 → getByte (u.pkt c.pkt).carry i = getByte c.md (48 + i)) ∧ u.mems = s.mems))

/-- The reorder unit (R163): of the slots of a race, in arrival order, exactly those leave whose packet has ended and before
which no slot of the same port is held; the others stay, in order. -/
def Obligations.PacketsLeaveInPortOrder : Prop :=
  ∀ l : List RobSlot,
    (robDrain l []).1 = (l.zipIdx.filter fun (x, i) =>
      x.out.isNone || (l.take i).any (fun y => y.out.isNone && y.port == x.port)).map Prod.fst ∧
    (robDrain l []).2 = (l.zipIdx.filter fun (x, i) =>
      x.out.isSome && !(l.take i).any (fun y => y.out.isNone && y.port == x.port)).flatMap fun (x, _) => x.out.getD []

/-! ### Threads, units and tables -/

/-- Interrupts of a thread that is not halted (R107 to R109): at a safe point ECC comes before ABORT before WATCHDOG, each
ending it by its exception; a halt request halts it. A service routine is ended by ECC, ABORT and DRAIN.
The end of a task by an exception (R80, R82): the thread is free, its other completions are discarded, the counter of
the exception counts the packet, and TRAP_EN selects between a trap and a drop. -/
def Obligations.InterruptsAndExceptionsEndTasks : Prop :=
  (∀ (t : ThreadId) (e : Bool) (c : Ctx) (s : State),
      let n := thrNum t
      let x := s.thr n
      s.runs = true → x.mstep = false → x.atSafe = true → x.halted = none → x.ctx = some c →
      (e || x.ints.ecc → exec (.interruptTaken t e) s =
        .next ((s.exception n excEcc).safety (srcCluster t.race.val t.cluster.val) 0x0220 n 5)) ∧
      (x.ints.ecc = false → x.ints.abort = true → exec (.interruptTaken t false) s = .next (s.exception n excAbort)) ∧
      (x.ints.ecc = false → x.ints.abort = false → x.ints.watchdog = true →
        exec (.interruptTaken t false) s = .next (s.exception n excWatchdog)) ∧
      (x.ints = { halt := true } →
        ∃ u, exec (.interruptTaken t false) s = .next u ∧ (u.thr n).halted = some .request ∧ (u.thr n).ctx = some c ∧
          (u.thr n).ints = {} ∧ u.pkts = s.pkts ∧ u.mems = s.mems)) ∧
  (∀ (t : ThreadId) (e : Bool) (k : Token) (s : State),
      let n := thrNum t
      let x := s.thr n
      s.runs = true → x.mstep = false → x.atSafe = true → x.halted = none → x.ctx = none → x.svc = some k → s.badService n = none →
      (e || x.ints.ecc → exec (.interruptTaken t e) s =
        .next ((s.endService n).safety (srcCluster t.race.val t.cluster.val) 0x0220 n 5)) ∧
      (x.ints.ecc = false → x.ints.abort = true ∨ (x.ints.halt = false ∧ x.ints.drain = true) →
        exec (.interruptTaken t false) s = .next (s.endService n))) ∧
  (∀ (n code : Nat) (c : Ctx) (s : State), (s.thr n).ctx = some c →
      let u := s.exception n code
      let p := s.pkt c.pkt
      (u.thr n).ctx = none ∧ (∀ k ∈ u.comps, k.thread ≠ n) ∧
        u = (if bitOf (s.regN (aRaceExcCfg p.race)) code && p.hasFrame then
              ((s.freeThread n).bump (aRaceExcCnt p.race code) 1).trapNow c.pkt
                (((s.freeThread n).bump (aRaceExcCnt p.race code) 1).fld (aRaceExcCfg p.race) 20 6) code 3
            else ((s.freeThread n).bump (aRaceExcCnt p.race code) 1).dropPkt c.pkt) ∧ u.mems = s.mems)

/-- A gate whose condition holds lets its thread rejoin the tail of its ready list (R104, R147), unless it is halted; a
completion that is next of its sender's (R15) writes rd, the result code and `dc` as one step (R66), and an ECC error in its
data raises the interrupt. One of a task that has ended is discarded (R82). -/
def Obligations.GatesOpenAndCompletionsArrive : Prop :=
  ∀ (t : ThreadId) (tag : GReg) (g : Gate) (k : Completion) (e : Bool) (c : Ctx) (s : State), s.runs = true →
    let n := thrNum t
    let x := s.thr n
    x.ctx = some c →
    (x.gate = some g → gateHolds s c g = true →
      (x.halted = none → exec (.gateConditionTrue t) s = .next ((s.setThr n { x with gate := none }).join n c.prio)) ∧
      (x.halted ≠ none → exec (.gateConditionTrue t) s = .next (s.setThr n { x with gate := none }))) ∧
    (s.comps.find? (fun k => decide (k.thread = n ∧ k.tag = tag.val)) = some k → s.arrivesNext k = true → k.task ≠ c.task →
      exec (.asyncComplete t tag e) s = .next { s with comps := s.comps.erase k }) ∧
    (s.comps.find? (fun k => decide (k.thread = n ∧ k.tag = tag.val)) = some k → s.arrivesNext k = true → k.task = c.task →
      (e || k.ecc → exec (.asyncComplete t tag e) s =
        .next ({ s with comps := s.comps.erase k }.setThr n { x with ints := { x.ints with ecc := true } })) ∧
      (k.ecc = false →
        let a := s.wrongAnswer c k
        ∃ u, exec (.asyncComplete t tag false) s = .next u ∧ u.comps = s.comps.erase k ∧
          (u.thr n).ctx = some (k.fv.foldl (fun c e => { c with fv := mset zero64 c.fv e.1 e.2 })
            { (c.setGr (Fin.ofNat 16 k.rd) a.1).setRc k.tag a.2.1 with dc := c.dc - 1 }) ∧
          (∀ m, m ≠ n → u.thr m = s.thr m) ∧ u.pkts = s.pkts ∧ u.mems = s.mems) ∧
      (k.ecc = false → c.wrong = false → NoWatch t s →
        ∃ u, exec (.asyncComplete t tag false) s = .next u ∧ u.comps = s.comps.erase k ∧
          (u.thr n).ctx = some (k.fv.foldl (fun c e => { c with fv := mset zero64 c.fv e.1 e.2 })
            { (c.setGr (Fin.ofNat 16 k.rd) k.res).setRc k.tag k.code with dc := c.dc - 1 }) ∧
          u = { s with comps := u.comps, threads := u.threads } ∧ ∀ m, m ≠ n → u.thr m = s.thr m) ∧
      ∃ u, exec (.asyncComplete t tag true) s = .next u ∧ u.comps = s.comps.erase k ∧ (u.thr n).ctx = some c ∧
        (u.thr n).ints.ecc = true)

/-- A home slice takes its operations in order (R225): the first that no waiting one stands before leaves the queue and is
applied; a held operation is sent when the miss queue has room (R236), one whose thread has ended never was; a waiting
change is applied when the journal has room (R247).
Lookups, meters and hashes: the front operation of each unit is taken and answered (R195, R197, R271, R291, R382, R384,
R74); a learn request that a lookup makes joins the learn queue, or is counted with FULL. -/
def Obligations.UnitsApplyTheirOperations : Prop :=
  (∀ (slice : SliceId) (o : FlowOp) (l : List FlowOp) (s : State), s.tablesRun = true →
      let sl := slice.val
      let x := s.slice sl
      (s.nextOp sl = some o → s.mergeInto o (takeOut o x.queue) = none →
        exec (.flowOpApply slice) s = .next ((s.setSlice sl { x with queue := takeOut o x.queue }).applyAt sl o false)) ∧
      (s.nextOp sl = some o → s.mergeInto o (takeOut o x.queue) = some l →
        exec (.flowOpApply slice) s = .next ((s.setSlice sl { x with queue := l }).bump (aMstCnt sl 6) 1)) ∧
      (x.held = o :: l → s.missFull sl = false →
        let u := s.setSlice sl { x with held := l }
        (u.alive o.src = true → exec (.missQueueRoom slice) s = .next (u.releaseHeld sl o)) ∧
        (u.alive o.src = false → exec (.missQueueRoom slice) s = .next u) ∧
        ((∃ c, o.src = .host c) →
          ∃ v, exec (.missQueueRoom slice) s = .next v ∧ (v.slice sl).held = l ∧ (v.slice sl).queue = x.queue ++ [o] ∧
            v = { s with mst := v.mst })) ∧
      (x.jwait = o :: l →
        let u := s.setSlice sl { x with jwait := l }
        (u.stands o = true → exec (.journalRoom slice) s = .next (u.applyAt sl o true)) ∧
        (u.stands o = false → exec (.journalRoom slice) s = .next u))) ∧
  (∀ (race : RaceId) (cluster : ClusterId) (e : EmOp) (el : List EmOp) (p : LpmOp) (pl : List LpmOp) (m : MeterOp)
      (ml : List MeterOp) (h : HashOp) (hl : List HashOp) (s : State), s.runs = true →
      let r := race.val
      let ones : Word64 := 0xFFFFFFFFFFFFFFFF
      let k := r * 12 + cluster.val
      ((s.race r).emq = e :: el →
        let looked := (s.setRace r { s.race r with emq := el }).emLookup r e.part e.type e.key
        let res := match looked.1 with | some x => BitVec.ofNat 64 x.data | none => ones
        let code := if looked.1.isSome then rcHit else rcMiss
        let u := looked.2
        let full := 256 ≤ (u.race r).learnq.length ∨ (looked.1.isNone = true ∧ u.emQuota e.part ≤ u.emHeld r e.part)
        (e.learn = none ∨ asksLearn e looked.1 = false →
          exec (.emLookupApply race) s = .next (u.complete 0 e.src res code [] false)) ∧
        (∀ data, e.learn = some data → asksLearn e looked.1 = true →
          (full → exec (.emLookupApply race) s = .next ((u.bump (aEmtCnt r 5) 1).complete 0 e.src res rcFull [] false)) ∧
          (¬ full → exec (.emLookupApply race) s = .next ((u.setRace r { u.race r with learnq := (u.race r).learnq ++
            [{ key := e.key, type := e.type, data := data, part := e.part, dom := e.dom, port := e.port,
               ekey := e.seen }] }).complete 0 e.src res code [] false)))) ∧
      ((s.race r).lpmq = p :: pl →
        let t := s.setRace r { s.race r with lpmq := pl }
        (p.table < 4096 → s.ownsLpm p.part p.table = true →
          exec (.lpmLookupApply race) s = .next
            (match lpmBest p.v6 p.table p.addr s.cls.lpm with
             | some x => if x.bad then t.complete 0 p.src ones rcMiss [] false
                         else t.complete 0 p.src (BitVec.ofNat 64 (x.data.toNat + x.len * 2 ^ 32)) rcHit [] false
             | none => t.complete 0 p.src ones rcMiss [] false)) ∧
        (4096 ≤ p.table ∨ s.ownsLpm p.part p.table = false →
          exec (.lpmLookupApply race) s = .next ((t.bump (aClsCnt r 6) 1).complete 0 p.src ones rcMiss [] false))) ∧
      (s.weirq = m :: ml → s.owns m.part .mtr m.meter = false ∨ s.ownsProf m.part .mpr (s.meterAt m.meter).prof = false →
        exec .meterApply s = .next (({ s with weirq := ml }.bump (aQshWeirCnt m.part 3) 1).complete srcWeir m.src
          ones rcDenied [] false)) ∧
      (s.weirq = m :: ml → s.owns m.part .mtr m.meter = true → s.ownsProf m.part .mpr (s.meterAt m.meter).prof = true →
        let t := { s with weirq := ml }
        let (colour, after) := meterRun (s.mprof (s.meterAt m.meter).prof) (s.meterAt m.meter) (m.bytes % 65536)
          (if m.aware then m.colour else 0) (s.islGtc 88)
        exec .meterApply s = .next (((t.setMeter m.meter after).bump (aQshWeirCnt m.part colour) 1).complete srcWeir m.src
          (BitVec.ofNat 64 colour) rcOk [] false)) ∧
      ((s.clu k).hashq = h :: hl →
        exec (.hashApply race cluster) s =
          .next ((s.setClu k { s.clu k with hashq := hl }).complete 0 h.src (s.hashResult h) 1 [] false)))

/-- Longest prefix match (R195): the answer is a stored prefix of the table that matches, no stored one that matches is
longer, and there is an answer when one matches. -/
def Obligations.TheLongestPrefixWins : Prop :=
  ∀ (v6 : Bool) (table : Nat) (addr : BitVec 128) (l : List Prefix),
    (∀ x, lpmBest v6 table addr l = some x → x ∈ l ∧ x.matches v6 table addr = true ∧
      ∀ y ∈ l, y.matches v6 table addr = true → y.len ≤ x.len) ∧
    (lpmBest v6 table addr l = none → ∀ y ∈ l, y.matches v6 table addr = false)

/-! ### The front end and the Hopper -/

/-- The Hopper (R327 to R334, R336, R339): the request of lowest key, whoever sent it, is granted a cell, which joins its packet
and is charged to its owner, or refused and counted; a decrement counts its head cell down; a refused frame that the parser
has not admitted is dropped, an admitted one marked bad.
The lowest request (R331): it stands in the list and none has a lower key; of equal keys it is the first. -/
def Obligations.TheHopperServesItsRequests : Prop :=
  (∀ (q : CellReq) (k i c g n len src res j : Nat) (w : CmdRef) (s1 : State) (l : List Nat) (rl : List (Nat × Nat)) (s : State),
      let t := { s with hop := { s.hop with reqs := s.hop.reqs.erase q } }
      let p := s.pkt k
      let ask := t.grant q.owner (some p.race) (s.domOwner p.dom) false (decide (p.cells = []))
      (s.runs = true → lowestReq s.hop.reqs = some q →
        (q.who = .frame k →
          (ask = .inl (c, s1) →
            let p1 := p.addCell c (s1.cell c).gen
            let u := (s1.linkCell p c).setPkt k p1
            exec .cellRequest s =
              .next (if p1.ended = true ∧ p1.want = 0 ∧ p1.kind = .frame then u.countRx p1 else u)) ∧
          (ask = .inr i → ∃ u, exec .cellRequest s = .next u ∧ u.hop.nocell = s.hop.nocell ++ [k] ∧
            u.hop.reqs = (s.hop.reqs.erase q).filter (fun e => !decide (e.who = .frame k)) ∧
            OnlyCounters { s with hop := u.hop } u)) ∧
        (q.who = .alloc w n len src res → exec .cellRequest s = .next (t.allocDecide w n len src res)) ∧
        (q.who = .hostTx n j → exec .cellRequest s = .next (t.txTake n j true)) ∧
        (q.who = .keepalive n j → exec .cellRequest s = .next (t.keepaliveDecide n j))) ∧
      (s.runs = true → s.hop.rel = (c, g) :: rl →
        (exec .refRelease s = .next ({ s with hop := { s.hop with rel := rl } }.decRef c g)) ∧
        (1 < (s.cell c).ref → (s.cell c).gen = g →
          exec .refRelease s = .next ({ s with hop := { s.hop with rel := rl } }.setCell c
            { s.cell c with ref := (s.cell c).ref - 1 }))) ∧
      (s.hop.nocell = k :: l → s.admitted k = true →
        ∃ u, exec .noCellDrop s = .next u ∧ (u.pkt k).bad = true ∧ (u.pkt k).ended = true ∧ (u.pkt k).want = 0 ∧
          (u.pkt k).arrived = p.frame.length ∧ u.hop.nocell = l ∧ (∀ j, j ≠ k → u.pkt j = s.pkt j) ∧ u.mems = s.mems) ∧
      (s.hop.nocell = k :: l → s.admitted k = false →
        ∃ u, exec .noCellDrop s = .next u ∧ u.pkt k = {} ∧ k ∉ u.hop.nocell ∧ k ∉ (u.race p.race).sluice ∧ u.mems = s.mems)) ∧
  (∀ (l : List CellReq) (q : CellReq), lowestReq l = some q →
      ∃ a b, l = a ++ q :: b ∧ (∀ x ∈ a, q.key < x.key) ∧ ∀ x ∈ b, q.key ≤ x.key)

/-- Passes enter and are dealt (R141, R143, R144, R159, R160): the parser admits the first frame of its Sluice into a reorder
slot, or the first Leat pass; a held pass enters the new-task queue; the front task goes to the next live position's
thread, a due task to a thread of its cluster.
A started task (R44, R142, R147) holds its thread with a task number of its own, and stands at the tail of the ready list
of its priority; no other thread changes. One whose entry lies outside its image's code raises IMAGE (R62).
Which free thread takes a due task is the model's choice (log 100). -/
def Obligations.PassesAreAdmittedAndDealt : Prop :=
  (∀ (race : RaceId) (cluster : ClusterId) (k p n : Nat) (kl : List Nat) (x : Task) (xl : List Task) (d : Delayed) (s : State),
      s.runs = true →
      let r := race.val
      let z := s.race r
      (z.sluice = k :: kl → z.paused = false → z.held = [] → z.leat = [] → z.bareWaits s.clk.gtc = false → (s.pkt k).cells ≠ [] → s.walkWaits k = false →
        exec (.parserAdmit race) s = .next (((((s.setRace r { z with sluice := kl, robMax := max z.robMax (z.rob.length + 1)
                                                                     rob := z.rob ++ [{ port := (s.pkt k).port, pkt := k, at_ := s.clk.gtc }] }).setPkt k
          { s.pkt k with rob := true, admitted := s.clk.gtc }).occur (64 + r) 0x010 1).pauses r).admitPass k)) ∧
      (z.leat = k :: kl → z.ntq.length < 1024 → z.held = [] → s.walkWaits k = false →
        exec (.leatAdmit race) s = .next ((((s.setRace r { z with leat := kl }).occur (64 + r) 0x011 1).pauses r).admitPass k)) ∧
      (z.held = x :: xl → z.ntq.length < 1024 →
        exec (.heldPassEnqueue race) s = .next ((s.setRace r { z with held := xl, ntq := z.ntq ++ [x] }).pauses r)) ∧
      (z.ntq = x :: xl → s.nextPos r = some (p, n) →
        exec (.taskDeal race) s = .next ((((s.setRace r { z with ntq := xl, rr := (p + 1) % 192 }).begin_ n
          { x.ctx with start := s.clk.gtc }).occur (64 + r) 0x012 1).pauses r)) ∧
      (bestDue (r * 12 + cluster.val) z.due = some d → s.pickThread (r * 12 + cluster.val) = some n →
        (s.clu (r * 12 + cluster.val)).drain = false → s.cluOff (r * 12 + cluster.val) = false →
        exec (.dueTaskTake race cluster) s = .next ((s.setRace r { z with due := z.due.erase d }).startOn n (s.resumed d.ctx)))) ∧
  (∀ (n : Nat) (c : Ctx) (s : State),
      let u := s.startOn n c
      (c.pc.toNat < u.codeLen (raceOf n) c → s.begin_ n c = u) ∧
      (u.codeLen (raceOf n) c ≤ c.pc.toNat → s.begin_ n c = u.exception n excImage) ∧
      (u.thr n).ctx = some { c with task := s.nextTask } ∧ u.nextTask = s.nextTask + 1 ∧
        (∀ m, m ≠ n → u.thr m = s.thr m) ∧
        (∃ l, mget noThreads (u.clu (cluOf n)).ready c.prio = l ++ [n] ∧ n ∉ l) ∧ u.pkts = s.pkts ∧ u.mems = s.mems)

/-- Delay lists, keepalives and expiries (R149 to R157, R241), and the two timeouts of a race (R164, R167).
What falls due first notes its version and PTP time (R157); due delayed programs then leave their list, due tasks without a
packet enter in order while there is room, a keepalive's as the Hopper grants its cell.
Metadata that no rule gives to a task without a frame, and what a changed UNIT does, are the model's choice (log 101). -/
def Obligations.DelaysTimersAndTimeouts : Prop :=
  ∀ (race : RaceId) (unit : Fin 4) (timer : Fin 4096) (t : ThreadId) (c : Ctx) (d : Delayed) (e : RobSlot)
    (task slot ps pn n img pc prio cell : Nat) (l : List Leaving) (x : Thread) (s1 s : State), s.runs = true →
    let r := race.val
    let j := timer.val
    let z := s.race r
    let v := s.stampFirings r
    (let u := ((v.race r).dueProgs unit.val s.clk.gtc).foldl (fun s d => s.leaveList r d) v
     exec (.delayTick race unit) s = .next (u.enterInOrder r (u.dueBare r unit.val))) ∧
    ((s.thr (thrNum t)).ctx = some c → (s.thr (thrNum t)).gate = some .entry → (s.thr (thrNum t)).halted = none →
      s.delayRoom t.race.val = true →
      let w := s.fetch t.race.val c
      exec (.delayEntryObtained t) s = .next ((s.placeDelay (thrNum t) (bitsOf w 24 2)
        (if bitOf w 23 then (c.gr (Fin.ofNat 16 (bitsOf w 16 4))).toNat % 65536 else bitsOf w 0 16)
          (Ctx.next c)).slotsSpent (thrNum t) c (BitVec.ofNat 32 w))) ∧
    ((v.race r).dly.find? (fun d => decide (d.kind = .timer j)) = some d → (v.dueBare r d.list).head? = some d →
      exec (.keepaliveFire race timer) s = .next (v.enterBare r d)) ∧
    (s.bareRoom r d = true → d.kind = .timer j → d.fired = some (slot, ps, pn) → slot ≠ noSlot →
      s.firing r j d = some (slot, ps, pn, img, pc, prio) →
      s.enterBare r d = s.askHopper (64 + r) (32 * r + 3) (4096 + s.domOwner d.firedDom) (.keepalive r j)) ∧
    (let w1 := s.com (aTskKa r j + 4)
     z.dly.find? (fun d => decide (d.kind = .timer j)) = some d → s.firing r j d = some (slot, ps, pn, img, pc, prio) →
      s.grant (4096 + s.domOwner d.firedDom) (some r) (s.domOwner d.firedDom) false true = .inl (cell, s1) →
      let u := s.keepaliveDecide r j
      (u.race r).ntq = z.ntq ++ [bareTask s.nextPkt img pc prio d.firedDom slot (bitsOf w1 16 12)
        (mset zero64 [] 0 (BitVec.ofNat 64 (j + bitsOf w1 0 16 * 2 ^ 32)))] ∧
      (u.pkt s.nextPkt).kind = .keepalive j ∧ (u.pkt s.nextPkt).cells = [cell] ∧ (u.pkt s.nextPkt).slot = slot ∧
      (u.pkt s.nextPkt).stamp = d.due ∧ (u.pkt s.nextPkt).ptpS = ps ∧ (u.pkt s.nextPkt).ptpNs = pn ∧ u.mems = s.mems) ∧
    ((v.dueBare r unit.val).head? = some d →
      (exec (.dueTaskEnqueue race unit) s = .next (v.enterBare r d)) ∧
      (d.kind = .expiry → v.bareRoom r d = true →
        let p := v.pkt d.ctx.pkt
        v.curSlot p.dom = some slot → v.classEntry r p.dom slot (v.fld (aMstExp p.dom) 16 12) = some (img, pc, prio) →
        ∃ u, exec (.dueTaskEnqueue race unit) s = .next u ∧
          (u.race r).ntq = (v.race r).ntq ++ [bareTask d.ctx.pkt img pc prio p.dom slot (v.fld (aMstExp p.dom) 16 12) d.ctx.fv] ∧
          (u.race r).dly = (v.race r).dly.erase d ∧ u.pkt d.ctx.pkt = { p with slot := slot } ∧ u.mems = v.mems)) ∧
    (z.rob.find? (fun e => decide (e.at_ + s.fld (aRaceReorderTmo r) 0 16 * 4 ≤ s.clk.gtc)) = some e →
      let late := (s.setPkt e.pkt { s.pkt e.pkt with late := true }).bump (aRaceLateCnt r) 1
      (e.out = none → exec (.reorderTimeout race) s = .next (late.robDrop r e.pkt)) ∧
      (e.out = some l → exec (.reorderTimeout race) s = .next ((late.leaveAll r l).robDrop r e.pkt))) ∧
    (let isOver (c : Ctx) : Bool := decide (c.task = task ∧ c.start + budget ≤ s.clk.gtc)
     let running := s.threads.find? (fun e => decide (raceOf e.1 = r) && e.2.halted.isNone && (match e.2.ctx with
        | some c => isOver c | none => false))
     (running = some (n, x) →
       exec (.budgetWatchdog race task) s = .next (s.setThr n { x with ints := { x.ints with watchdog := true } })) ∧
     (running = none →
       (z.dly ++ z.due).find? (fun d => decide (d.kind = .prog) && isOver d.ctx && (s.pkt d.ctx.pkt).hasFrame) = some d →
       exec (.budgetWatchdog race task) s =
         .next ((s.setRace r { z with dly := z.dly.erase d, due := z.due.erase d }).excEnd d.ctx.pkt excWatchdog)))

/-! ### Ports, queues and gates -/

/-- Frames in reception (R161, R199, R332, R411, R416): an unended frame of the same kind has failed; the start of a frame makes a
packet that asks for cells, and its end runs the four checks after the FEC decoder's codewords.
The start: at a port that passes frames and whose domain has a current version, the Sluice takes it as a packet of its own,
stamped with that version and awaiting bytes and cells; bytes that arrive are counted up to its length. A frame that has no
current version is dropped and counted.
A whole frame with a wrong FCS (R411): counted in PORT_CNT[2], and no packet of it stays in the Sluice.
How many codewords the decoder counts is free (log 107). -/
def Obligations.FramesEnterTheSluiceOrAreDropped : Prop :=
  (∀ (port : PortId) (bytes : List Byte) (fcsOk e : Bool) (k q : Nat) (f : RxFrame) (s : State),
      let n := port.val
      let x := s.portS n
      let cur := if e then x.rxP else x.rxE
      let put (s : State) (f : Option RxFrame) : State :=
        s.setPortS n (if e then { s.portS n with rxP := f } else { s.portS n with rxE := f })
      let start := (s.rxLost n e cur).rxBegin n bytes
      (s.passing n = true →
        (exec (.frameReceive port .whole bytes fcsOk e) s =
          .next (((put start.2 none).codewords n).rxEnd n start.1 fcsOk)) ∧
        (exec (.frameReceive port .begin bytes fcsOk e) s =
          .next (match start.1.pkt with
            | some k => (put start.2 (some start.1)).askCells n k
            | none => put start.2 (some start.1)))) ∧
      (s.passing n = true ∨ x.link = true → cur = some f →
        exec (.frameReceive port .finish bytes fcsOk e) s = .next (((put s none).codewords n).rxEnd n f fcsOk)) ∧
      ((if x.rxE.isSome then x.rxE else x.rxP) = some f → f.pkt = some q → s.rxLive q = true → (s.pkt q).ended = false →
        exec (.headerBytesArrive port k) s = .next ((s.setPkt q
          { s.pkt q with arrived := min ((s.pkt q).arrived + k) (s.pkt q).frame.length }).askCells n q))) ∧
  (∀ (port : PortId) (bytes : List Byte) (fcsOk : Bool) (v : Nat) (s : State),
      let n := port.val
      let r := n / 32
      let dom := s.com (aClsPortDom n) % 16
      s.passing n = true → (s.portS n).rxE = none → 20 ≤ bytes.length → be16 bytes 12 ≠ 0x8808 →
        s.blockOff 0 r = false → s.blkOn 4 0 = false → 1 ≤ s.maxFrm n →
        (bitOf (s.com (aClsPortDom n)) 4 = true → s.curSlot dom = some v →
          ∃ u, exec (.frameReceive port .begin bytes fcsOk false) s = .next u ∧
            (u.race r).sluice = (s.race r).sluice ++ [s.nextPkt] ∧ u.nextPkt = s.nextPkt + 1 ∧
            (u.pkt s.nextPkt).frame = bytes ∧ (u.pkt s.nextPkt).arrived = 0 ∧ (u.pkt s.nextPkt).dom = dom ∧
            (u.pkt s.nextPkt).slot = v ∧ (u.pkt s.nextPkt).port = n ∧
            (s.nextPkt ∉ s.hop.nocell → (u.pkt s.nextPkt).want = 1) ∧
            (u.portS n).rxE = some { bytes := bytes, pkt := some s.nextPkt } ∧
            (∀ j, j ≠ s.nextPkt → u.pkt j = s.pkt j) ∧ u.mems = s.mems) ∧
        (bitOf (s.com (aClsPortDom n)) 4 = false →
          ∃ u, exec (.frameReceive port .begin bytes fcsOk false) s = .next u ∧ u.pkts = s.pkts ∧ u.races = s.races ∧
            (u.portS n).rxE = some { bytes := bytes, pkt := none } ∧ u.mems = s.mems)) ∧
  (∀ (port : PortId) (bytes : List Byte) (s : State),
      let n := port.val
      let start := s.rxBegin n bytes
      s.passing n = true → (s.portS n).rxE = none → 20 ≤ bytes.length → bytes.length + 4 ≤ s.maxFrm n →
      ∃ u, exec (.frameReceive port .whole bytes false false) s = .next u ∧
        u = (((start.2.setPortS n { start.2.portS n with rxE := none }).codewords n).bump (aPortCnt n 2) 1).rxFail start.1 ∧
        (∀ j ∈ (u.race (n / 32)).sluice, j ∈ (s.race (n / 32)).sluice) ∧ u.mems = s.mems)

/-- Copies reach their queues (R335, R343, R345, R351, R362 to R364): a descriptor that has left the reorder unit joins the tail
of its queue, whose depth rises by its length; one for a multicast group is replicated, one without a group counted; a head
that waits for DRAM is written to pages once it is whole, and leaves its queue where it is bad, another's, or finds no
pages. -/
def Obligations.CopiesReachTheirQueues : Prop :=
  ∀ (race : RaceId) (d : Desc) (l : List Desc) (queue g : Nat) (ps : List (Nat × Nat × Nat)) (ok : Bool) (s1 s : State),
    s.runs = true →
    let x := s.race race.val
    let moved := s.setRace race.val { x with switch := l }
    let tail := if validQueue d.queue then s.queuePort d.queue / 32 else d.tail
    (x.switch = d :: l → d.mirror = false → isMcast d.queue = false →
      s.blockOff 2 tail = false ∨ (2, tail) ∈ s.top.isolated →
      (exec (.tailraceEnqueue race) s = .next (moved.enqueue d d.queue)) ∧
      (validQueue d.queue = true → moved.enqueueFails d d.queue = none →
        ∃ u, exec (.tailraceEnqueue race) s = .next u ∧
          (∃ e, (u.queue d.queue).fifo = (s.queue d.queue).fifo ++ [e] ∧ e.pkt = d.pkt ∧ e.frame = d.frame ∧
            e.queue = d.queue) ∧ (u.queue d.queue).depth = (s.queue d.queue).depth + d.len ∧
          (u.race race.val).switch = l ∧ u.pkts = s.pkts ∧ u.mems = s.mems)) ∧
    (x.switch = d :: l → d.mirror = true ∨ isMcast d.queue = true →
      (∀ j, j < race.val → ∀ e m, (s.race j).switch = e :: m → e.mirror = false ∧ isMcast e.queue = false) →
      (d.group = some g → exec .multicastReplicate s = .next (moved.replicate d g)) ∧
      (d.group = none → exec .multicastReplicate s = .next ((moved.bump (aQshCnt d.tail 0) 1).letGo d))) ∧
    (let p := s.pkt d.pkt
     let n := s.queuePort queue
     let host := d.hostBufs ≠ []
     (s.queue queue).fifo.find? (fun d => d.toDram && decide (d.pages = [])) = some d → s.blockOff 2 (n / 32) = false →
      (¬ host → p.bad = true → exec (.spillWrite queue) s = .next ((s.unqueue queue d).dropCopy d n)) ∧
      (host ∨ (p.bad = false ∧ p.ended = true ∧ p.want = 0) →
        (s.allReadsOk d = false →
          exec (.spillWrite queue) s = .next (((s.unqueue queue d).ownFault n d).dropCopy d n)) ∧
        (s.allReadsOk d = true →
          let e := (s.hostFrame d).1
          (s.hostFrame d).2.spillPieces queue (if d.hostBufs = [] then p.owner else 4096 + d.part) d.part 12 (stored e.frame) [] =
            (ps, ok, s1) →
          (ok = true → exec (.spillWrite queue) s = .next (((s1.setQueue queue { s1.queue queue with
            fifo := (s1.queue queue).fifo.map (fun f => if f = d then
              { e with pages := ps.map (·.1), spans := ps.map (·.2), hostBufs := [] } else f) }).letGo d).hostRead_ d)) ∧
          (ok = false → exec (.spillWrite queue) s =
            .next ((((ps.foldl (fun s k => s.pieceRead queue k.1) s1).unqueue queue d).bump (aHopCnt 4) 1).dropCopy d n)))))

/-- A port transmits (R365, R368, R377, R411, R414): an idle line sends the pause frames that are due, then takes the frame its
scheduler has selected, if it may still go, or makes a selection; a preemptable frame is cut where an express frame or a
pause is due; a port whose Tailrace does not run lets its frame end.
A frame that is over leaves the line, is counted with its bytes, and releases its copy's reference; one with a bad packet, a
wrong CRC or a cell of another owner has an inverted FCS. -/
def Obligations.PortsSendTheirFrames : Prop :=
  ∀ (port : PortId) (q : Nat) (t : Tx) (s : State),
    let n := port.val
    let z := (s.settleCbs n).tierKeeps n
    let due := if z.passing n then z.pausesDue n else []
    (s.tailRuns n = false → exec (.portSelect port) s = .next (s.finish n)) ∧
    (s.tailRuns n = true → (z.portS n).tx = some t →
      let cut := (z.portS n).preempts = true ∧ t.express = false ∧ (due ≠ [] ∨ (z.pickPort n true).isSome = true)
      (cut → exec (.portSelect port) s = .next (z.preempt n t)) ∧ (¬ cut → exec (.portSelect port) s = .next z)) ∧
    (s.tailRuns n = true → (z.portS n).tx = none → (z.portS n).busy ≤ z.clk.gtc →
      (due ≠ [] → exec (.portSelect port) s = .next (z.sendPause n due)) ∧
      (due = [] → (z.portS n).sel = none → exec (.portSelect port) s = .next (z.choose n)) ∧
      (due = [] → (z.portS n).sel = some q →
        (z.selGoes n q = true → exec (.portSelect port) s = .next (z.trySend n q)) ∧
        (z.selGoes n q = false →
          exec (.portSelect port) s = .next ((z.setPortS n { z.portS n with sel := none }).choose n)))) ∧
    ((s.portS n).tx = some t → t.piece = none → t.until_ ≤ s.clk.gtc → s.whole t.d = true →
      let d := t.d
      let own := s.allReadsOk d
      let bad := t.crcBad || !own || (d.pages = [] && d.hostBufs = [] && (s.pkt d.pkt).bad)
      let v := (s.settleCbs n).setPortS n { s.portS n with tx := none }
      let v := (v.bump (aPortCnt n 8) 1).bump (aPortCnt n 9) t.len
      let v := if bad then v.bump (aPortCnt n 11) 1 else v
      let v := if t.sent = 0 then v else v.bump (aPortCnt n 14) 1
      let v := if own then v else v.ownFault n d
      let v := if v.lateEnd t then v.gateEvent n d.queue else v
      let v := v.sendOut { port := n, frame := t.frame, ok := !bad }
      let v := match d.twoStep with
        | some id => v.tsqPost d.part { id := id, port := n, secs := t.stampS, ns := t.stampNs }
        | none => v
      exec (.frameTxDone port) s = .next ((v.letGo d).hostRead_ d)) ∧
    ((s.portS n).tx = some t → t.piece = none → t.until_ ≤ s.clk.gtc → s.whole t.d = true → s.allReadsOk t.d = true →
      t.crcBad = false → (s.pkt t.d.pkt).bad = false → t.sent = 0 → t.d.twoStep = none → s.lateEnd t = false →
      t.d.hostBufs = [] →
      ∃ u, exec (.frameTxDone port) s = .next u ∧ (u.portS n).tx = none ∧
        u.eg.sent = s.eg.sent ++ [{ port := n, frame := t.frame, ok := true }] ∧ u.pkts = s.pkts ∧ u.mems = s.mems)

/-- Gates (R374, R377, R378): an entry whose time has come is entered, and a pending list takes over at its change time.
Priority flow control (R414, R415): a received frame sets the pause ends of the classes it names and the port accepts,
rounded up to a GTC count; a pause that is over ends; a pause the port keeps up is asked for again with QUANTA. -/
def Obligations.GatesAndPausesFollowTheirTimes : Prop :=
  (∀ (port : PortId) (l : GateList) (s : State), s.runs = true →
      let n := port.val
      let x := s.portS n
      (x.op.en = true → x.started = true → x.ent + 1 < x.op.ents.length →
        x.runAt + x.cyc * x.op.cycle + x.op.offset (x.ent + 1) ≤ s.ptpNs →
        exec (.gateEntryAdvance port) s = .next (s.enterGate n x.cyc (x.ent + 1))) ∧
      (x.op.en = true → x.started = false → x.runAt + 0 * x.op.cycle + x.op.offset 0 ≤ s.ptpNs →
        exec (.gateEntryAdvance port) s = .next (s.enterGate n 0 0)) ∧
      (x.op.en = true → x.started = true → x.op.ents.length ≤ x.ent + 1 →
        x.runAt + (x.cyc + 1) * x.op.cycle + x.op.offset 0 ≤ s.ptpNs →
        exec (.gateEntryAdvance port) s = .next (s.enterGate n (x.cyc + 1) 0)) ∧
      (x.pend = some l → x.chg ≤ s.ptpNs → l.en = false →
        ∃ u, exec (.gateListSwitch port) s = .next u ∧ (u.portS n).op = l ∧ (u.portS n).pend = none ∧
          (u.portS n).gates = 255 ∧ (u.portS n).hold = false ∧ u.pkts = s.pkts ∧ u.mems = s.mems) ∧
      (x.pend = some l → x.chg ≤ s.ptpNs → l.en = true →
        ∃ u, exec (.gateListSwitch port) s = .next u ∧ (u.portS n).op = l ∧ (u.portS n).pend = none ∧
          (u.portS n).gates = l.gatesOf 0 ∧ (u.portS n).started = true)) ∧
  (∀ (port : PortId) (mask : Byte) (times : BitVec 128) (c : Fin 8) (s : State),
      let n := port.val
      let time := bitsOf times.toNat (16 * c.val) 16
      (s.passing n = true →
        ∃ u, exec (.pfcFrameReceived port mask times) s = .next u ∧
          mget zeroN (u.portS n).rxPause c.val =
            (if bitOf (mask.toNat &&& s.cfld (aPortMac n) 0 8) c.val then
              (if time = 0 then 0 else s.clk.gtc + (time * 2048 + s.portRate n - 1) / s.portRate n)
             else mget zeroN (s.portS n).rxPause c.val) ∧
          (∀ m, m ≠ n → u.portS m = s.portS m) ∧ u.pkts = s.pkts ∧ u.mems = s.mems) ∧
      (mget zeroN (s.portS n).rxPause c.val ≠ 0 → mget zeroN (s.portS n).rxPause c.val ≤ s.clk.gtc →
        ∃ u, exec (.pfcPauseExpire port c) s = .next u ∧ mget zeroN (u.portS n).rxPause c.val = 0 ∧
          (∀ m, m ≠ n → u.portS m = s.portS m) ∧ u.pkts = s.pkts ∧ u.mems = s.mems) ∧
      (let last := mget zeroN (s.portS n).txPause c.val
       let quanta := s.cfld (aPortMac n) 16 16
       (s.own (8 * n + c.val)).pause = true → last ≠ 0 →
        (last - 1) * s.portRate n + quanta * 1024 ≤ s.clk.gtc * s.portRate n →
        s.hop.pauseTx.any (fun e => e.1 = n && e.2.1 = c.val) = false →
        exec (.pfcRefresh port c) s =
          .next { s with hop := { s.hop with pauseTx := s.hop.pauseTx ++ [(n, c.val, quanta)] } }))

/-- Links (R407, R409, R416, R417): a link that comes up starts the verify procedure when preemption is enabled; an answer
makes preemption active, three timeouts make it fail; a link that falls is counted, at most 255 times, and ends receptions.
Module management (R418): the owner starts a read or a write, which runs until the module has answered; a read brings
its bytes, no answer brings NOTFOUND, and 50 ms bring TIMEOUT; a change of presence and a fall of MOD_INT_N raise
source 133 of the owner. -/
def Obligations.LinksAndModulesChange : Prop :=
  (∀ (port : PortId) (s : State),
      let n := port.val
      let x := s.portS n
      let mac := s.com (aPortMac n + 4)
      (s.portOn n = true → x.link = false →
        ∃ u, exec (.linkUp port) s = .next u ∧ (u.portS n).link = true ∧
          (u.portS n).pre = (if bitOf mac 31 then (if bitOf mac 30 then 2 else 1) else 0) ∧
          (∀ m, m ≠ n → u.portS m = s.portS m) ∧ u = { s with eg := u.eg }) ∧
      exec (.linkDown port) s = .next (s.linkFall n) ∧
      (x.link = true → x.rxE = none → x.rxP = none →
        ∃ u, exec (.linkDown port) s = .next u ∧ (u.portS n).link = false ∧ (u.portS n).linkDn = min 255 (x.linkDn + 1) ∧
          (u.portS n).pre = 0 ∧ (∀ m, m ≠ n → u.portS m = s.portS m) ∧ u = { s with eg := u.eg, clk := u.clk }) ∧
      (x.link = true → x.pre = 1 →
        exec (.verifyResponse port) s = .next (s.setPortS n { x with pre := 2 }) ∧
        (x.verAt + s.cfld (aPortMac n + 4) 0 8 * 4000000 ≤ s.clk.gtc →
          exec (.verifyTimeout port) s = .next (s.setPortS n
            (if x.tries < 3 then { x with tries := x.tries + 1, verAt := s.clk.gtc } else { x with pre := 3 }))))) ∧
  (∀ (m : Master) (octet : Fin 64) (ok : Bool) (data : Word64) (s : State),
      let k := octet.val
      let x := s.modS k
      (s.mayAct m = true → masterIs m (s.modOwner k) = true → x.run = false →
        exec (.modRead m octet) s =
          .next ((s.setFld (aPortMod k) 30 1 0).setModS k { x with run := true, since := s.clk.gtc }) ∧
        exec (.modWrite m octet) s =
          .next ((s.setFld (aPortMod k) 30 1 1).setModS k { x with run := true, since := s.clk.gtc })) ∧
      (x.run = true →
        ∃ u, exec (.modTransactionDone octet ok data) s = .next u ∧ (u.modS k).run = false ∧
          (u.modS k).status = (if x.since + 200000000 < s.clk.gtc then stTimeout else if ok then stOk else stNotFound) ∧
          u = { s with eg := u.eg, regs := u.regs } ∧
          ∀ a, a ≠ aPortMod k + 8 → a ≠ aPortMod k + 12 → u.reg a = s.reg a) ∧
      (x.prs ≠ ok → exec (.modulePresenceChange octet ok) s =
        .next ((s.setModS k { x with prs := ok }).irq (s.modOwner k) 133)) ∧
      (x.int = false → exec (.moduleInt octet false) s =
        .next ((s.setModS k { x with int := true }).irq (s.modOwner k) 133)) ∧
      exec (.moduleInt octet true) s = .next (s.setModS k { x with int := false }))

/-! ### Tables in time -/

/-- The sweeper, the ager and learning (R239, R292, R293): a pass starts at each second, visits one record after another, and
the ager ages every entry of its race once a second; the learn request of lowest key is decided when it is 64 counts old
and the second has learns left.
Hold-downs, walks, epochs, meters, samples and the journal in time (R247, R283, R287, R292, R386, R387): each is over, broken,
flipped, refilled, sampled or moved on when its time has come. -/
def Obligations.TimedTableWork : Prop :=
  (∀ (slice : SliceId) (race : RaceId) (q : Learn) (s : State), s.runs = true →
      let sl := slice.val
      let x := s.slice sl
      let start := s.sliceGtc sl / second * second
      let r := race.val
      let z := s.race r
      let now := s.islGtc (64 + r)
      let win := z.learnWin.filter (fun t => decide (now < t + 4000000))
      (s.blkOn 1 (sl / 8) = false → 0 < start → x.pass ≠ start + 1 → s.top.resumeGtc ≤ start →
        ∃ u, exec (.sweeperPassStart slice) s = .next u ∧ (u.slice sl).pass = start + 1 ∧ (u.slice sl).next = 0 ∧
          (u.slice sl).rebuild = (x.rebuild ++ x.failed).eraseDups ∧ (u.slice sl).failed = [] ∧
          u = { s with mst := u.mst } ∧ u.mst.recs = s.mst.recs ∧ u.mst.index = s.mst.index) ∧
      (s.blkOn 1 (sl / 8) = false → x.pass ≠ 0 → x.next < 4194304 → x.next * second ≤ (s.sliceGtc sl - (x.pass - 1)) * 4194304 →
        s.sliceGtc sl < x.pass - 1 + second →
        let u := (s.setSlice sl { x with next := x.next + 1 }).visit sl (sl * 4194304 + x.next)
        exec (.sweeperVisit slice) s = .next (if x.next + 1 = 4194304 then u.passEnd sl else u)) ∧
      (z.ager < now / second → s.top.resumeGtc ≤ now / second * second →
        exec (.agerPass race) s = .next ((s.emOnce r).foldl (fun s x => s.ageOne r x)
          (s.setRace r { z with ager := now / second }))) ∧
      (lowestLearn z.learnq = some q → q.ekey / 4096 + 64 ≤ now → win.length < 8000 →
        exec (.learnApply race) s =
          .next ((s.setRace r { z with learnq := z.learnq.erase q, learnWin := win ++ [now] }).learnOne r q))) ∧
  (∀ (race : RaceId) (key : Word64) (type : BitVec 3) (part : Part) (table meter queue : Nat) (e : JEntry) (l : List JEntry)
      (s : State),
      let r := race.val
      let z := s.race r
      (∃ u, exec (.holddownExpire race key type) s = .next u ∧ u = { s with races := u.races } ∧
        (∀ j, j ≠ r → u.race j = s.race j) ∧
        ∀ h, h ∈ (u.race r).hold ↔ h ∈ z.hold ∧ ¬ (h.key = key ∧ h.type = type.toNat ∧ h.until_ ≤ s.clk.gtc)) ∧
      exec (.walkTimeout part) s = .next ((upTo 17).foldl (fun s t =>
        match s.walk part.val t with
        | some w => if w.last + s.cfld aEmtCfg 16 8 * 400000000 ≤ s.clk.gtc then
            (s.walkBreak part.val t).bump (aEmtWalkCnt part.val 2) 1 else s
        | none => s) s) ∧
      ((∀ p, p < 4 → p ≠ part.val → s.restamping p table = false) → s.restamping part.val table = true →
        ∃ u, exec (.restampDone table) s = .next u ∧ u.restamping part.val table = false ∧
          u.epochOf part.val table = !(s.restampAll part.val table).epochOf part.val table ∧ u.mems = s.mems) ∧
      (s.runs = true → (s.meterAt meter).prof ≠ 0 → meter < 2 ^ 20 → mget zeroN s.refreshed meter ≤ s.islGtc 88 / second →
        exec (.meterRefresh meter) s =
          .next ({ s with refreshed := mset zeroN s.refreshed meter (s.islGtc 88 / second + 1) }.setMeter meter
            (refill (s.mprof (s.meterAt meter).prof) (s.meterAt meter) (s.islGtc 88)))) ∧
      (s.runs = true → queue < 0x40000 → s.clk.gtc / 4 % 0x40000 = queue →
        ∃ u, exec (.samplerVisit queue) s = .next u ∧ (u.queue queue).stat.sdepth = min (s.queue queue).depth 0xFFFFFFFF ∧
          (u.queue queue).fifo = (s.queue queue).fifo ∧ (∀ q, q ≠ queue → u.queue q = s.queue q) ∧ u = { s with eg := u.eg }) ∧
      (s.clk.run = true → s.mst.jnl.tail = e :: l → s.mst.jnl.ring.length < 2097152 ∨ 5 ≤ e.type →
        exec .journalRingWrite s = .next s.ringStep) ∧
      (s.clk.run = true → s.mst.jnl.ring.length < 2097152 → s.mst.jnl.tail = e :: l → e.type ≠ 6 →
        exec .journalRingWrite s = .next { s with mst := { s.mst with
          jnl := { s.mst.jnl with tail := l, ring := s.mst.jnl.ring ++ [e] } } }))

/-! ### Host commands -/

/-- The command at the front of its ring may start, and its descriptor's fields that must be 0 are (R460, R462). -/
def Sys2Proof.Begins (h : HostCmd) (kind : CmdKind) (s : State) : Prop :=
  s.mayStart h.part.val h.ring.val kind = true ∧ h.rsv = 0 ∧ h.flags.toNat / 2 = 0

/-- What the completion of the command that starts now needs (R461). -/
def Sys2Proof.startRef (h : HostCmd) (opcode : Nat) (s : State) : CmdRef :=
  { part := h.part.val, ring := h.ring.val, tag := h.tag.toNat, opcode := opcode,
    slot := s.cmdCi h.part.val h.ring.val % s.cmdSize h.part.val h.ring.val, irq := h.flags.getLsbD 0,
    epoch := s.epoch h.part.val }

/-- The block with the command taken from its ring: CI is one more (R462), and the events of R526 have happened, for the
command and for the 64 bytes of its descriptor. -/
def Sys2Proof.started (h : HostCmd) (s : State) : State :=
  ((s.setRegN (aHstCmdq h.part.val h.ring.val + 24) ((s.cmdCi h.part.val h.ring.val + 1) % 65536)).occur 105 0x010 1).dmaRead 64

/-- A completion (R461): 32 bytes at the next entry of the completion ring in the host's memory, with TAG, OPCODE, STATUS,
the command's position with the phase of the ring's pass, the GTC and DETAIL; no other byte of host memory changes, and
the command no longer runs. One of a partition that has been reset since is discarded (R482). -/
def Obligations.CompletionsAreWrittenToTheRing : Prop :=
  ∀ (c : CmdRef) (status detail : Nat) (s : State), c.part < 4 →
    let u := s.cmdDone c status detail
    let a := aHstCmdq c.part c.ring
    let r := s.ring c.part c.ring
    let n := s.cmdSize c.part c.ring
    let place := s.regN (a + 8) + s.regN (a + 12) * 2 ^ 32 + 32 * (r.done % n)
    (c.epoch = s.epoch c.part → place + 32 ≤ 2 ^ 64 →
      u.hostRead c.part place 32 = complBytes c status (if r.done / n % 2 = 0 then 1 else 0) s.clk.gtc detail ∧
      (∀ k, k < hostKey c.part place ∨ hostKey c.part place + 32 ≤ k → getByte u.mems.host k = getByte s.mems.host k) ∧
      (u.ring c.part c.ring).done = r.done + 1 ∧ (u.ring c.part c.ring).fg ≠ some c ∧
      u.mems.prog = s.mems.prog ∧ u.mems.dram = s.mems.dram) ∧
    (c.epoch ≠ s.epoch c.part → u.mems = s.mems ∧ u.regs = s.regs ∧ u.cnt = s.cnt)

/-- NOP, ABORT, COMMIT and ATTEST (R466, R468, R469, R477, R480, R481): an abort of a command, a receive or transmit ring, a
walk, an activity or a thread acts on what it names; a commit that is not accepted answers why.
Every start takes the command from its ring first (R462); a descriptor with a field that must be 0 answers BADCMD
(R465), and a mode that does not allow the command REJECT (R466). -/
def Obligations.GeneralCommandsStartAndComplete : Prop :=
  (∀ (h : HostCmd) (part : Part) (ring : Fin 4) (tag : Word32) (addr : Nat) (w : Walk) (x : Attest) (s : State),
      let p := h.part.val
      let t := started h s
      (Begins h .foreground s → modeC s.top.mode p = true →
        exec (.nop h) s = .next (t.cmdDone (startRef h 0x01 s) stOk 0)) ∧
      (Begins h .ahead s → modeC s.top.mode p = true → h.op 0 1 = 4 → h.op 1 1 ≤ 16 → h.op 2 2 = 0 → h.op 4 4 = 0 →
        t.walk p (h.op 1 1) = some w →
        exec (.abort h) s =
          .next (((t.walkBreak p (h.op 1 1)).bump (aEmtWalkCnt p 3) 1).cmdDone (startRef h 0x02 s) stOk 0)) ∧
      (Begins h .ahead s → modeC s.top.mode p = true → h.op 0 1 = 1 ∨ h.op 4 4 = 0 → 5 ≤ h.op 0 1 ∨ h.op 2 2 = 0 →
        let sub := h.op 2 2
        let n := ((h.op 1 1 * 12 + sub % 16) * 17 + bitsOf sub 4 5) * 4 + bitsOf sub 9 2
        (h.op 0 1 = 1 → h.op 1 1 ≤ 3 →
          exec (.abort h) s = .next (t.abortCmd (startRef h 0x02 s) (h.op 1 1) (h.op 4 4))) ∧
        (h.op 0 1 = 2 → h.op 1 1 ≤ 63 → exec (.abort h) s = .next (t.abortRx (startRef h 0x02 s) (h.op 1 1))) ∧
        (h.op 0 1 = 3 → h.op 1 1 ≤ 63 → exec (.abort h) s = .next (t.abortTx (startRef h 0x02 s) (h.op 1 1))) ∧
        (h.op 0 1 = 4 → h.op 1 1 ≤ 16 → t.walk p (h.op 1 1) = none →
          exec (.abort h) s = .next (t.cmdDone (startRef h 0x02 s) stNotFound 0)) ∧
        (h.op 0 1 = 5 → 1 ≤ sub → sub ≤ 12 → p = 0 → exec (.abort h) s = .next (t.mntStopFor (startRef h 0x02 s) sub)) ∧
        (h.op 0 1 = 6 → h.op 1 1 ≤ 15 → sub % 16 ≤ 11 → bitsOf sub 4 5 ≤ 16 → sub < 2 ^ 11 →
          exec (.abort h) s = .next (t.abortThread (startRef h 0x02 s) n))) ∧
      (Begins h .foreground s → modeB s.top.mode = true → commitAddr (h.op 0 2) (h.op 2 2) = some addr →
        commitWriter addr = some p → (t.commitGo addr p).1 = stOk →
        exec (.commit h) s = .next ((t.commitGo addr p).2.cmdDone (startRef h 0x03 s) stOk
          (t.clk.gtc % 2 ^ 64 + (t.commitGo addr p).2.regN (addr + 4) * 2 ^ 64))) ∧
      (Begins h .foreground s → modeB s.top.mode = true → commitAddr (h.op 0 2) (h.op 2 2) = some addr →
        commitWriter addr = some p → (t.commitGo addr p).1 ≠ stOk →
        let a := t.commitGo addr p
        exec (.commit h) s = .next (a.2.cmdDone (startRef h 0x03 s) a.1
          (if a.1 = stDenied then 0 else a.2.regN (addr + 4) * 2 ^ 64))) ∧
      (Begins h .background s → modeC s.top.mode p = true → 1012 ≤ h.op 24 4 →
        ∃ u, exec (.attest h) s = .next u ∧ u.host.bg = s.host.bg ++ [startRef h 0x04 s] ∧
          u.host.attests = s.host.attests ++ [{ ref := startRef h 0x04 s, nonce := h.op 0 16, res := h.op 16 8 }] ∧
          u.mems = s.mems) ∧
      (s.host.attests.find? (fun a => a.ref.part = part.val && a.ref.ring = ring.val && a.ref.tag = tag.toNat) = some x →
        (x.ref.epoch ≠ s.epoch part.val → exec (.attestDone part ring tag) s =
          .next ({ s with host := { s.host with attests := s.host.attests.erase x } }.cmdDone x.ref stOk 1012)) ∧
        (x.ref.epoch = s.epoch part.val →
        let s1 := { s with host := { s.host with attests := s.host.attests.erase x } }
        let b := s1.statement part.val x.nonce
        exec (.attestDone part ring tag) s =
          .next ((s1.hostWrite part.val x.res (b ++ exactly 132 (Config.deviceSign b))).cmdDone x.ref stOk 1012)))) ∧
  (∀ (h : HostCmd) (s : State), s.mayStart h.part.val h.ring.val .foreground = true →
      (started h s).cmdCi h.part.val h.ring.val = (s.cmdCi h.part.val h.ring.val + 1) % 65536 ∧
      OnlyCounters (s.setRegN (aHstCmdq h.part.val h.ring.val + 24) ((s.cmdCi h.part.val h.ring.val + 1) % 65536)) (started h s) ∧
      (h.rsv ≠ 0 ∨ h.flags.toNat / 2 ≠ 0 →
        exec (.nop h) s = .next ((started h s).cmdDone (startRef h 0x01 s) stBadCmd 0) ∧
        exec (.insert h) s = .next ((started h s).cmdDone (startRef h 0x11 s) stBadCmd 0)) ∧
      (h.rsv = 0 → h.flags.toNat / 2 = 0 → modeA s.top.mode = false →
        exec (.insert h) s = .next ((started h s).cmdDone (startRef h 0x11 s) stReject 0)))

/-- The commands on exact-match tables and prefixes (R279, R283, R284, R286, R289): with operands in range each acts on the
tables of its own partition, in the races it names, and completes with what it found. -/
def Obligations.TableCommandsComplete : Prop :=
  ∀ (h : HostCmd) (r x : Nat) (s : State),
    let p := h.part.val
    let t := started h s
    Begins h .foreground s →
    (modeB s.top.mode = true → racesOf (h.op 0 2) = [r] → emBadOps h false = false →
      t.emFind r p (h.op 2 1) (BitVec.ofNat 64 (h.op 8 8)) = some x →
      exec (.search h) s = .next (t.cmdDone (startRef h 0x10 s) stOk (leNat ((t.emAt r x).bytes false)))) ∧
    (modeB s.top.mode = true → racesOf (h.op 0 2) = [r] → emBadOps h false = false →
      t.emFind r p (h.op 2 1) (BitVec.ofNat 64 (h.op 8 8)) = none →
      exec (.search h) s = .next (t.cmdDone (startRef h 0x10 s) stNotFound 0)) ∧
    (modeA s.top.mode = true → emBadOps h true = false →
      let a := eachRace (fun r s => s.emInsert r p h) (racesOf (h.op 0 2)) t
      exec (.insert h) s = .next (a.2.2.cmdDone (startRef h 0x11 s) a.2.1 a.1)) ∧
    (modeA s.top.mode = true → emBadOps h false = false →
      let a := eachRace (fun r s => s.emRemove r p h) (racesOf (h.op 0 2)) t
      exec (.delete h) s = .next (a.2.2.cmdDone (startRef h 0x12 s) a.2.1 a.1)) ∧
    (modeA s.top.mode = true → racesOf (h.op 0 2) = [r] → emBadOps h true = false →
      exec (.insert h) s = .next ((t.emInsert r p h).2.cmdDone (startRef h 0x11 s) (t.emInsert r p h).1
        (if (t.emInsert r p h).1 = stOk then 2 ^ r else 0))) ∧
    (modeA s.top.mode = true → racesOf (h.op 0 2) = [r] → emBadOps h false = false →
      t.emFind r p (h.op 2 1) (BitVec.ofNat 64 (h.op 8 8)) = some x →
      exec (.delete h) s = .next ((t.emDelete r x).cmdDone (startRef h 0x12 s) stOk (2 ^ r))) ∧
    (modeB s.top.mode = true → h.op 0 1 < 16 → h.op 1 1 = 0 → h.op 2 2 ≠ 0 → h.op 2 2 ≤ 4096 → h.op 4 4 = 0 →
      exec (.next h) s = .next (t.walkNext (startRef h 0x13 s) (h.op 0 1) (h.op 2 2) (h.op 8 8))) ∧
    (modeA s.top.mode = true → h.op 2 1 < 2 → h.op 3 1 = 0 → h.op 4 2 < 512 →
      let hit (e : EmEntry) := e.valid && e.part = p && e.port = h.op 4 2 && (bitOf (h.op 2 1) 0 || !e.static)
      let done := (racesOf (h.op 0 2)).foldl (fun (a : Nat × State) r => (a.2.emOnce r).foldl (fun (a : Nat × State) x =>
        if hit (a.2.emAt r x) then (a.1 + 1, a.2.emDelete r x) else a) a) (0, t)
      exec (.flushPort h) s = .next (done.2.cmdDone (startRef h 0x14 s) stOk done.1)) ∧
    (modeA s.top.mode = true → h.op 0 1 = 0 → h.op 1 1 = 0 → h.op 2 1 ≤ 32 → h.op 3 1 = 0 → h.op 4 2 < 4096 →
      h.op 6 2 = 0 → h.op 12 4 = 0 → beNat (leBytes 16 (h.op 16 16)) % 2 ^ (128 - h.op 2 1) = 0 →
      t.ownsLpm p (h.op 4 2) = true → t.lpmHeld p false < 64 * t.cfld (aClsLpmQuota p) 16 16 → t.lpmTotal false < 1048576 →
      ∃ u, exec (.lpmUpdate h) s = .next u ∧
        { v6 := false, table := h.op 4 2, len := h.op 2 1, data := BitVec.ofNat 32 (h.op 8 4), part := p,
          addr := BitVec.ofNat 128 (beNat (leBytes 16 (h.op 16 16)) / 2 ^ 96) } ∈ u.cls.lpm) ∧
    (modeA s.top.mode = true → h.op 0 1 < 2 → h.op 1 1 < 2 → h.op 3 1 = 0 → h.op 4 2 < 4096 → h.op 6 2 = 0 → h.op 12 4 = 0 →
      let v6 := decide (h.op 1 1 = 1)
      let w := if v6 then 128 else 32
      let len := h.op 2 1
      let full := beNat (leBytes 16 (h.op 16 16))
      let addr := BitVec.ofNat 128 (full / 2 ^ (128 - w))
      let same (x : Prefix) := x.v6 = v6 && x.table = h.op 4 2 && x.len = len && x.addr = addr
      let rest := t.cls.lpm.filter (fun x => !same x)
      let entry : Prefix := ⟨v6, h.op 4 2, len, addr, BitVec.ofNat 32 (h.op 8 4), p, false⟩
      let quota := 64 * (if v6 then t.cfld (aClsLpmQuota p) 0 16 else t.cfld (aClsLpmQuota p) 16 16)
      let room := t.lpmHeld p v6 < quota ∧ t.lpmTotal v6 < (if v6 then 524288 else 1048576)
      let c := startRef h 0x15 s
      len ≤ w → full % 2 ^ (128 - len) = 0 →
      (t.ownsLpm p (h.op 4 2) = false → exec (.lpmUpdate h) s = .next (t.cmdDone c stDenied 0)) ∧
      (t.ownsLpm p (h.op 4 2) = true →
        (h.op 0 1 = 1 → exec (.lpmUpdate h) s =
          .next (if t.cls.lpm.any same then (t.setLpm rest).cmdDone c stOk 0 else t.cmdDone c stNotFound 0)) ∧
        (h.op 0 1 = 0 → t.cls.lpm.any same = true ∨ room →
          exec (.lpmUpdate h) s = .next ((t.setLpm (rest ++ [entry])).cmdDone c stOk 0)) ∧
        (h.op 0 1 = 0 → t.cls.lpm.any same = false → ¬ room →
          exec (.lpmUpdate h) s = .next (t.cmdDone c stFull 0)))) ∧
    (modeB s.top.mode = true → h.op 0 1 ≤ 16 → (t.walk p (h.op 0 1)).isSome = true ∨ t.restamping p (h.op 0 1) = true →
      exec (.walkStart h) s = .next (t.cmdDone (startRef h 0x16 s) stBusy 0)) ∧
    (modeB s.top.mode = true → h.op 0 1 ≤ 16 → t.walk p (h.op 0 1) = none → t.restamping p (h.op 0 1) = false →
      exec (.walkStart h) s =
        .next ((t.setWalk p (h.op 0 1) (some { last := t.clk.gtc })).cmdDone (startRef h 0x16 s) stOk 0))

/-- The commands on flow records (R280, R284, R290): each goes to the home slice of its key or index and runs until the slice
has applied it; a flush runs in the background. -/
def Obligations.FlowCommandsReachTheirSlice : Prop :=
  ∀ (h : HostCmd) (s : State),
    let p := h.part.val
    let t := started h s
    let sent (c : CmdRef) (o : FlowOp) : State := t.hostFlow c o
    (Begins h .foreground s → modeB s.top.mode = true → flowBadOps h 1 false true = false →
      exec (.flowSearch h) s = .next (sent (startRef h 0x20 s)
        { src := .host (startRef h 0x20 s), kind := .search (bitOf (h.op 0 1) 0) (h.op 16 8),
          view := t.hostWords p (h.op 8 8) 6, index := BitVec.ofNat 64 (h.op 4 4), dom := 0, part := p })) ∧
    (Begins h .foreground s → modeA s.top.mode = true → flowBadOps h 2 true false = false → t.domOwner (h.op 1 1) = p →
      exec (.flowInsert h) s = .next (sent (startRef h 0x21 s)
        { src := .host (startRef h 0x21 s), kind := .ins (bitOf (h.op 0 1) 1), view := t.hostWords p (h.op 8 8) 16,
          index := 0, dom := h.op 1 1, part := p })) ∧
    (Begins h .foreground s → modeA s.top.mode = true → flowBadOps h 2 true false = false → t.domOwner (h.op 1 1) ≠ p →
      exec (.flowInsert h) s = .next (t.cmdDone (startRef h 0x21 s) stDenied 0)) ∧
    (Begins h .foreground s → modeA s.top.mode = true → flowBadOps h 1 false false = false →
      exec (.flowDelete h) s = .next (sent (startRef h 0x22 s)
        { src := .host (startRef h 0x22 s), kind := .hostDel (bitOf (h.op 0 1) 0),
          view := t.hostWords p (h.op 8 8) 6, index := BitVec.ofNat 64 (h.op 4 4), dom := 0, part := p })) ∧
    (Begins h .foreground s → modeB s.top.mode = true → h.op 0 1 = 0 → h.op 1 1 = 0 → h.op 2 2 ≠ 0 → h.op 2 2 ≤ 4096 →
      h.op 4 4 = 0 →
      exec (.flowNext h) s = .next (t.walkNext (startRef h 0x23 s) 16 (h.op 2 2) (h.op 8 8))) ∧
    (Begins h .background s → modeA s.top.mode = true → h.op 0 1 < 4 → h.op 1 1 < 16 → h.op 2 1 ≤ 46 → h.op 3 1 = 0 →
      s.flushOf p = none →
      ∃ u f, exec (.flowFlushPort h) s = .next u ∧ u.flushOf p = some f ∧ f.ref = startRef h 0x24 s ∧ f.value = h.op 4 2 ∧
        f.mask = h.op 6 2 ∧ u.host.bg = s.host.bg ++ [startRef h 0x24 s] ∧ u.mst.recs = s.mst.recs ∧ u.mems = s.mems)

/-- Versions (R198, R200 to R205): a commit is accepted into a free slot and runs; its checks fix the instant; at that instant
the slot becomes current and the one before it superseded, or free when nothing of it is in flight; the slots can be read. -/
def Obligations.VersionsAreCommittedAndActivated : Prop :=
  ∀ (h : HostCmd) (part : Part) (ring : Fin 4) (tag : Word32) (x : VCommit) (o : Nat) (s : State),
    let p := h.part.val
    let t := started h s
    let d := h.op 0 1
    let v := h.op 1 1
    (Begins h .background s → modeA s.top.mode = true → d ≤ 15 → v ≤ 3 → h.op 2 6 = 0 → s.domOwner d = p →
      s.live d v = false → (upTo 4).all (s.live d) = false → s.cls.commits.any (fun x => x.dom = d) = false →
      ∃ u, exec (.versionCommit h) s = .next u ∧ u.vslot d v = { state := 1 } ∧
        u.cls.commits = s.cls.commits ++
          [{ ref := startRef h 0x30 s, dom := d, slot := v, at_ := h.op 8 8, accepted := s.clk.gtc }] ∧
        u.host.bg = s.host.bg ++ [startRef h 0x30 s] ∧ u.mems = s.mems) ∧
    (s.commitOf part.val ring.val tag.toNat = some x →
      (x.checked = false → s.versionOk x.dom x.slot = true →
        x.at_ = 0 ∨ (s.clk.gtc + 8000 ≤ x.at_ ∧ x.at_ ≤ x.accepted + 4000000000) →
        exec (.versionChecksDone part ring tag) s = .next (s.setCommits (s.cls.commits.map fun y =>
          if y = x then { y with checked := true, at_ := activationAt y.at_ s.clk.gtc } else y))) ∧
      (x.checked = false → s.versionOk x.dom x.slot = false ∨
          (x.at_ ≠ 0 ∧ (x.at_ < s.clk.gtc + 8000 ∨ x.accepted + 4000000000 < x.at_)) →
        exec (.versionChecksDone part ring tag) s = .next (s.commitFails x stReject)) ∧
      (x.checked = true → x.at_ ≤ s.clk.gtc → s.oldSlot x.dom = none →
        let u := s.setVslot x.dom x.slot { state := 2, t := x.at_, count := (s.vslot x.dom x.slot).count }
        exec (.versionActivate part ring tag) s = .next ((u.setCommits (u.cls.commits.erase x)).cmdDone x.ref stOk x.at_)) ∧
      (x.checked = true → x.at_ ≤ s.clk.gtc → s.oldSlot x.dom = some o → o ≠ x.slot → o < 4 → x.slot < 4 →
        ∃ u, exec (.versionActivate part ring tag) s = .next u ∧
          u.vslot x.dom x.slot = { state := 2, t := x.at_, count := (s.vslot x.dom x.slot).count } ∧
          u.vslot x.dom o = (if (s.vslot x.dom o).count = 0 then {} else { s.vslot x.dom o with state := 3, sup := x.at_ }) ∧
          u.cls.commits = s.cls.commits.erase x)) ∧
    (Begins h .foreground s → modeB s.top.mode = true → d ≤ 15 → h.op 1 31 = 0 → s.domOwner d = p →
      exec (.versionStatus h) s = .next (t.cmdDone (startRef h 0x31 s) stOk
        (leNat ((upTo 4).flatMap fun v => leBytes 4 (t.slotWord d v)))))

/-- The counter collector (R530 to R537): a snapshot is accepted and waits for its instant, where it is written, or freezes
or unfreezes every counter; a stream is configured or stopped; a due dump starts, or is skipped while one is written, and
a dump that is complete is at its place. -/
def Obligations.SnapshotsAndDumpsRun : Prop :=
  ∀ (h : HostCmd) (part : Part) (stream : Fin 2) (n : Snap) (num since : Nat) (c : DumpCfg) (s : State),
    let p := h.part.val
    let t := started h s
    let x := s.stream part.val stream.val
    (Begins h .background s → modeB s.top.mode = true → h.op 1 7 = 0 → h.op 28 4 = 0 → s.coll.snap = none →
      h.op 8 8 = 0 ∨ (s.clk.gtc + 8000 ≤ h.op 8 8 ∧ h.op 8 8 ≤ s.clk.gtc + 10 * second) →
      (h.op 0 1 = 0 ∧ (s.stream p 0).en = true ∧ bufBytes (s.stream p 0).cfg.pages.length ≤ h.op 24 4) ∨
        (p = 0 ∧ h.op 0 1 = 1 ∧ s.clk.frozen = false) ∨ (p = 0 ∧ h.op 0 1 = 2 ∧ s.clk.frozen = true) →
      let at_ := if h.op 8 8 = 0 then nextMultiple 4096 (s.clk.gtc + 8000) else h.op 8 8
      ∃ u, exec (.snapshot h) s = .next u ∧
        u.coll.snap = some { mode := h.op 0 1, at_ := at_, dest := h.op 16 8, ref := startRef h 0x40 s } ∧
        u.host.bg = s.host.bg ++ [startRef h 0x40 s] ∧ u.mems = s.mems) ∧
    (Begins h .background s → modeB s.top.mode = true → p = 0 → h.op 0 1 = 1 → h.op 1 7 = 0 → h.op 28 4 = 0 →
      s.clk.frozen = false → h.op 8 8 = 0 → s.coll.snap = none →
      ∃ u y, exec (.snapshot h) s = .next u ∧ u.coll.snap = some y ∧ y.mode = 1 ∧ y.ref = startRef h 0x40 s ∧
        s.clk.gtc + 8000 ≤ y.at_ ∧ y.at_ % 4096 = 0 ∧ u.host.bg = s.host.bg ++ [startRef h 0x40 s] ∧ u.mems = s.mems) ∧
    (s.snapDue 1 = some n → exec .counterFreeze s = .next ({ s with clk := { s.clk with frozen := true } }.snapDone n)) ∧
    (s.snapDue 2 = some n → exec .counterUnfreeze s = .next ({ s with clk := { s.clk with frozen := false } }.snapDone n)) ∧
    (s.snapDue 0 = some n → n.ref.epoch ≠ s.epoch n.ref.part →
      exec .snapshotLatch s = .next (((s.bump (aCntCollCnt 2) 1).bump (aCntCollCnt 3)
        (s.stream n.ref.part 0).cfg.pages.length).snapDone n)) ∧
    (s.snapDue 0 = some n → n.ref.epoch = s.epoch n.ref.part →
      let q : Part := Fin.ofNat 4 n.ref.part
      let y := s.stream n.ref.part 0
      let w := s.hostWrite n.ref.part n.dest (dumpHeader n.ref.part 0 s.clk.frozen true 0 n.at_ n.at_ y.cfg.period
        y.cfg.pages.length y.skipped ++ s.dumpBody q y.cfg.pages)
      exec .snapshotLatch s =
        .next (((w.bump (aCntCollCnt 2) 1).bump (aCntCollCnt 3) y.cfg.pages.length).snapDone n)) ∧
    (Begins h .foreground s → modeB s.top.mode = true → h.op 0 1 ≤ 1 → bitOf (h.op 1 1) 0 = false →
      exec (.dumpCfg h) s = .next (((t.dmaRead 0).setStream p (h.op 0 1) { t.stream p (h.op 0 1) with en := false }).cmdDone
        (startRef h 0x41 s) stOk (bufBytes (h.op 20 2)))) ∧
    (let k := h.op 0 1
     let n := h.op 20 2
     let b := bufBytes n
     let cfg : DumpCfg :=
       { loc := bitOf (h.op 1 1) 1, irq := bitOf (h.op 1 1) 2, period := h.op 4 4, base := h.op 8 8
         pages := (upTo n).map fun i => t.hostLe p (h.op 24 8 + 4 * i) 4 }
     let w := (cfg.pages.all fun id => pageValid id && t.pageReadable h.part id) && ascending cfg.pages
     Begins h .foreground s → modeB s.top.mode = true → k ≤ 1 → bitOf (h.op 1 1) 0 = true → h.op 1 1 < 8 → h.op 2 2 = 0 →
      1000 ≤ h.op 4 4 → h.op 4 4 ≤ 1000000 → 1 ≤ n → n ≤ 16384 → h.op 22 2 = 0 → w = true → h.op 8 8 % 4096 = 0 →
      2 * b ≤ h.op 16 4 → (k = 1 → t.userMay p cfg.pages = true) → cfg.loc = true ∨ t.inSub p 0 (h.op 8 8) (h.op 16 4) = true →
      t.otherRates p k + streamRate b (h.op 4 4) ≤ 16000000000 →
      ∃ u, exec (.dumpCfg h) s = .next u ∧ u.coll.snap = s.coll.snap ∧ (u.stream p k).en = true ∧ (u.stream p k).cfg = cfg ∧
        (u.stream p k).first = nextMultiple (h.op 4 4 * 4000) (s.clk.gtc + 40000) ∧ (u.stream p k).next = 1) ∧
    (s.collects = true → x.en = true → x.first + (x.next - 1) * (x.cfg.period * 4000) ≤ s.clk.gtc →
      (x.run = none →
        exec (.dumpDue part stream) s =
          .next ((s.setStream part.val stream.val { x with next := x.next + 1, run := some (x.next, x.cfg, s.clk.gtc) }).streamWrite
            part.val x.cfg (x.cfg.buf x.next + 8) (leBytes 8 x.next))) ∧
      (x.run ≠ none →
        exec (.dumpDue part stream) s =
          .next ((s.setStream part.val stream.val { x with next := x.next + 1, skipped := x.skipped + 1 }).bump (aCntCollCnt 1) 1))) ∧
    (s.collects = true → x.run = some (num, c, since) →
      let w := s.streamWrite part.val c (c.buf num) (dumpHeader part.val stream.val s.clk.frozen false num s.clk.gtc s.clk.gtc
        c.period c.pages.length x.skipped ++ s.dumpBody part c.pages)
      let v := ((w.setStream part.val stream.val { x with run := none, seq := num }).bump (aCntCollCnt 0) 1).bump
        (aCntCollCnt 3) c.pages.length
      let z := if stream.val = 0 then v.restartDelays part.val c.pages else v
      exec (.dumpComplete part stream) s = .next (if c.irq then z.irq part.val 139 else z)) ∧
    (s.collects = true → x.run = some (num, c, since) → stream.val = 1 → c.irq = false →
      let w := s.streamWrite part.val c (c.buf num) (dumpHeader part.val 1 s.clk.frozen false num s.clk.gtc s.clk.gtc c.period
        c.pages.length x.skipped ++ s.dumpBody part c.pages)
      exec (.dumpComplete part stream) s = .next (((w.setStream part.val 1 { x with run := none, seq := num }).bump
        (aCntCollCnt 0) 1).bump (aCntCollCnt 3) c.pages.length))

/-- Frozen counters do not change, and others saturate at 2^48 - 1 (R10, R537). -/
def Obligations.CountersFreezeAndSaturate : Prop :=
  ∀ (a n : Nat) (s : State), (∀ u i, u < 107 → i < 16 → a ≠ aCntVal u i) →
    (s.clk.frozen = true → s.bump a n = s) ∧
    (s.clk.frozen = false → (s.bump a n).count a = min (2 ^ 48 - 1) (s.count a + n)) ∧
    OnlyCounters s (s.bump a n)

/-- The event recorder (R539 to R549): records enter the input queue while it has room and power is good, and leave it in
order into the security ring, the fault ring, or, while that is frozen, the hold queue; a freeze, a thaw, a read and an
expiry act on them.
What an event leaves in the input queue (R539, R544, R583): one record more, with the time of its source's island, unless power fails; a fault
record that finds 1 024 fault records is dropped and counted, a security record never is. -/
def Obligations.EventsAreRecordedFrozenAndRead : Prop :=
  (∀ (h : HostCmd) (e : EvRec) (l : List EvRec) (s : State),
      let t := started h s
      let c := startRef h
      (s.evr.inq = e :: l →
        let u := s.setEvr { s.evr with inq := l }
        let e1 := { e with commit := e.commit || decide (s.top.mode = .commit) }
        exec .eventRecord s =
          .next (if 0x8000 ≤ e.code then u.secPut e1 else if s.ringFrozen then u.holdPut e1 else u.ringPutRec e1)) ∧
      (exec .evrFreezeExpire s = .next ((s.holders.filter (fun p => decide (s.freezeOf p - 1 + 10 * second ≤ s.clk.gtc))).foldl
        (fun s p => (s.thaw p).2.irq p 138) s)) ∧
      (Begins h .foreground s → modeB s.top.mode = true →
        (s.evr.frozenSince ≠ 0 →
          (s.evr.frozenSince - 1 + 5 * second ≤ s.clk.gtc →
            exec (.evrFreeze h) s = .next (t.cmdDone (c 0x50 s) stBusy 0)) ∧
          (s.clk.gtc < s.evr.frozenSince - 1 + 5 * second →
            exec (.evrFreeze h) s = .next ((t.setEvr { t.evr with
              freeze := mset zeroN t.evr.freeze h.part.val (t.clk.gtc + 1) }).cmdDone (c 0x50 s) stOk
                (t.clk.gtc + t.evr.faultNext * 2 ^ 64)))) ∧
        (s.evr.frozenSince = 0 →
          exec (.evrFreeze h) s = .next ((t.setEvr { t.evr with
            freeze := mset zeroN t.evr.freeze h.part.val (t.clk.gtc + 1), frozenSince := t.clk.gtc + 1 }).cmdDone (c 0x50 s) stOk
              (t.clk.gtc + t.evr.faultNext * 2 ^ 64))) ∧
        (t.freezeOf h.part.val ≠ 0 →
          exec (.evrThaw h) s = .next ((t.thaw h.part.val).2.cmdDone (c 0x51 s) stOk (t.thaw h.part.val).1)) ∧
        (t.freezeOf h.part.val = 0 → exec (.evrThaw h) s = .next (t.cmdDone (c 0x51 s) stNotFound 0)) ∧
        (h.op 0 1 = 1 → h.part.val = 0 → h.op 1 7 = 0 → h.op 16 2 ≠ 0 → h.op 16 2 ≤ 4096 → h.op 18 6 = 0 →
          let n := h.op 8 8
          let k := min (h.op 16 2) (t.evr.sec.length - n)
          exec (.evrRead h) s = .next ((t.hostWrite h.part.val (h.op 24 8) ((t.evRecs 1 n k).flatMap EvRec.bytes)).cmdDone
            (c 0x52 s) stOk (n + k * 2 ^ 64))) ∧
        (h.op 0 1 = 0 → h.op 1 7 = 0 → h.op 16 2 ≠ 0 → h.op 16 2 ≤ 4096 → h.op 18 6 = 0 →
          let n := max (h.op 8 8) t.faultFirst
          let k := min (h.op 16 2) (t.evr.faultNext - n)
          exec (.evrRead h) s = .next ((t.hostWrite h.part.val (h.op 24 8) ((t.evRecs 0 n k).flatMap EvRec.bytes)).cmdDone
            (c 0x52 s) stOk (n + k * 2 ^ 64))) ∧
        (h.part.val = 0 →
          ∃ u, exec (.evrClearSec h) s = .next u ∧ u.evr.fault = s.evr.fault ∧
            (if t.clearOk (t.hostRead 0 (h.op 0 8) 268) = true then
              u.evr.sec.length = 1 ∧ u.evr.alarmFill = false ∧ u.evr.alarmRef = false
            else u.evr.sec = s.evr.sec)))) ∧
  (∀ (src code detail : Nat) (s : State),
      let full := 1024 ≤ (s.evr.inq.filter (fun e => e.code < 0x8000)).length
      let u := s.event src code detail
      (s.top.pfail = true → u = s) ∧
      (s.top.pfail = false → code < 0x8000 → full → u = s.bump aEvrInDrop 1 ∧ u.evr = s.evr) ∧
      (s.top.pfail = false → 0x8000 ≤ code ∨ ¬ full →
        u.evr.inq = s.evr.inq ++ [{ src := src, code := code, detail := detail, gtc := s.islGtc (srcIsland src),
                                    secs := s.evr.optime, pcyc := s.evr.pcyc }] ∧ u = { s with evr := u.evr }))

/-- Maintenance (R571 to R577, R580 to R582): a start whose activity conflicts with none running begins it, another is refused
with the activity in its way; a stop, a status, an automatic start and an end act on the activities that run; a self-test
runs on its cluster, by Windshaft every 10 s, to its result. -/
def Obligations.MaintenanceStartsAndEnds : Prop :=
  ∀ (h : HostCmd) (k : Fin 13) (race : RaceId) (cluster : ClusterId) (seg : Byte) (pass : Option Bool) (x : Nat) (s : State),
    let t := started h s
    let n := 12 * race.val + cluster.val
    let a := h.op 0 1
    let arg := h.op 8 8
    let tried := mget zeroN s.saf.autoAt k.val
    (Begins h .foreground s → h.part.val = 0 → modeA s.top.mode = true →
      a ≠ 0 → a ≠ 10 → a ≤ 12 → h.op 1 7 = 0 → mntArgOk a arg = true →
      (a = 6 → (t.spareOf (arg % 256)).isSome = true ∧ t.engActive (arg % 256) (arg / 256) = true) →
      (∀ f, s.top.fw = some f → f.op ≠ 3) →
      (t.mntConflict a = none → exec (.maintStart h) s =
        .next (((t.mntStart a 0).mntBegin a arg).cmdDone (startRef h 0x60 s) stOk t.clk.gtc)) ∧
      (t.mntConflict a = some x → exec (.maintStart h) s =
        .next (((t.bump (aMntCnt 2) 1).ckptRefused a).cmdDone (startRef h 0x60 s) stConflict x))) ∧
    (Begins h .foreground s → h.part.val = 0 → modeB s.top.mode = true →
      exec (.maintStop h) s = .next (t.mntStopFor (startRef h 0x61 s) a)) ∧
    (Begins h .foreground s → modeB s.top.mode = true →
      (a = 0 → exec (.maintStatus h) s = .next (t.cmdDone (startRef h 0x62 s) stOk
        (((upTo 13).map (fun j => natBool (t.mntOn j) * 2 ^ j)).sum))) ∧
      (1 ≤ a → a ≤ 12 → exec (.maintStatus h) s = .next (t.cmdDone (startRef h 0x62 s) stOk
        (((upTo 4).map (fun w => t.regN (aMnt a + 4 * w) * 2 ^ (32 * w))).sum)))) ∧
    (modeA s.top.mode = true → s.mntOn k.val = false → s.autoDue k.val = true → tried = 0 ∨ tried + 4000000 ≤ s.clk.gtc →
      (s.mntConflict k.val = none → k.val ≠ 6 →
        exec (.maintAutoStart k) s = .next (({ s with saf := { s.saf with
          autoAt := mset zeroN s.saf.autoAt k.val 0 } }.mntStart k.val byWindshaft).mntBegin k.val (s.autoArg k.val))) ∧
      (s.mntConflict k.val = none → k.val = 6 →
        exec (.maintAutoStart k) s = .next (({ s with saf := { s.saf with
          swapDue := s.saf.swapDue.erase (s.autoArg 6 % 256, s.autoArg 6 / 256)
          autoAt := mset zeroN s.saf.autoAt 6 0 } }.mntStart 6 byWindshaft).mntBegin 6 (s.autoArg 6))) ∧
      (s.mntConflict k.val = some x →
        exec (.maintAutoStart k) s = .next (({ s with saf := { s.saf with
          autoAt := mset zeroN s.saf.autoAt k.val s.clk.gtc } }.bump (aMntCnt 1) 1).ckptRefused k.val))) ∧
    (s.mntOn k.val = true → k.val ≠ 10 →
      exec (.maintEnd k false) s = .next (s.mntAbort k.val) ∧
      (k.val ≠ 8 → s.mntMayEnd k.val = true → exec (.maintEnd k true) s = .next ((s.mntFinish k.val).mntOver k.val stOk)) ∧
      (k.val = 8 →
        let b := s.bulkFlush (s.mntArg 8)
        exec (.maintEnd k true) s = .next (if b.2 then b.1.mntOver 8 stOk else b.1))) ∧
    (modeA s.top.mode = true → s.stestDue n = true →
      let byIt := s.mntOn 7 = true ∧ s.fld (aMnt 7) 16 8 = byWindshaft
      (byIt → exec (.selftestStart race cluster) s = .next (s.stestRound n)) ∧
      (¬ byIt → s.mntConflict 7 = none → exec (.selftestStart race cluster) s =
        .next (((s.mntStart 7 byWindshaft).stestRound n).stestCheck)) ∧
      (¬ byIt → s.mntConflict 7 = some x → exec (.selftestStart race cluster) s =
        .next ((s.tries 7 s.clk.gtc).bump (aMntCnt 1) 1))) ∧
    (s.stestRuns n = true → seg.toNat ≤ 192 →
      exec (.selftestDone race cluster seg pass) s =
        .next ((s.stestOver n (match pass with | some true => 2 | some false => 3 | none => 4) seg.toNat).stestCheck))

/-- Patches (R119, R122 to R129): a bundle that opens is staged in the other slot, another refused; an activation that passes
its checks begins; a cluster that has drained takes its new words, or its old ones when the activation fails; a drain that
lasts too long ends the cluster's threads; heartbeats that are right move the activation to the next cluster, wrong ones
turn it back and isolate the engines.
Step 7 with no cluster switched, and DONE on the way back, are the model's choice (log 102). -/
def Obligations.PatchesAreStagedAndActivated : Prop :=
  ∀ (h : HostCmd) (race : RaceId) (a : Activation) (k : Nat) (failed : List EngineId) (s : State),
    let t := started h s
    let r := race.val
    (Begins h .background s → h.part.val = 0 → modeA s.top.mode = true → s.ucs.act = none →
      (∀ f, s.top.fw = some f → f.op ≠ 3) →
      let raw := t.hostRead 0 (h.op 0 8) (h.op 8 4)
      let u := t.dmaRead raw.length
      exec (.patchLoad h) s = .next (match openBundle u.runSlot raw with
        | some b => (u.setUcs { u.ucs.setSlot (1 - u.ucs.cur) (some b) with
            staged := some b, stagedSince := true }).showStaged.cmdDone (startRef h 0x70 s) stOk 0
        | none => (u.eventAny srcWindshaft 0x8002).cmdDone (startRef h 0x70 s) stReject 0)) ∧
    (Begins h .background s → h.part.val = 0 → modeA s.top.mode = true →
      (∀ f, s.top.fw = some f → f.op ≠ 3) → t.mntConflict 10 = none →
      (if bitOf (h.op 0 1) 0 then t.ucs.stagedSince else t.ucs.staged.isNone) = false →
      t.actChecks { ref := startRef h 0x71 s, revert := bitOf (h.op 0 1) 0 } = true →
      exec (.patchActivate h) s = .next (t.actBegin { ref := startRef h 0x71 s, revert := bitOf (h.op 0 1) 0 })) ∧
    (s.actRuns = some a → a.draining r = some k → s.cluEmpty k = true →
      let a1 := { a with at_ := mset noPhase a.at_ r (k, true) }
      (a.failing = none →
        let s1 := s.setFld aUcsPatchStatus 16 8 (s.fld aUcsPatchStatus 16 8 + 1)
        exec (.patchClusterDrained race) s = .next ((s1.loadPatch k (s.sectionFor (s.actTarget a) k)).setAct
          { a1 with done := a.done ++
              [(k, s.reg (aUcsPatchVersion k), { match_ := (s.clu k).matchReg, words := (s.clu k).patch })] })) ∧
      (a.failing ≠ none →
        let old := match a.done.find? (fun e => e.1 = k) with | some e => e.2 | none => (0, {})
        exec (.patchClusterDrained race) s =
          .next ((s.loadPatch k old).setAct { a1 with done := a.done.filter (fun e => e.1 ≠ k) }))) ∧
    (s.actRuns = some a → a.draining r = some k → mget zeroN a.since r + 4000 * s.fld aUcsDrainTmo 0 16 ≤ s.clk.gtc →
      exec (.patchDrainTimeout race) s = .next ((upTo 17).foldl (fun s e => s.engineEnd k e false) s)) ∧
    (s.actRuns = some a → a.phase r = (k, true) →
      let u := failed.foldl (fun s e =>
        ((s.safety (srcCluster r (k % 12)) 0x0200 (k + e.val * 65536) 2).isolateEngine k e.val).reacted 2) s
      (a.failing = none → failed = [] →
        let moved := (s.resumeCluster k).actMove a r (if a.aborted then none else s.toSwitch a r (k % 12 + 1))
        exec (.patchHeartbeatResult race []) s = .next (moved.1.actFinish moved.2)) ∧
      (a.failing ≠ none →
        let moved := (u.resumeCluster k).actMove a r (a.lastDone r)
        exec (.patchHeartbeatResult race failed) s = .next (moved.1.actFinish moved.2)) ∧
      (a.failing = none → failed ≠ [] →
        let turned := (upTo 16).foldl (fun (x : State × Activation) j => x.1.actBack x.2 j)
          (u.setFld aUcsPatchStatus 8 8 k, { a with failing := some k })
        exec (.patchHeartbeatResult race failed) s = .next (turned.1.actFinish turned.2)))

/-! ### Buffers, modes, resets and starts -/

/-- BUF_ALLOC, BUF_FREE, MODE_REQ and WARM_RESET (R331, R347 to R350, R513, R514): cells are asked of the Hopper, pages taken at
once; buffers that are granted are filled and their handles written, buffers that the partition holds return, and partition 0
changes the mode or restarts the block. -/
def Obligations.BuffersModesAndRestartsAreCommanded : Prop :=
  ∀ (h : HostCmd) (m : Mode) (l : List Nat) (s s1 : State),
    let p := h.part.val
    let n := h.op 1 1
    let t := started h s
    let hs := (upTo n).map fun i => t.hostLe p (h.op 8 8 + 4 * i) 4
    Begins h .foreground s →
    (modeA s.top.mode = true → 1 ≤ n → n ≤ 64 → h.op 2 6 = 0 → h.op 20 4 = 0 →
      let c := startRef h 0x80 s
      (h.op 0 1 = 0 → h.op 16 4 ≤ n * 256 →
        exec (.bufAlloc h) s = .next ((t.cmdRuns c).askHopper islHost (srcHost p) (4096 + p)
          (.alloc c n (h.op 16 4) (h.op 8 8) (h.op 24 8)))) ∧
      (t.grantAll (4096 + p) p true n false = .inl (l, s1) →
        t.allocDecide c n (h.op 16 4) (h.op 8 8) (h.op 24 8) = s1.bufGranted c 0 (h.op 16 4) (h.op 8 8) (h.op 24 8) l) ∧
      (∀ i, t.grantAll (4096 + p) p true n false = .inr i →
        t.allocDecide c n (h.op 16 4) (h.op 8 8) (h.op 24 8) = (t.bump (aHopCnt i) 1).cmdDone c stEmpty 0) ∧
      (h.op 0 1 = 1 → h.op 16 4 ≤ n * 4096 → t.pagesAll (4096 + p) p n = some (l, s1) →
        exec (.bufAlloc h) s = .next (s1.bufGranted c 1 (h.op 16 4) (h.op 8 8) (h.op 24 8) l)) ∧
      (h.op 0 1 = 1 → h.op 16 4 ≤ n * 4096 → t.pagesAll (4096 + p) p n = none →
        exec (.bufAlloc h) s = .next ((t.bump (aHopCnt 4) 1).cmdDone c stEmpty 0))) ∧
    (modeA s.top.mode = true → h.op 0 1 ≤ 1 → 1 ≤ n → n ≤ 64 → h.op 2 6 = 0 → h.op 16 16 = 0 → hs.Nodup →
      (∀ x, x ∈ hs → handleOk x = true ∧ x / 2 ^ 31 % 2 = h.op 0 1 ∧ t.holdsBuf p x = true) →
      exec (.bufFree h) s = .next ((hs.foldl (fun s x => s.bufReturn x) (t.dmaRead (4 * n))).cmdDone (startRef h 0x81 s) stOk 0)) ∧
    (modeA s.top.mode = true → h.op 0 1 ≤ 1 → 1 ≤ n → n ≤ 64 → h.op 2 6 = 0 → h.op 16 16 = 0 →
      (∀ x, x ∈ hs → handleOk x = true ∧ x / 2 ^ 31 % 2 = h.op 0 1) → ¬ hs.Nodup ∨ (∃ x, x ∈ hs ∧ t.holdsBuf p x = false) →
      exec (.bufFree h) s = .next ((t.dmaRead (4 * n)).cmdDone (startRef h 0x81 s) stDenied 0)) ∧
    (p = 0 → modeC s.top.mode p = true → t.modeTarget (h.op 0 1) = some m →
      (m = s.top.mode → exec (.modeReq h) s = .next (t.cmdDone (startRef h 0x90 s) stOk (modeCode m))) ∧
      (m = .safe → m ≠ s.top.mode →
        exec (.modeReq h) s = .next (((t.enterSafe 1).eventAny (srcHost 0) 0x8031).cmdDone (startRef h 0x90 s) stOk (modeCode m)))) ∧
    (p = 0 → modeC s.top.mode p = true → t.modeTarget (h.op 0 1) = some m → m ≠ s.top.mode → m ≠ .safe →
      exec (.modeReq h) s = .next (((t.enterMode m).eventAny (srcHost 0) 0x8031).cmdDone (startRef h 0x90 s) stOk (modeCode m)) ∧
      (s.top.mode = .ready ∨ m ≠ .ready →
        (t.enterMode m).top.mode = m ∧ (t.enterMode m).top.prev = s.top.mode ∧ (t.enterMode m).threads = s.threads ∧
        (t.enterMode m).mems = s.mems)) ∧
    (p = 0 → modeC s.top.mode p = true → h.op 0 1 ≤ 1 →
      exec (.warmReset h) s = .next ((t.cmdDone (startRef h 0xA1 s) stOk 0).warmReset rstSwr
        (if h.op 0 1 = 1 then some 5 else none) (s.top.mode = .safe)))

/-- Block resets (R497, R515, R521): one runs at a time; the island drains or is stopped when RST_QUIESCE_TMO has passed, the
work it loses is told and, after a stop, counted, and the command completes when the island resumes.
That a reset of a flow island ends its sweeper passes is the model's choice (log 105). -/
def Obligations.BlocksQuiesceResetAndResume : Prop :=
  ∀ (h : HostCmd) (b : BlkReset) (c : CmdRef) (s : State),
    let start : BlkReset :=
      { kind := h.op 0 1, index := h.op 1 1, phase := 0, since := s.clk.gtc, who := some (startRef h 0xA0 s) }
    let reset (t : Bool) (s : State) : State := (s.blockClear b.kind b.index).setTop
      { (s.blockClear b.kind b.index).top with
        blk := some { b with phase := 1, drops := s.blockWork b.kind b.index, timedOut := t } }
    (Begins h .background s → h.part.val = 0 → modeB s.top.mode = true → blockExists (h.op 0 1) (h.op 1 1) = true →
      s.top.blk = none →
      ∃ u, exec (.blockReset h) s = .next u ∧ u.top.blk = some start ∧
        u.host.bg = s.host.bg ++ [startRef h 0xA0 s] ∧ u.mems = s.mems ∧ u.races = s.races) ∧
    (s.top.blk = some b → b.phase = 0 → s.blockIdle b.kind b.index = true →
      exec .islandQuiesced s = .next (reset false s)) ∧
    (s.top.blk = some b → b.phase = 0 → b.since + 4000 * s.fld aRstQuiesceTmo 0 16 ≤ s.clk.gtc →
      ∃ v, OnlyCounters s v ∧ exec .quiesceTimeout s =
        .next ((v.blockClear b.kind b.index).setTop { (v.blockClear b.kind b.index).top with
          blk := some { b with phase := 1, drops := s.blockWork b.kind b.index, timedOut := true } })) ∧
    (s.top.blk = some b → b.phase = 1 →
      let on := s.setTop { s.top with blk := none }
      let u := if b.kind = 1 then (slicesOf b.index).foldl (fun s sl => s.passCut sl) on else on
      (b.who = some c → exec .islandResumed s = .next (u.cmdDone c stOk
        (b.drops % 2 ^ 32 + (if b.timedOut then 2 ^ 63 else 0)))) ∧
      (b.who = none → exec .islandResumed s = .next u))

/-- What a cold reset by a source of R494 leaves: mode COLD, stopped clocks, RST_CAUSE with this cause alone, nothing in the
block, and the commands that wait. -/
def Sys2Proof.Cold (src : Nat) (s u : State) : Prop :=
  u.top.mode = .cold ∧ u.clk.run = false ∧ u.regN aRstCause = 2 ^ src + src * 65536 ∧ u.threads = [] ∧ u.pkts = [] ∧
    u.races = [] ∧ u.em = [] ∧ u.mems.dram = [] ∧ u.link = [] ∧ u.dbg.level = 0 ∧ u.pending = s.pending

/-- Power and the reset pin (R494, R496, R498, R511, R583 to R586): sources of cold reach leave the block cold, and a power failure
warning enters COMMIT, which ends in a cold reset. -/
def Obligations.PowerAndPinsResetTheBlock : Prop :=
  ∀ (rail : Byte) (ns : Nat) (s : State),
    (s.top.vinUp = false → s.top.vinLow = true → s.top.mode ≠ .commit →
      ∃ u, exec .vin12Rise s = .next u ∧ Cold 0 s u ∧ u.top.vinUp = true) ∧
    (s.top.vinUp = false → s.top.vinLow = false →
      exec .vin12Rise s = .next { s with top := { s.top with vinUp := true } }) ∧
    (s.top.mode ≠ .commit →
      (∃ u, exec (.brownOut (some rail)) s = .next u ∧ Cold 1 s u) ∧
      (s.top.vinUp = true → ∃ u, exec (.brownOut none) s = .next u ∧ Cold 1 s u ∧ u.top.vinUp = false) ∧
      (s.top.rstHeld = false → ∃ u, exec .rstNLow100ms s = .next u ∧ Cold 3 s u ∧ u.top.rstHeld = true)) ∧
    (s.top.mode ≠ .cold → s.top.mode ≠ .commit → exec .powerFailWarning s = .next s.commitStart) ∧
    (s.top.mode = .cold → exec .powerFailWarning s = .next { s with top := { s.top with vinUp := false } }) ∧
    (s.top.mode = .commit → ∃ u, exec .commitEnd s = .next u ∧ Cold 1 s u) ∧
    (s.top.rstHeld = true → exec (.rstNRelease ns) s = .next { s with top := { s.top with rstHeld := false } }) ∧
    (s.top.rstHeld = false → 10000 ≤ ns → ns < 100000000 →
      exec (.rstNRelease ns) s = .next (s.warmReset rstPinWarm none false)) ∧
    (s.top.rstHeld = false → 2000 ≤ ns → ns < 10000 →
      exec (.rstNRelease ns) s = .next (if Config.shortPulseResets s.clk.free then s.useFree.warmReset rstPinWarm none false
        else s.useFree)) ∧
    (s.top.rstHeld = false → ns < 2000 → exec (.rstNRelease ns) s = .next s)

/-- A start goes through TRIM and BOOT (R500, R501, R505, R508): each mode ends in the next one; the GTC runs from valid clocks on,
and BOOT ends in RECOVERY where no slot is accepted. -/
def Obligations.StartsGoThroughTrimAndBoot : Prop :=
  ∀ (fails : BitVec 32) (a b : Bool) (s : State),
    let ok (i : Nat) : Bool := if i = 0 then a else b
    let x := s.pickSlot ok
    (s.top.mode = .restart → (∀ e, e ∈ s.eg.ports → e.2.tx = none ∧ e.2.susp = none) →
      ∃ u, exec .restartQuiesced s = .next u ∧ u.top.mode = .trim ∧ u.threads = [] ∧ u.pkts = [] ∧
        (∀ e, e ∈ u.races → e.2 = { relocV := e.2.relocV }) ∧ u.em = [] ∧ u.clk.gtc = s.clk.gtc ∧ u.dbg.level = 0) ∧
    (s.top.mode = .cold → s.top.rstHeld = false → s.top.vinUp = true →
      ∃ u, exec .clocksValid s = .next u ∧ u.top.mode = .trim ∧ u.clk.run = true ∧ u.clk.gtc = s.clk.gtc ∧
        u.evr.pcyc = (if s.regN aRstCause % 4 = 0 then s.evr.pcyc else (s.evr.pcyc + 1) % 2 ^ 24)) ∧
    (s.top.mode = .trim → exec (.trimApplied fails) s = .next ((s.trimLoads fails.toNat 4 0).setMode .boot)) ∧
    (s.top.mode = .trim → fails.toNat % 2 = 0 →
      ∃ u, exec (.trimApplied fails) s = .next u ∧ u.top.mode = .boot ∧ u.fld aTopStatus 22 2 = 0 ∧ u.top.trimFails = 0) ∧
    (s.top.mode = .boot → x.1 = none → exec (.bootComplete a b) s = .next (x.2.enterMode .recovery).warmOver) ∧
    (∀ i, s.top.mode = .boot → x.1 = some i →
      let t := (x.2.setTop { x.2.top with fwm := { x.2.top.fwm with run := i } }).setFld aTopStatus 19 1 i
      exec (.bootComplete a b) s =
        .next (if t.top.coldStart then t.memInit else t).ucsConfig.patchStart.bootEnd.warmOver)

/-- Clock, lockstep and watchdog failures (R498, R502, R514, R560, R563, R564): each is a safety event with its reaction; GTC copies
follow the master and never run backwards (R22).
That Windshaft's events carry the number of pair 0 is the model's choice (log 100). -/
def Obligations.ClockFailuresAndSynchronisation : Prop :=
  ∀ (pair : Fin 4) (i : Fin 107) (drift : Int) (s : State),
    (s.top.mode ≠ .cold → s.top.mode ≠ .commit → s.top.mode ≠ .halt →
      exec (.windshaftWatchdog pair) s =
        .next (((s.safety (0x380 + pair.val) 0x0241 pair.val 4).setFld aSafStatus 24 3 5).warmReset rstWdt none false)) ∧
    (s.top.mode ≠ .cold → s.top.mode ≠ .commit →
      exec (.lockstepMismatch pair) s =
        .next (((s.safety (0x380 + pair.val) 0x0240 pair.val 3).setFld aSafStatus 24 3 5).warmReset rstLock none false)) ∧
    (s.top.mode ≠ .commit →
      (s.top.resFail0 = false → s.top.resFail1 = false →
        exec (.resonatorFail 0) s =
          .next ((State.safety { s with top := { s.top with resFail0 := true } } srcWindshaft 0x0100 0 7).degrade 30) ∧
        exec (.resonatorFail 1) s =
          .next ((State.safety { s with top := { s.top with resFail1 := true } } srcWindshaft 0x0100 1 7).degrade 30)) ∧
      (s.top.resFail0 = false → s.top.resFail1 = true → exec (.resonatorFail 0) s = exec .bothResonatorsFail s) ∧
      (s.top.resFail0 = false ∨ s.top.resFail1 = false →
        let t := State.safety { s with top := { s.top with resFail0 := true, resFail1 := true, backup := true } }
          srcWindshaft 0x0101 0 7
        exec .bothResonatorsFail s = .next ((t.setFld aSafStatus 24 3 5).warmReset rstClkf (some 4) false))) ∧
    (s.top.mode ≠ .cold → s.top.mode ≠ .commit →
      ∃ u, exec (.islandPllLostLock i) s = .next u ∧ u.regN aSafFault = (s.regN aSafFault ||| 2 ^ 7) ∧
        u.saf.due.length = s.saf.due.length + 1 ∧ u.clk = s.clk ∧ u.top = s.top) ∧
    (s.clk.run = true → s.clk.gtc % 4096 = 0 →
      ∃ u, exec (.gtcSync i drift) s = .next u ∧ u.clk.gtc = s.clk.gtc ∧ s.islGtc i.val ≤ u.islGtc i.val ∧
        u.islGtc i.val = max (s.clk.gtc - (if drift = -1 then 1 else 0))
          (max (s.islGtc i.val) (if 0 < drift then s.clk.gtc + 1 else 0)) ∧
        (-1 ≤ drift → u = { s with clk := u.clk }) ∧
        (drift < -1 → u = State.event { s with clk := u.clk } srcWindshaft 0x0103 i.val))

/-- Partition resets and the link of a partition (R450, R482): the reset drops the link, the partition's foreground commands and
rings at once, its registers and staged values when its work has left, and the link may train again after 100 µs. -/
def Obligations.PartitionsAreResetAndLinkAgain : Prop :=
  ∀ (part : Part) (perst : Bool) (s : State),
    let p := part.val
    let due := (mget (fun _ => ([] : List Nat)) s.host.retDue p).filter (s.holdsBuf p)
    (∃ u, exec (.partitionReset part perst) s = .next u ∧ u.linkUp p = false ∧ u.epoch p = s.epoch p + 1 ∧
      mget zeroN u.host.preset p = 1 ∧ mget zeroN u.host.presetAt p = s.clk.gtc ∧
      mget (fun _ => false) u.host.perst p = perst ∧ (∀ q, q ≠ p → u.linkUp q = s.linkUp q ∧ u.epoch q = s.epoch q) ∧
      u.threads = s.threads ∧ u.mems = s.mems ∧ u.hop = { s.hop with reqs := u.hop.reqs } ∧
      ∀ q, q ∈ u.hop.reqs ↔ q ∈ s.hop.reqs ∧ (∀ c n len src res, q.who = .alloc c n len src res → c.part ≠ p) ∧
        ∀ x j, q.who = .hostTx x j → x ≠ p) ∧
    (mget zeroN s.host.preset p = 1 → mget zeroN s.host.presetAt p + 200000 ≤ s.clk.gtc →
      exec (.partitionResetClear part) s = .next (s.presetClear p)) ∧
    ((∀ d, d ∈ s.liveDescs → d.part = p → ∀ e, e ∈ d.hostBufs → e.1 ∉ due) →
      let t := due.foldl (fun s h => s.bufReturn h) s
      exec (.hostBuffersReturn part) s =
        .next { t with host := { t.host with retDue := mset (fun _ => []) t.host.retDue p [] } }) ∧
    (∃ u, exec (.perstNRelease part) s = .next u ∧ mget (fun _ => false) u.host.perst p = false ∧
      u = { s with host := u.host } ∧ u.host.rings = s.host.rings ∧ u.host.preset = s.host.preset) ∧
    (s.trains p = true → s.linkUp p = false → mget (fun _ => false) s.host.perst p = false →
      mget zeroN s.host.preset p = 0 ∨
        (mget zeroN s.host.preset p = 2 ∧ mget zeroN s.host.presetAt p + 400000 ≤ s.clk.gtc) →
      ∃ u, exec (.pcieLinkUp part) s = .next u ∧ u.linkUp p = true ∧ mget zeroN u.host.preset p = 0 ∧
        (∀ q, q ≠ p → u.linkUp q = s.linkUp q) ∧ u = { s with host := u.host, link := u.link })

/-! ### Rings of the hosts and committed settings -/

/-- A transmit ring from which a descriptor can be taken (R473): its position follows those taken and is not yet TAIL. -/
def Sys2Proof.TxReady (s : State) (p j : Nat) : Prop :=
  s.doorOk p = true ∧ s.runs = true ∧ s.dmaOn (aHstTxq p j) = true ∧
    (s.dmaHead (aHstTxq p j) + (s.txs (p * 64 + j)).length) % 65536 ≠ s.dmaTail (aHstTxq p j)

/-- The descriptor that comes next on a transmit ring. -/
def Sys2Proof.nextTx (s : State) (p j : Nat) : TxDesc :=
  txDesc (s.hostRead p (s.dmaAddr (aHstTxq p j) ((s.dmaHead (aHstTxq p j) + (s.txs (p * 64 + j)).length) % 65536)) 32)

/-- Doorbells and rings (R334, R457, R471 to R473): a doorbell that runs past the ring is ignored and counted; descriptors are
taken in ring order, refused ones with their status, and written back in ring order. -/
def Obligations.RingsAreServedInOrder : Prop :=
  ∀ (part : Part) (ring : Fin 4) (q : Fin 64) (v : Word32) (cells : List Nat) (x : TxSlot) (l : List TxSlot) (y : RxItem)
    (s s1 : State),
    let p := part.val
    let i := ring.val
    let n := v.toNat % 65536
    let a := aHstTxq p q.val
    let b := aHstRxq p q.val
    let key := p * 64 + q.val
    let pos := (s.dmaHead a + (s.txs key).length) % 65536
    let d := nextTx s p q.val
    (s.doorOk p = true → s.cmdOn p i = true →
      (sub16 n (s.cmdCh p i) ≤ s.cmdSize p i →
        exec (.cmdPiDoorbell part ring v) s = .next ((s.setRegN (aHstCmdq p i + 20) n).badHeads p i (s.cmdSize p i))) ∧
      (s.cmdSize p i < sub16 n (s.cmdCh p i) → exec (.cmdPiDoorbell part ring v) s = .next (s.bump (aHstPcnt p 1) 1)) ∧
      (sub16 (s.cmdPi p i) n ≤ s.cmdSize p i →
        exec (.cmdChDoorbell part ring v) s = .next (s.setRegN (aHstCmdq p i + 28) n)) ∧
      (s.cmdSize p i < sub16 (s.cmdPi p i) n → exec (.cmdChDoorbell part ring v) s = .next (s.bump (aHstPcnt p 1) 1))) ∧
    (s.doorOk p = true → s.dmaOn b = true →
      (sub16 v.toNat (s.dmaHead b) ≤ s.dmaSize b → exec (.rxTailDoorbell part q v) s = .next (s.setRegN (b + 12) n)) ∧
      (s.dmaSize b < sub16 v.toNat (s.dmaHead b) →
        exec (.rxTailDoorbell part q v) s = .next (s.bump (aHstPcnt p 1) 1))) ∧
    (s.doorOk p = true → s.dmaOn a = true →
      (sub16 v.toNat (s.dmaHead a) ≤ s.dmaSize a → exec (.txTailDoorbell part q v) s = .next (s.setRegN (a + 12) n)) ∧
      (s.dmaSize a < sub16 v.toNat (s.dmaHead a) →
        exec (.txTailDoorbell part q v) s = .next (s.bump (aHstPcnt p 1) 1))) ∧
    (TxReady s p q.val →
      (s.txHeld p q.val = false → exec (.txDescriptor part q) s = .next (s.txTake p q.val false)) ∧
      (s.txHeld p q.val = false → s.txRefused p d = some stReject →
        ∃ u, exec (.txDescriptor part q) s = .next u ∧
          u.txs key = s.txs key ++ [{ pos := pos, status := some stReject, irq := bitOf d.ctl 3 }] ∧
          u.mems = s.mems ∧ u.races = s.races ∧ u.pkts = s.pkts) ∧
      (s.txHeld p q.val = false → s.txRefused p d = none → d.hb = false ∨ d.inject = true →
        exec (.txDescriptor part q) s = .next (s.askHopper islHost (srcHost p) (4096 + p) (.hostTx p q.val))) ∧
      (s.txHeld p q.val = false → s.txRefused p d = none → d.hb = true → d.inject = false →
        ∃ u, exec (.txDescriptor part q) s = .next u ∧
          u.txs key = s.txs key ++ [{ pos := pos, status := none, irq := bitOf d.ctl 3 }] ∧
          (u.race 0).switch.length = (s.race 0).switch.length + 1 ∧ u.pkts = s.pkts ∧ u.mems = s.mems) ∧
      (s.txRefused p d = none → d.hb = false → d.inject = false →
        s.hostCells p (s.hostRead p d.addr d.len) = .inl (cells, s1) →
        let u := s.txTake p q.val true
        u.txs key = s1.txs key ++ [{ pos := pos, status := some stOk, irq := bitOf d.ctl 3 }] ∧
          (u.pkt s1.nextPkt).frame = s.hostRead p d.addr d.len ∧ (u.pkt s1.nextPkt).cells = cells ∧
          u.nextPkt = s1.nextPkt + 1 ∧ (u.race 0).switch.length = (s1.race 0).switch.length + 1) ∧
      (s.host.txWait.find? (fun k => decide (k / 64 = p)) = some key → s.txRefused p d = some stReject →
        ∃ u, exec (.hostTxRetry part) s = .next u ∧ u.host.txWait = s.host.txWait.erase key ∧
          u.txs key = s.txs key ++ [{ pos := pos, status := some stReject, irq := bitOf d.ctl 3 }] ∧ u.pkts = s.pkts)) ∧
    (s.host.txWait.find? (fun k => decide (k / 64 = p)) = some key →
      exec (.hostTxRetry part) s =
        .next (State.txTake { s with host := { s.host with txWait := s.host.txWait.erase key } } p q.val false)) ∧
    (let read := s.host.txDone.contains (key, x.pos) && !s.liveDescs.any (fun d => decide (d.hostTx = some (key, x.pos)))
     ∀ st, s.txs key = x :: l → (if x.status.isNone && read then some stOk else x.status) = some st → s.doorOk p = true →
      let w := s.hostWrite p (s.dmaAddr a x.pos + 0x1C) [BitVec.ofNat 8 st, 0x80]
      let w := (w.setTxs key l).setRegN (a + 16) ((w.dmaHead a + 1) % 65536)
      let w := { w with host := { w.host with txDone := w.host.txDone.filter (· ≠ (key, x.pos)) } }
      let w := if st = stOk then w.bump (aHstPcnt p 4) 1 else w
      exec (.txWriteback part q) s = .next (if x.irq then w.irq p (68 + q.val) else w)) ∧
    (s.txs key = x :: l → x.status = some stReject → s.doorOk p = true → s.dmaAddr a x.pos + 32 ≤ 2 ^ 64 →
      ∃ u, exec (.txWriteback part q) s = .next u ∧ u.txs key = l ∧ u.dmaHead a = (s.dmaHead a + 1) % 65536 ∧
        u.hostRead p (s.dmaAddr a x.pos + 0x1C) 2 = [BitVec.ofNat 8 stReject, 0x80] ∧
        u.count (aHstPcnt p 4) = s.count (aHstPcnt p 4)) ∧
    (let k := s.pkt y.pkt
     let t := s.takeRx y
     let ready := s.doorOk p = true ∧ s.dmaOn b = true ∧ s.dmaTail b ≠ s.dmaHead b
     s.rx.find? (fun z => z.part = p && z.ring = q.val) = some y → s.runs = true ∨ s.top.mode = .safe →
      (k.bad = true → exec (.rxPacketWrite part q) s = .next (t.rxLeave y)) ∧
      (k.bad = false → ¬ ready → exec (.rxPacketWrite part q) s = .next ((t.bump (aHstPcnt p 2) 1).rxLeave y)) ∧
      (k.bad = false → ready → k.ended = true → k.want = 0 →
        let at_ := s.dmaAddr b (s.dmaHead b)
        let addr := s.hostLe p at_ 8
        let size := s.hostLe p (at_ + 8) 2
        let len := y.frame.length
        let t2 := (t.setRegN (b + 16) ((s.dmaHead b + 1) % 65536)).dmaRead 32
        let fits := addr % 64 = 0 ∧ 64 ≤ size ∧ size ≤ 16384 ∧ size % 64 = 0
        (¬ fits → exec (.rxPacketWrite part q) s =
          .next ((((t2.hostWrite p (at_ + 0x10) (s.rxBack y 0 2)).bump (aHstPcnt p 7) 1).rxLeave y).irq p (4 + q.val))) ∧
        (fits → len ≤ size → exec (.rxPacketWrite part q) s =
          .next ((((t2.hostWrite p addr y.frame).hostWrite p (at_ + 0x10) (s.rxBack y len 0)).rxLeave y).irq p (4 + q.val))) ∧
        (fits → size < len → exec (.rxPacketWrite part q) s =
          .next (((((t2.hostWrite p addr (y.frame.take size)).hostWrite p (at_ + 0x10) (s.rxBack y len 1)).bump
            (aHstPcnt p 3) 1).rxLeave y).irq p (4 + q.val)))))

/-- Staged settings (R378, R410, R477, R478): a COMMIT of settings that pass the block's checks makes the staged words the committed
ones, a refused one changes no setting, and SEQ rises with each; DISCARD copies the other way. -/
def Obligations.StagedSettingsAreCommitted : Prop :=
  ∀ (m : Master) (part : Part) (addr p : Nat) (v : Word32) (s : State),
    let g := aGateCommit part.val
    let cfg := s.regN (aGateStgCfg part.val)
    let n := bitsOf cfg 0 9
    let x := s.portS n
    let list := s.stagedList part.val
    s.mayAct m = true →
    (commitWriter addr = some p → masterIs m p = true →
      (blockOf addr ≠ 0x00A → blockOf addr ≠ 0x00B →
        (s.commitOk addr = true →
          exec (.stagedCommitGo m addr) s = .next (s.blockCommit addr).2 ∧ (s.blockCommit addr).1 = stOk ∧
          (s.blockCommit addr).2.committed = (s.commitIf (s.setOf addr)).committed ∧
          (s.blockCommit addr).2.fld (addr + 4) 0 8 = stOk ∧
          (s.blockCommit addr).2.fld (addr + 4) 8 16 = (s.fld (addr + 4) 8 16 + 1) % 65536) ∧
        (s.commitOk addr = false →
          ∃ u, exec (.stagedCommitGo m addr) s = .next u ∧ u = { s with regs := u.regs } ∧ u.fld (addr + 4) 0 8 = stReject ∧
            u.fld (addr + 4) 8 16 = (s.fld (addr + 4) 8 16 + 1) % 65536 ∧
            ∀ c, c ≠ addr + 4 → u.regN c = s.regN c)) ∧
      ∃ u, exec (.stagedCommitDiscard m addr) s = .next u ∧ u = { s with regs := u.regs } ∧
        u.regs = (s.discardIf (s.setOf addr)).regs) ∧
    (masterIs m part.val = true → bitOf v.toNat 31 = true → s.portOwner n = part.val → bitOf cfg 30 = false → x.pend = none →
      list.en = true → list.wellFormed (bitsOf cfg 16 9) = true →
      (∀ c, c < 8 → list.admits c (s.classSdu n c) (s.portRate n) = true) →
      ∃ u, exec (.gateCommit m part v) s = .next u ∧ (u.portS n).pend = some list ∧
        (u.portS n).chg = list.nextStart ((s.ptpNow + 10000 * nsUnit + nsUnit - 1) / nsUnit) ∧
        (u.portS n).op = x.op ∧ u.fld (g + 4) 0 8 = stOk ∧ (∀ k, k ≠ n → u.portS k = s.portS k)) ∧
    (masterIs m part.val = true → bitOf v.toNat 31 = true → s.portOwner n = part.val → bitOf cfg 30 = true →
      ∃ u, exec (.gateCommit m part v) s = .next u ∧ (u.portS n).pend = none ∧ (u.portS n).op = x.op) ∧
    (masterIs m part.val = true → bitOf v.toNat 31 = true → exec (.gateCommit m part v) s = .next (s.gateCommit part.val).2) ∧
    (masterIs m part.val = true → bitOf v.toNat 31 = false → bitOf v.toNat 30 = true →
      exec (.gateCommit m part v) s = .next (s.discardIf (s.setOf g)) ∧
      exec (.portCommit m part v) s = .next (s.discardIf (s.setOf (aPortCommit part.val)))) ∧
    (masterIs m part.val = true → bitOf v.toNat 31 = true → exec (.portCommit m part v) s = .next (s.portCommit part.val).2)

/-- The word that a rule's command writes: GO, CODE and the rule's index. -/
def Sys2Proof.opWord (v : Word32) : Nat := v.toNat % 2 ^ 14

/-- TCAM rules and queue tables (R193, R194, R365, R388): an operation that passes its checks changes the rule in the
chosen races, or the entry, and answers OK; a refused one changes nothing but its status. -/
def Obligations.RulesAndTableEntriesAreWritten : Prop :=
  ∀ (m : Master) (part : Part) (v : Word32) (s : State),
    let p := part.val
    let code (k : Nat) : State := s.setRegN (aClsTcamStgOp p) (tcamCode v.toNat k &&& 0x70003FFF)
    let i := opWord v
    let t := (v.toNat / 2 ^ 20) % 16
    let e := v.toNat % 2 ^ 20
    let go (wr : Nat) : State := s.setRegN (aQshTaccCtl p) ((putBits (putBits v.toNat 31 1 1) 30 1 wr) &&& 0x40FFFFFF)
    s.mayAct m = true → masterIs m p = true →
    (exec (.tcamWrite m part v) s = .next (((code 0).tcamOp p 0 i).2.setRegN (aClsTcamStgOpstat p) ((code 0).tcamOp p 0 i).1)) ∧
    (exec (.tcamVset m part v) s = .next (((code 1).tcamOp p 1 i).2.setRegN (aClsTcamStgOpstat p) ((code 1).tcamOp p 1 i).1)) ∧
    (exec (.tcamVclr m part v) s = .next (((code 2).tcamOp p 2 i).2.setRegN (aClsTcamStgOpstat p) ((code 2).tcamOp p 2 i).1)) ∧
    (exec (.tcamInvalidate m part v) s =
      .next (((code 3).tcamOp p 3 i).2.setRegN (aClsTcamStgOpstat p) ((code 3).tcamOp p 3 i).1)) ∧
    (∀ k, k < 4 → ((code k).tcamOp p k i).1 ≠ stOk → ((code k).tcamOp p k i).2 = code k) ∧
    (∀ k r, k < 4 → ((code k).tcamOp p k i).1 = stOk → r < 16 →
      let new := ((code k).tcamOp p k i).2.rule r i
      let vm := bitsOf (s.regN (aClsTcamStgRule p)) 8 4
      (bitOf (s.regN (aClsTcamStgRule p)) (16 + r) = false → new = s.rule r i) ∧
      (bitOf (s.regN (aClsTcamStgRule p)) (16 + r) = true →
        (k = 0 → new.valid = true ∧ new.vmask = vm ∧ new.dom = bitsOf (s.regN (aClsTcamStgRule p)) 12 4 ∧
          new.value = s.wide (aClsTcamStgKey p 0) ∧ new.mask = s.wide (aClsTcamStgMask p 0)) ∧
        (k = 1 → new = { s.rule r i with vmask := (s.rule r i).vmask ||| vm }) ∧
        (k = 2 → new = { s.rule r i with vmask := (s.rule r i).vmask &&& (15 - vm) }) ∧
        (k = 3 → new.valid = false))) ∧
    (e < tabSize t → s.ownsEntry p t e = true →
      ∃ u, exec (.taccRead m part v) s = .next u ∧ u.regN (aQshTaccStat p) = stOk ∧
        (∀ w, w < tabWords t → u.regN (aQshTaccData p w) = (go 0).tabRead t e w % 2 ^ 32) ∧ u.tab = s.tab ∧ u = { s with regs := u.regs }) ∧
    (e < tabSize t → t ≠ 9 → s.ownsEntry p t e = true →
      let d := fun (w : Nat) => (go 1).regN (aQshTaccData p w)
      (go 1).formatOk t e d = true → (go 1).namesOwn p t d = true → (go 1).tableBusy t e d = false →
      ∃ u, exec (.taccWrite m part v) s = .next u ∧ u.regN (aQshTaccStat p) = stOk ∧ u.tab = ((go 1).tabWrite t e d).tab ∧
        u.weir = ((go 1).tabWrite t e d).weir ∧ u.mems = s.mems) ∧
    (let no (st : Nat) : State := (go 1).setRegN (aQshTaccStat p) st
     let d := fun (w : Nat) => (go 1).regN (aQshTaccData p w)
     (tabSize t ≤ e ∨ t = 9 → exec (.taccWrite m part v) s = .next (no stReject)) ∧
     (e < tabSize t → t ≠ 9 → s.ownsEntry p t e = false → exec (.taccWrite m part v) s = .next (no stDenied)) ∧
     (e < tabSize t → t ≠ 9 → s.ownsEntry p t e = true →
       ((go 1).formatOk t e d = false → exec (.taccWrite m part v) s = .next (no stReject)) ∧
       ((go 1).formatOk t e d = true → (go 1).namesOwn p t d = false → exec (.taccWrite m part v) s = .next (no stDenied)) ∧
       ((go 1).formatOk t e d = true → (go 1).namesOwn p t d = true → (go 1).tableBusy t e d = true →
         exec (.taccWrite m part v) s = .next (no stBusy))) ∧
     (tabSize t ≤ e → exec (.taccRead m part v) s = .next ((go 0).setRegN (aQshTaccStat p) stReject)) ∧
     (e < tabSize t → s.ownsEntry p t e = false → exec (.taccRead m part v) s = .next ((go 0).setRegN (aQshTaccStat p) stDenied)))

/-! ### Registers -/

/-- A register word whose write has no effect of its own: none of the registers that act when written. -/
def Sys2Proof.Plain (r : RegRow) (w a : Nat) : Prop :=
  commitWriter a = none ∧ (r.base = aPortMod 0 → w ≠ 0) ∧
    r.base ∉ [aQshTaccCtl 0, aClsTcamStgOp 0, aMstLbWdata 0, aMstLbSvc 0, aPtpRate, aPtpStep, aPtpSet, aPtpEecCfg, aTopFwCtl,
      aUcsModeNext 0, aHstDsub 0, aCntSel 0 0, aCntWin, aCntUserRead 0, aPortLanemap 0, aSafStatus, aMstTring 0, aEmtLring 0,
      aHstCmdq 0 0, aHstRxq 0 0, aHstTxq 0 0]

/-- Writes through BAR2 and BAR4 (R456, R457, R651): each byte of an access of BAR2 is checked; a permitted write stores its 4 B, a
refused one changes nothing but what records it, and a write of BAR4 is the doorbell at its offset. -/
def Sys2Proof.ApertureWrites (m : Master) (addr : Nat) (v : Word32) (s : State) : Prop :=
  ∀ (q : Part) (a : Nat), m = .host q →
    (s.bar2Addr q.val addr = some a → s.bar2Ok q.val true a = true →
      ∃ u, exec (.registerWrite m addr v) s = .next u ∧ u = { s with mems := u.mems } ∧ memLe u.mems.dram a 4 = v.toNat ∧
        (∀ k, k < a ∨ a + 4 ≤ k → getByte u.mems.dram k = getByte s.mems.dram k) ∧
        ∀ i, i < 4 → 0xC80000000 + q.val * 0x60000000 ≤ a + i ∧ a + i < 0xC80000000 + (q.val + 1) * 0x60000000) ∧
    (s.bar2Addr q.val addr = some a → s.bar2Ok q.val true a = false →
      exec (.registerWrite m addr v) s = .next (s.deny q.val 3 a)) ∧
    (∀ off, doorOffset addr = some off → exec (.registerWrite m addr v) s = .next (s.bar4Write q.val off v.toNat))

/-- A register write (R12, R454, R455, R458, R648): each bit follows its access type, no other word changes; a word of the program store takes the
value; a write that its master may not make changes nothing and is recorded. BAR2 and BAR4 take writes as R456 and R457 say. -/
def Obligations.WritesFollowTheAccessType : Prop :=
  ∀ (m : Master) (addr a w : Nat) (v : Word32) (r : RegRow) (x : RegWord) (is : List Nat) (s : State),
    s.mayAct m = true → ApertureWrites m addr v s ∧ (s.globalAddr m addr = some a → a % 4 = 0 →
    (progPlace a = none → inEmView a = false → busReg a = some (r, is, w) →
      (inDbg a = false → s.mayWrite m r is = true → s.protects r is = false → r.words[w]? = some x → Plain r w a →
        s.top.fw = none ∨ r.base ∉ [aTopFwAddr, aTopFwLen] → s.valueOk r w v.toNat = true →
        ∃ u, exec (.registerWrite m addr v) s = .next u ∧ u = { s with regs := u.regs } ∧
          (∀ b, b ≠ a → u.reg b = s.reg b) ∧
          ∀ k, k < 32 → bitOf (u.regN a) k =
            (if bitOf (x.w1c) k && v.getLsbD k then false else if bitOf (x.rw ||| x.rws) k then v.getLsbD k
             else bitOf (s.regN a) k)) ∧
      (inDbg a = true ∨ s.mayWrite m r is = false → exec (.registerWrite m addr v) s = .next (s.denyMaster m 2 a)) ∧
      (inDbg a = false → s.mayWrite m r is = true → s.protects r is = false → r.words[w]? = some x → Plain r w a →
        (s.top.fw ≠ none ∧ r.base ∈ [aTopFwAddr, aTopFwLen]) ∨ s.valueOk r w v.toNat = false →
        exec (.registerWrite m addr v) s = .next s) ∧
      (inDbg a = false → s.mayWrite m r is = true → s.protects r is = true →
        exec (.registerWrite m addr v) s = .next (s.bump (aClsWprotCnt (readerOf m % 4)) 1))) ∧
    (∀ banks bank off, progPlace a = some (banks, bank, off) →
      (∀ p, m = .host p → inRange (progRange s.committed p.val) (off / 4096) = true) →
      ∃ u, exec (.registerWrite m addr v) s = .next u ∧ u = { s with mems := u.mems } ∧
        (∀ b, b ∈ banks → memLe u.mems.prog (bankBase b + off) 4 = v.toNat ∧ bankBase b + off ∉ u.mems.progBad) ∧
        (∀ k, (∀ b, b ∈ banks → k < bankBase b + off ∨ bankBase b + off + 4 ≤ k) →
          getByte u.mems.prog k = getByte s.mems.prog k)) ∧
    (∀ banks bank off, ∀ p : Part, progPlace a = some (banks, bank, off) → m = .host p →
      inRange (progRange s.committed p.val) (off / 4096) = false →
      exec (.registerWrite m addr v) s = .next (s.deny p.val 2 a)) ∧
    (∀ p : Part, ∃ u, u = s.deny p.val 2 a ∧ u.regN (aHstDeny p.val + 4) = a % 2 ^ 32 ∧ u.regN (aHstDeny p.val + 12) = 2 ∧
      u.mems = s.mems ∧ u.committed = s.committed))

/-- Writes with an effect of their own (R94, R308 to R314, R408, R488, R524, R527, R538): the register takes the value, and what follows from
it is done at once; a value that the register does not allow changes nothing. -/
def Obligations.WritesActAtOnce : Prop :=
  ∀ (m : Master) (word : Fin 6) (part : Part) (hi : Bool) (u : Fin 107) (sel : Fin 16) (win : Fin 4) (port : PortId)
    (svc : Fin 1024) (v : Word32) (s : State),
    let p := part.val
    let n := port.val
    let d := aHstDsub p + 4 * (if hi then 1 else 0)
    let t := s.setRegN d (v.toNat &&& 0x0FFF0FFF)
    let range (q k : Nat) := (bitsOf (t.regN (aHstDsub q + 4 * k)) 0 12, bitsOf (t.regN (aHstDsub q + 4 * k)) 16 12)
    let c := aCntSel u.val sel.val
    let lbw := s.regN (aMstLbWaddr p)
    let g := s.regN (aCntWin + 4 * (win.val - 1)) + v.toNat * 2 ^ 32
    s.mayAct m = true →
    (masterIs m 0 = true →
      (∃ z, exec (.ucsModeNextWrite m word v) s = .next z ∧ z.reg (aUcsModeNext word.val) = v ∧ z.ucs.modeBad = false ∧
        z = { s with regs := z.regs, ucs := z.ucs }) ∧
      ((∀ q k l, q < 4 → q ≠ p → k < 2 → l < 2 → rangesMeet (range p k) (range q l) = false) →
        exec (.hstDsubWrite m part hi v) s = .next t) ∧
      (∀ q k l, q < 4 → q ≠ p → k < 2 → l < 2 → rangesMeet (range p k) (range q l) = true →
        exec (.hstDsubWrite m part hi v) s = .next s) ∧
      (sel.val < unitCounters u.val → selOk u.val v.toNat = true →
        ∃ z, exec (.cntSelWrite m u sel v) s = .next z ∧ z.regN c = v.toNat &&& 0xF3FFFFFF ∧
          z.count (aCntVal u.val sel.val) =
            (if bitOf v.toNat 31 && !bitOf (s.regN c) 31 then 0 else s.count (aCntVal u.val sel.val)) ∧
          z = { s with regs := z.regs, cnt := z.cnt }) ∧
      (sel.val < unitCounters u.val → selOk u.val v.toNat = false → exec (.cntSelWrite m u sel v) s = .next s) ∧
      (win.val % 2 = 0 → exec (.cntWinWrite m win v) s = .next (s.setReg (aCntWin + 4 * win.val) v)) ∧
      (win.val % 2 = 1 → g ≤ s.clk.gtc →
        ∃ z n, exec (.cntWinWrite m win v) s = .next z ∧ (n = g ∨ n = 2 ^ 64 - 1) ∧
          z.coll = (if win.val = 1 then { s.coll with winStart := n } else { s.coll with winStop := n }) ∧
          z = { s with coll := z.coll, regs := z.regs, clk := { s.clk with free := s.clk.free + 1 } }) ∧
      (win.val % 2 = 1 → s.clk.gtc < g →
        ∃ z, exec (.cntWinWrite m win v) s = .next z ∧
          z.coll = (if win.val = 1 then { s.coll with winStart := g } else { s.coll with winStop := g }) ∧
          z = { s with coll := z.coll, regs := z.regs }) ∧
      (∃ z, exec (.cntUserReadWrite m part v) s = .next z ∧ z.regN (aCntUserRead p) = v.toNat &&& 0x80000003 ∧
        (z.userMay p (s.stream p 1).cfg.pages = false → (z.stream p 1).en = false))) ∧
    (s.mayWrite m rowPortLanemap [n] = true → s.portEn n = false ∨ s.regN (aPortLanemap n) = v.toNat % 2 ^ 24 →
      exec (.lanemapWrite m port v) s = .next (s.setRegN (aPortLanemap n) (v.toNat % 2 ^ 24))) ∧
    (s.mayWrite m rowPortLanemap [n] = true → s.portEn n = true → s.regN (aPortLanemap n) ≠ v.toNat % 2 ^ 24 →
      let z := (s.setRegN (aPortLanemap n) (v.toNat % 2 ^ 24)).useFree
      exec (.lanemapWrite m port v) s = .next z ∨ exec (.lanemapWrite m port v) s = .next (z.linkFall n)) ∧
    (masterIs m p = true →
      exec (.lbWdataWrite m part false v) s = .next (s.setReg (aMstLbWdata p) v) ∧
      (inRange (lbRange s.committed p) (bitsOf lbw 14 10) = true →
        bitOf (s.regN (aMstLbSvc (bitsOf lbw 14 10))) 31 = false ∨
          bitsOf (s.regN (aMstLbSvc (bitsOf lbw 14 10))) 0 1 ≠ bitsOf lbw 24 1 →
        ∃ z, exec (.lbWdataWrite m part true v) s = .next z ∧
          mget zero64 z.mst.lb ((bitsOf lbw 24 1 * 1024 + bitsOf lbw 14 10) * 16384 + bitsOf lbw 0 14) =
            BitVec.ofNat 64 (s.regN (aMstLbWdata p) + v.toNat * 2 ^ 32) ∧
          (∀ k, k ≠ (bitsOf lbw 24 1 * 1024 + bitsOf lbw 14 10) * 16384 + bitsOf lbw 0 14 →
            mget zero64 z.mst.lb k = mget zero64 s.mst.lb k) ∧
          z.fld (aMstLbWaddr p) 0 14 = (bitsOf lbw 0 14 + 1) % 16384) ∧
      (inRange (lbRange s.committed p) (bitsOf lbw 14 10) = false ∨
          (bitOf (s.regN (aMstLbSvc (bitsOf lbw 14 10))) 31 = true ∧
            bitsOf (s.regN (aMstLbSvc (bitsOf lbw 14 10))) 0 1 = bitsOf lbw 24 1) →
        ∃ z, exec (.lbWdataWrite m part true v) s = .next z ∧ z.mst = s.mst ∧
          z = (s.setFld (aMstLbWaddr p) 0 14 (bitsOf lbw 0 14 + 1)).bump (aMstLbCnt p 3) 1)) ∧
    (∀ q : Part, m = .host q → inRange (lbRange s.committed q.val) svc.val = false →
      exec (.lbSvcWrite m svc v) s = .next (s.bump (aMstLbCnt q.val 3) 1)) ∧
    ((∀ q : Part, m = .host q → inRange (lbRange s.committed q.val) svc.val = true) →
      exec (.lbSvcWrite m svc v) s = .next (s.setRegN (aMstLbSvc svc.val) (v.toNat &&& 0x80000001)))

/-- What a read returned to its reader. -/
def Sys2Proof.got (u : State) (m : Master) : Nat := (mget zero32 u.rdata (readerOf m)).toNat

/-- Reads (R10, R176, R425, R429, R433, R437, R444, R456, R492): a read of a low word latches the high word for its own reader; a
read of word 0 of a capture latches the other words; a read clears what it is said to clear, and changes nothing else. A read of
BAR2 gives 4 B of DRAM or is refused, and one of BAR4 gives 0. -/
def Obligations.ReadsReturnAndLatch : Prop :=
  ∀ (m : Master) (addr a w : Nat) (r : RegRow) (is : List Nat) (part : Part) (race : RaceId) (port : PortId)
    (e : TsqEntry) (l : List TsqEntry) (s : State),
    let p := part.val
    let only (u : State) : Prop := u = { s with latch := u.latch, rdata := u.rdata }
    let now := ptpSplit s.ptpNow
    let pps := ptpSplit s.ptp.ppsTotal
    s.reaches m = true →
    (∀ q : Part, m = .host q →
      (s.bar2Addr q.val addr = some a → s.bar2Ok q.val false a = true →
        ∃ u, exec (.lowWordReadLatch m addr) s = .next u ∧ got u m = (s.bar2Read q.val a).1 % 2 ^ 32 ∧
          (¬ (s.top.mode = .service ∧ a < 0x400000000) → got u m = s.dramWord4 a ∧ only u) ∧ u.mems = s.mems) ∧
      (s.bar2Addr q.val addr = some a → s.bar2Ok q.val false a = false →
        ∃ u, exec (.lowWordReadLatch m addr) s = .next u ∧ got u m = 0 ∧
          u = { s.deny q.val 3 a with rdata := u.rdata }) ∧
      ((doorOffset addr).isSome = true →
        ∃ u, exec (.lowWordReadLatch m addr) s = .next u ∧ got u m = 0 ∧ u = { s with rdata := u.rdata })) ∧
    (s.globalAddr m addr = some a → a % 4 = 0 → progPlace a = none → inEmView a = false → inDbg a = false →
      busReg a = some (r, is, w) → s.mayRead m r (is.headD 0) = true → hidesSeed m r = false → r.wide = true →
      r.base ∉ effectReads →
      (w % 2 = 0 → ∃ u, exec (.lowWordReadLatch m addr) s = .next u ∧ got u m = s.regValue m r is w a % 2 ^ 32 ∧
        u.latched m (a + 4) = s.regValue m r is (w + 1) (a + 4) % 2 ^ 32 ∧ only u) ∧
      (w % 2 = 1 → ∃ u, exec (.lowWordReadLatch m addr) s = .next u ∧ got u m = s.latched m a ∧ only u)) ∧
    (s.mayRead m rowPtpCapture 0 = true →
      ∃ u, exec (.ptpCaptureRead m) s = .next u ∧ got u m = ptpFrac s.ptpNow % 2 ^ 32 ∧
        u.latched m (aPtpCapture + 4) = now.2 % 2 ^ 32 ∧ u.latched m (aPtpCapture + 8) = now.1 % 2 ^ 32 ∧
        u.latched m (aPtpCapture + 12) = now.1 / 2 ^ 32 % 2 ^ 32 ∧
        u.latched m (aPtpCapture + 16) = s.clk.gtc % 2 ^ 32 ∧
        u.latched m (aPtpCapture + 20) = s.clk.gtc / 2 ^ 32 % 2 ^ 32 ∧ only u) ∧
    (s.mayRead m rowPtpTsq p = true →
      (mget (fun _ => ([] : List TsqEntry)) s.ptp.tsq p = e :: l →
        ∃ u, exec (.ptpTsqPop m part) s = .next u ∧ got u m = e.word % 2 ^ 32 ∧
          mget (fun _ => ([] : List TsqEntry)) u.ptp.tsq p = l ∧
          mget (fun _ => ((0, 0) : Nat × Nat)) u.ptp.tsqLast p = (e.secs, e.ns) ∧ u = { s with ptp := u.ptp, rdata := u.rdata }) ∧
      (mget (fun _ => ([] : List TsqEntry)) s.ptp.tsq p = [] →
        ∃ u, exec (.ptpTsqPop m part) s = .next u ∧ got u m = 0 ∧ only u)) ∧
    (s.mayRead m (rowHstDeny) p = true →
      ∃ u, exec (.hstDenyRead m part) s = .next u ∧ got u m = s.regN (aHstDeny p) ∧
        u.latched m (aHstDeny p + 4) = s.regN (aHstDeny p + 4) ∧
        u.latched m (aHstDeny p + 8) = s.regN (aHstDeny p + 8) ∧
        u.latched m (aHstDeny p + 12) = s.regN (aHstDeny p + 12) ∧ only u) ∧
    (s.mayRead m rowPtpPpsin 0 = true →
      ∃ u, exec (.ptpPpsinRead m) s = .next u ∧ got u m = pps.2 % 2 ^ 32 ∧ u.latched m (aPtpPpsin + 4) = pps.1 % 2 ^ 32 ∧
        u.latched m (aPtpPpsin + 8) = (pps.1 / 2 ^ 32 + s.ptp.ppsCnt % 65536 * 65536) % 2 ^ 32 ∧
        u.latched m (aPtpPpsin + 12) = (s.ptp.ppsGtc - 1) % 2 ^ 32 ∧ only u) ∧
    (s.mayRead m rowPtpTodRx 0 = true → s.ptp.todRx = none →
      ∃ u, exec (.ptpTodRxRead m) s = .next u ∧ got u m = 0 ∧ u.latched m (aPtpTodRx + 20) = s.ptp.todBad % 2 ^ 32 ∧ only u) ∧
    (∀ b g, s.mayRead m rowPtpTodRx 0 = true → s.ptp.todRx = some (b, g) →
      ∃ u, exec (.ptpTodRxRead m) s = .next u ∧
        got u m = (2 ^ 31 + beNat ((b.drop 12).take 1) * 65536 + beNat ((b.drop 10).take 2)) % 2 ^ 32 ∧
        u.latched m (aPtpTodRx + 4) = beNat ((b.drop 4).take 6) % 2 ^ 32 ∧
        u.latched m (aPtpTodRx + 12) = g % 2 ^ 32 ∧ only u) ∧
    (s.mayRead m rowRaceRobStatus race.val = true →
      ∃ u, exec (.robStatusRead m race) s = .next u ∧ (u.race race.val).robMax = (s.race race.val).rob.length ∧
        got u m = (s.race race.val).robMax % 8192 * 65536 + (s.race race.val).rob.length % 8192 ∧
        (u.race race.val).rob = (s.race race.val).rob ∧ u = { s with races := u.races, rdata := u.rdata }) ∧
    (s.mayRead m rowPortStatus port.val = true →
      ∃ u, exec (.portStatusRead m port) s = .next u ∧ (u.portS port.val).linkDn = 0 ∧
        got u m = s.portStatus port.val % 2 ^ 32 ∧ (u.portS port.val).link = (s.portS port.val).link ∧
        u = { s with eg := u.eg, rdata := u.rdata })

/-! ### Network time -/

/-- PTP writes, their instant, the time pins and the equipment clock (R422 to R424, R430 to R437): a change is requested when written
and applied at the next multiple of 4 096 of the GTC; edges capture or give the time. -/
def Obligations.NetworkTimeIsSetAndShown : Prop :=
  ∀ (m : Master) (v : Word32) (bytes : List Byte) (g : Nat) (r ns : Int) (secs n : Nat) (l : List (Nat × PtpChange)) (s : State),
    let g0 := s.clk.gtc
    let pends (u : State) (c : PtpChange) : Prop := u.ptp.pend = s.ptp.pend ++ [(g0, c)] ∧ u.ptp.total = s.ptp.total ∧
      u = { s with ptp := u.ptp, regs := u.regs }
    let due := (g / 4096 + 1) * 4096
    (s.mayAct m = true → masterIs m 0 = true →
      exec (.ptpRateWrite m false v) s = .next (s.setReg aPtpRate v) ∧
      (s.ptp.pend.any (fun e => clashes e.1 g0 e.2 (.rate 0)) = false →
        ∃ u, exec (.ptpRateWrite m true v) s = .next u ∧
          pends u (.rate (BitVec.ofNat 48 (s.regN aPtpRate + v.toNat % 65536 * 2 ^ 32)).toInt)) ∧
      (s.ptp.pend.any (fun e => clashes e.1 g0 e.2 (.step 0)) = false →
        ∃ u, exec (.ptpStepWrite m v) s = .next u ∧ pends u (.step v.toInt)) ∧
      (s.ptp.pend.any (fun e => clashes e.1 g0 e.2 (.step 0)) = true →
        ∃ u, exec (.ptpStepWrite m v) s = .next u ∧ (∀ e, e ∈ u.ptp.pend → e ∈ s.ptp.pend ∨ e = (g0, .step v.toInt)) ∧
          u.ptp.total = s.ptp.total ∧ u = { s with ptp := u.ptp, regs := u.regs, clk := u.clk }) ∧
      (s.ptp.pend.any (fun e => clashes e.1 g0 e.2 (.rate 0)) = true →
        ∃ u, exec (.ptpRateWrite m true v) s = .next u ∧ u.ptp.total = s.ptp.total ∧ u.ptp.rate = s.ptp.rate ∧
          u = { s with ptp := u.ptp, regs := u.regs, clk := u.clk }) ∧
      (v.getLsbD 31 = false → exec (.ptpSetWrite m 2 v) s = .next (s.setRegN (aPtpSet + 8) (v.toNat % 65536))) ∧
      exec (.ptpSetWrite m 0 v) s = .next (s.setRegN aPtpSet (v.toNat % 2 ^ 30)) ∧
      exec (.ptpSetWrite m 1 v) s = .next (s.setReg (aPtpSet + 4) v) ∧
      (v.getLsbD 31 = true → ∃ u, exec (.ptpSetWrite m 2 v) s = .next u ∧
        pends u (.set (s.regN (aPtpSet + 4) + v.toNat % 65536 * 2 ^ 32) (s.regN aPtpSet))) ∧
      (∃ u, exec (.eecCfgWrite m v) s = .next u ∧ u.regN aPtpEecCfg = v.toNat &&& 0xCE0001FF ∧
        (v.getLsbD 31 = false → u.ptp.eec = 0) ∧ (v.getLsbD 31 = true → s.ptp.eec ≠ 2 → u.ptp.eec = 1))) ∧
    (due ≤ g0 →
      (s.ptp.pend = (g, .rate r) :: l → ∃ u, exec .ptpChangeApply s = .next u ∧ u.ptp.rate = r ∧ u.ptp.pend = l ∧
        u.ptp.total = s.ptpTotal due ∧ u.ptp.at_ = due ∧ u.ptp.steps = s.ptp.steps) ∧
      (s.ptp.pend = (g, .step ns) :: l → ∃ u, exec .ptpChangeApply s = .next u ∧ u.ptp.pend = l ∧
        u.ptp.total = (((s.ptpTotal due : Int) + ns * (nsUnit : Int)) % (ptpWrap : Int)).toNat ∧ u.ptp.at_ = due ∧
        u.ptp.steps = (s.ptp.steps + 1) % 65536 ∧ u.ptp.rate = s.ptp.rate) ∧
      (s.ptp.pend = (g, .set secs n) :: l → ∃ u, exec .ptpChangeApply s = .next u ∧ u.ptp.pend = l ∧ u.ptp.set_ = true ∧
        u.ptp.total = (secs * secUnit + n * nsUnit) % ptpWrap ∧ u.ptp.at_ = due)) ∧
    (s.clk.run = true → s.ptp.ppsGtc = 0 ∨ s.ptp.ppsGtc - 1 + 2000000000 ≤ g0 →
      exec .ppsInEdge s = .next { s with ptp := { s.ptp with
        ppsTotal := s.ptpNow, ppsGtc := g0 + 1, ppsCnt := (s.ptp.ppsCnt + 1) % 65536 } }) ∧
    (s.clk.run = true → (s.reg aPtpPpsout).getLsbD 31 = true → s.ppsTime % secUnit * 2 < 5 * nsUnit →
      s.ptp.ppsSec = 0 ∨ s.ptp.ppsOutGtc + 400000000 ≤ g0 →
      ∃ u, exec .ppsOutEdge s = .next u ∧ u.ptp.ppsOutGtc = g0 ∧ u.ptp.ppsSec = s.ppsTime / secUnit + 1 ∧
        u.ptp.todDue = (s.reg aPtpTodTx).getLsbD 31 ∧ u = { s with ptp := u.ptp }) ∧
    (s.ptp.todDue = true → (s.reg aPtpTodTx).getLsbD 31 = true → (s.reg aPtpPpsout).getLsbD 31 = true →
      s.ptp.ppsOutGtc + 4000000 ≤ g0 →
      exec .todTxMessage s = .next { s with ptp := { s.ptp with
        todDue := false, todSent := s.ptp.todSent ++ [s.todMessage (s.ptp.ppsSec - 1)] } }) ∧
    (todOk bytes = true → exec (.todRxMessage bytes) s =
      .next { s with ptp := { s.ptp with todRx := some (bytes, g0 - 6250000) } }) ∧
    (todOk bytes = false → exec (.todRxMessage bytes) s = .next { s with ptp := { s.ptp with todBad := s.ptp.todBad + 1 } }) ∧
    (s.ptp.eec = 1 → ∃ u, exec .eecLocked s = .next u ∧ u.ptp.eec = 2 ∧ u = { s with ptp := u.ptp, regs := u.regs, clk := u.clk }) ∧
    (s.ptp.eec = 1 ∨ s.ptp.eec = 2 →
      exec .eecReferenceLoss s = .next (State.irq { s with ptp := { s.ptp with eec := 3 } } 0 135))

/-! ### Firmware, safety and SMBus -/

/-- The firmware loader (R509, R510, R519): a write, selection or activation of a slot starts where the mode allows it, one at a
time; it is refused elsewhere, and ends with its status. -/
def Obligations.FirmwareSlotsAreLoaded : Prop :=
  ∀ (m : Master) (slot : Bool) (ok : Bool) (o : FwOp) (s : State),
    let i := if slot then 1 else 0
    let up := modeB s.top.mode
    let len := s.regN aTopFwLen
    let addr := s.regN aTopFwAddr + s.regN (aTopFwAddr + 4) * 2 ^ 32
    let f := s.top.fwm
    (s.mayAct m = true → masterIs m 0 = true → s.top.fw = none →
      (up = true ∨ s.top.mode = .recovery → (up = true → i ≠ f.run) → s.regN aTopFwAddr % 4096 = 0 → len ≤ 0x03000000 →
        ∃ u, exec (.fwWrite m slot) s = .next u ∧ u.top.fw = some { op := 1, slot := i } ∧ u.top.fwm = f ∧ u.mems = s.mems) ∧
      (up = true ∨ s.top.mode = .recovery →
        ∃ u, exec (.fwSelect m slot) s = .next u ∧ u.top.fwm = { f with pref := i } ∧ u.top.fw = none ∧
          u.top.fwStatus = stOk ∧ u.top.mode = s.top.mode) ∧
      (up = true → ∃ u, exec (.fwActivate m slot) s = .next u ∧ u.top.fw = some { op := 3, slot := i } ∧ u.top.fwm = f)) ∧
    (∀ j, j < 2 → s.top.fw = some { op := 1, slot := j } →
      (∃ u, exec (.fwOperationDone (some true)) s = .next u ∧ u.top.fw = none ∧ u.top.fwStatus = stOk ∧
        mget noBytesAt u.top.fwm.slots j = s.hostRead 0 addr len ∧
        (∀ k, k ≠ j → mget noBytesAt u.top.fwm.slots k = mget noBytesAt f.slots k) ∧ OnlyCounters { s with top := u.top } u) ∧
      exec (.fwOperationDone (some false)) s = .next { s with top := { s.top with fw := none, fwStatus := stReject } } ∧
      exec (.fwOperationDone none) s = .next { s with top := { s.top with fw := none, fwStatus := stTimeout } }) ∧
    (s.top.fw = some o → o.op ≠ 1 →
      (∃ u, exec (.fwOperationDone (some true)) s = .next u ∧ u.top.fw = none ∧ u.top.fwStatus = stOk ∧
        u.top.fwm.run = o.slot ∧ u.top.fwm.pref = o.slot ∧ u.fld aTopStatus 19 1 = o.slot % 2) ∧
      exec (.fwOperationDone (some false)) s = .next { s with top := { s.top with fw := none, fwStatus := stReject } }) ∧
    (s.top.fw = none → exec (.fwOperationDone (some ok)) s = .next s)

/-- Diagnostics (R114, R560 to R563): heartbeats are posted and judged, a faulty rule is rewritten or lost, and what a
failure does depends on where it lies; the monitor's decisions are applied one after another. What counts a heartbeat's probe is the model's choice (log 109). -/
def Obligations.DiagnosticsDetectAndReact : Prop :=
  ∀ (race : RaceId) (cluster : ClusterId) (engine : EngineId) (port : PortId) (i : Nat) (ok : Bool) (d : Due) (l : List Due)
    (s : State),
    let k := 12 * race.val + cluster.val
    let x := 17 * k + engine.val
    let live := s.clk.run = true ∧ s.top.mode ≠ .halt ∧ s.top.mode ≠ .commit
    (s.runs = true → s.hbTakes k engine.val = true →
      exec (.heartbeatRun race cluster engine (some ok)) s =
        .next { s.probe with saf := { s.saf with hb := mset zeroN s.saf.hb x (if ok then 1 else 2) } } ∧
      ∃ u, exec (.heartbeatRun race cluster engine none) s = .next u ∧ x ∈ u.saf.excused ∧ u = { s.probe with saf := u.saf }) ∧
    (s.runs = true → max s.saf.hbAt s.top.resumeGtc + 1000000 ≤ s.clk.gtc →
      exec .heartbeatCheck s = .next ((upTo 192).foldl (fun u k => (upTo 17).foldl (fun u e =>
        u.hbVerdict s.saf.hb s.saf.excused k e) u) { s with saf := { s.saf with hb := [], excused := [], hbAt := s.clk.gtc } })) ∧
    (s.clk.run = true → (s.rule race.val i).err = true →
      ∃ u, exec (.tcamScan race i ok) s = .next u ∧ (u.rule race.val i).err = false ∧
        (u.rule race.val i).valid = ((s.rule race.val i).valid && ok) ∧ (u.rule race.val i).value = (s.rule race.val i).value ∧
        u.regN aSafFault = (s.regN aSafFault ||| 2 ^ 5) ∧ u.cls.lpm = s.cls.lpm) ∧
    (live →
      (∃ u, exec (.safetyReaction (some (.residue race cluster engine))) s = .next u ∧
        u = (s.safety (srcCluster race.val cluster.val) 0x0201 (k + engine.val * 65536) 1).reactB k engine.val) ∧
      (∀ t, (s.thr (thrNum t)).ctx.isSome = true →
        ∃ u, exec (.safetyReaction (some (.thread t))) s = .next u ∧ (u.thr (thrNum t)).ints.ecc = true ∧
          (∀ n, n ≠ thrNum t → u.thr n = s.thr n) ∧ u = { s with threads := u.threads }) ∧
      (∃ u, exec (.safetyReaction (some (.program i))) s = .next u ∧ i / 4 * 4 ∈ u.mems.progBad ∧
        u.mems.prog = s.mems.prog ∧ u = { s with mems := u.mems }) ∧
      ((s.portS port.val).tx.isSome = true → s.fld aSafCfg 0 8 = 0 →
        ∃ u, exec (.safetyReaction (some (.crc32c port))) s = .next u ∧
          (u.portS port.val).tx = (s.portS port.val).tx.map (fun t => { t with crcBad := true }) ∧
          u.regN aSafFault = (s.regN aSafFault ||| 1)) ∧
      (s.saf.due = d :: l →
        exec (.safetyReaction none) s =
          .next (if d.blockReaction then State.reactC { s with saf := { s.saf with due := l } } d.kind d.index
                 else State.reactD { s with saf := { s.saf with due := l } } d.code)) ∧
      (s.saf.due = [] → exec (.safetyReaction none) s = .next s)) ∧
    (∃ u, u = s.safety i 0x0220 0 5 ∧ u.regN aSafLast = (0x0220 + i % 4096 * 65536) % 2 ^ 32 ∧
      u.regN (aSafLast + 4) = s.clk.gtc % 2 ^ 32 ∧ u.regN (aSafLast + 8) = s.clk.gtc / 2 ^ 32 % 2 ^ 32 ∧
      bitOf u.smb.latch 2 = true)

/-- Windshaft's timed duties (R540, R559, R569 to R575, R591, R617): the alive count, operating seconds, power and temperature readings with their
alert, and the round of ageing measurements. -/
def Obligations.WindshaftKeepsItsTimes : Prop :=
  ∀ (vin iin pin tj : Half) (island : Fin 107) (isl : List (Nat × Nat × Nat × Nat)) (can : List (Nat × Nat)) (s : State),
    (s.clk.run = true → s.top.mode ≠ .halt → s.top.mode ≠ .commit → s.saf.aliveAt + 400000 ≤ s.clk.gtc →
      ∃ u, exec .safAliveTick s = .next u ∧ u.reg aSafAlive = s.reg aSafAlive + 1 ∧ u.saf.aliveAt = s.saf.aliveAt + 400000 ∧
        u = { s with saf := u.saf, regs := u.regs }) ∧
    (s.clk.run = true → s.saf.optAt + second ≤ s.clk.gtc →
      exec .optimeTick s = .next { s with
        saf := { s.saf with optAt := s.saf.optAt + second }, evr := { s.evr with optime := s.evr.optime + 1 } }) ∧
    (s.clk.run = true → s.top.mode ≠ .commit → s.saf.powerAt + 4000000 ≤ s.clk.gtc →
      ∃ u, exec (.powerMonitorUpdate vin iin pin tj island) s = .next u ∧ u.regN aTopPwr = vin.toNat ∧
        u.regN (aTopPwr + 4) = iin.toNat ∧ u.regN (aTopPwr + 8) = tj.toNat + island.val * 65536 ∧
        u.regN (aTopPwr + 12) = pin.toNat ∧ u.saf.powerAt = s.clk.gtc ∧
        u.smb.hot = decide ((BitVec.ofNat 16 (s.fld aTopTalert 0 16)).toInt < tj.toInt) ∧ u.top = s.top) ∧
    (modeB s.top.mode = true → s.saf.ageAt = 0 ∨ s.saf.ageAt + 600 * second ≤ s.clk.gtc + 1 →
      ∃ u, exec (.ageingMeasure isl can) s = .next u ∧ u.saf.ageAt = s.clk.gtc + 1 ∧
        (∀ e, e ∈ s.saf.swapDue → e ∈ u.saf.swapDue) ∧ u.top.mode = s.top.mode ∧ u.mems = s.mems)

/-- The SMBus target (R615, R616): it answers in every mode but COMMIT while there is power; a write of LATCH clears bits, and
ALERT_N is low only while a bit is set in both LATCH and MASK. -/
def Obligations.SmbusAnswersAndAlerts : Prop :=
  ∀ (v w : Half) (s : State),
    let shows (n : Nat) : Host.Outcome State Fault Refusal := .next { s with smb := { s.smb with out := n } }
    s.top.mode ≠ .commit → s.top.vinUp = true →
    exec .smbusMode s = shows (modeCode s.top.mode) ∧ exec (.smbusLatch false v) s = shows s.smb.latch ∧
    exec (.smbusMask false v) s = shows s.smb.mask ∧ exec .smbusVin s = shows (s.regN aTopPwr % 65536) ∧
    exec .smbusIin s = shows (s.regN (aTopPwr + 4) % 65536) ∧ exec .smbusPin s = shows (s.regN (aTopPwr + 12) % 65536) ∧
    exec .smbusTjmax s = shows (s.regN (aTopPwr + 8) % 65536) ∧
    exec (.smbusTalert false v) s = shows (s.regN aTopTalert % 65536) ∧
    exec .smbusOphours s = shows (s.evr.optime % 3600 * 2 ^ 20 + s.evr.optime / 3600 % 2 ^ 20) ∧
    exec .smbusPcyc s = shows (s.evr.pcyc % 2 ^ 24) ∧ exec .smbusPart s = shows 0x5120 ∧
    (∃ u, exec (.smbusTalert true v) s = .next u ∧ u.fld aTopTalert 0 16 = v.toNat ∧ u = { s with regs := u.regs }) ∧
    (∃ u, exec (.smbusLatch true v) s = .next u ∧ u = { s with smb := u.smb } ∧ u.smb.mask = s.smb.mask ∧
      (∀ k, k < 16 → bitOf u.smb.latch k = (bitOf s.smb.latch k && !v.getLsbD k)) ∧
      u.smb.alert = (s.smb.alert && u.smb.latch &&& s.smb.mask != 0)) ∧
    (∃ u, exec (.smbusMask true w) s = .next u ∧ u.smb.mask = w.toNat % 256 ∧ u.smb.latch = s.smb.latch ∧
      u = { s with smb := u.smb } ∧ (s.smb.latch &&& u.smb.mask = 0 → u.smb.alert = false) ∧
      ((∃ k, k < 8 ∧ w.getLsbD k = true ∧ bitOf s.smb.mask k = false ∧ bitOf s.smb.latch k = true) → u.smb.alert = true)) ∧
    (s.smb.alert = true →
      exec .smbusAlertResponse s = .next { s with smb := { s.smb with out := 0x5C, alert := false } }) ∧
    (s.smb.alert = false → exec .smbusAlertResponse s = .next s)

/-! ### The debug port -/

/-- TAP instructions and EACC (R620 to R625, R639): the instructions that drive pins do so at USER level in READY or SAFE and act as BYPASS
elsewhere; TRST_N ends the session; EACC answers ERROR, DENIED or OK. -/
def Obligations.TheTapSelectsAndAccesses : Prop :=
  ∀ (o v : Word32) (r : RegRow) (w : Nat) (is : List Nat) (x : RegWord) (s : State),
    let may := 1 ≤ s.dbg.level ∧ (s.top.mode = .ready ∨ s.top.mode = .safe)
    let sel (ir : Nat) (pins : Bool) (dr : Nat) : Host.Outcome State Fault Refusal :=
      .next { s with dbg := { s.dbg with ir := ir, pins := pins, dr := dr } }
    let t : State := { s with dbg := { s.dbg with ir := 0x20, pins := false, dr := 0 } }
    let ends (u : State) (st data : Nat) : Prop := u.dbg.eStatus = st ∧ u.dbg.eAddr = o.toNat ∧ u.dbg.eData = data ∧ u.dbg.ir = 0x20
    (may → exec .extest s = sel 0x00 true 0 ∧ exec .clamp s = sel 0x03 true 0 ∧ exec .highz s = sel 0x04 true 0 ∧
      exec .extestPulse s = sel 0x05 true 0 ∧ exec .extestTrain s = sel 0x06 true 0) ∧
    (¬ may → exec .extest s = sel 0xFF false 0 ∧ exec .clamp s = sel 0xFF false 0 ∧ exec .highz s = sel 0xFF false 0 ∧
      exec .extestPulse s = sel 0xFF false 0 ∧ exec .extestTrain s = sel 0xFF false 0) ∧
    exec .idcode s = sel 0x01 false idcode ∧ exec .samplePreload s = sel 0x02 false 0 ∧ exec .bypass s = sel 0xFF false 0 ∧
    (∃ u, exec .trstNLow s = .next u ∧ u.dbg.level = 0 ∧ u.dbg.ir = 0x01 ∧ u.dbg.pins = false ∧ u.mems = s.mems) ∧
    (s.top.mode ≠ .cold → s.top.mode ≠ .commit →
      (dbgReg o.toNat = some (r, is, w) → 1 ≤ s.dbg.level ∨ observeReads o.toNat = true →
        ∃ u, exec (.eaccRead o) s = .next u ∧ ends u 0 (t.readReg .eosta r is w (0x01300000 + o.toNat)).1 ∧
          u.mems = s.mems ∧ u.regs = s.regs) ∧
      (dbgReg o.toNat = some (r, is, w) → s.dbg.level = 0 → observeReads o.toNat = false →
        ∃ u, exec (.eaccRead o) s = .next u ∧ ends u 2 0 ∧ u = { s with dbg := u.dbg }) ∧
      (dbgReg o.toNat = none → ∃ u, exec (.eaccRead o) s = .next u ∧ ends u 3 0 ∧ u = { s with dbg := u.dbg }) ∧
      (dbgReg o.toNat = some (r, is, w) → 1 ≤ s.dbg.level ∨ observeWrites o.toNat = true → r.words[w]? = some x →
        v.getLsbD 31 = false →
        ∃ u, exec (.eaccWrite o v) s = .next u ∧ ends u 0 0 ∧ u = { s with dbg := u.dbg, regs := u.regs } ∧
          u.regs = (s.putWord x (0x01300000 + o.toNat) v.toNat).regs) ∧
      (dbgReg o.toNat = some (r, is, w) → s.dbg.level = 0 → observeWrites o.toNat = false →
        ∃ u, exec (.eaccWrite o v) s = .next u ∧ ends u 2 0 ∧ u = { s with dbg := u.dbg }))

/-- The state in which an operation of a DBG register starts: EACC is selected and has answered OK, and the register holds the
word written: its present fields, with the operation in its field. -/
def Sys2Proof.dbgSet (r : RegRow) (lo w op : Nat) (s : State) : State :=
  match r.words with
  | x :: _ => State.putWord { s with dbg := { s.dbg with ir := 0x20, pins := false, dr := 0, eStatus := 0,
                                                           eAddr := r.base - 0x01300000, eData := 0 } }
      x r.base (putBits (putBits (s.regN r.base) lo w op) 31 1 1)
  | [] => s

/-- Unlocking (R626 to R628): a challenge of 64 free bytes is valid for 60 s and for one attempt; a signature that verifies raises the
level, the fourth failed verification locks out for 60 s of operating time; LOCK ends the session. -/
def Obligations.SessionsAreUnlockedAndLocked : Prop :=
  ∀ (l : List Byte) (g : Nat) (s : State),
    let level := s.regN aDbgUnlock % 4
    let t (op : Nat) : State := dbgSet rowDbgUnlock 28 3 op s
    let check := ((t 2).unlockCheck level).1
    (s.top.mode ≠ .cold → s.top.mode ≠ .commit →
      (∃ u c, exec .unlockChallenge s = .next u ∧ u.dbg.chal = some (c, s.clk.gtc) ∧ c.length = 64 ∧ u.dbg.uStatus = stOk ∧
        u.clk.free = s.clk.free + 8 ∧ u.dbg.level = s.dbg.level ∧ u.mems = s.mems) ∧
      (∃ u, exec .unlock s = .next u ∧ u.dbg.chal = none ∧ u.dbg.uStatus = check ∧ u.mems = s.mems ∧
        (check = stOk → u.dbg.level = level ∧ u.dbg.fails = 0 ∧ u.dbg.lockEnd = none) ∧
        (check = stReject → u.dbg.level = s.dbg.level ∧ u.dbg.fails = min 4 (s.dbg.fails + 1) ∧
          u.dbg.lockEnd = (if 3 ≤ s.dbg.fails then some (s.evr.optime + 60) else s.dbg.lockEnd)) ∧
        (check ≠ stOk → check ≠ stReject → u.dbg.level = s.dbg.level ∧ u.dbg.fails = s.dbg.fails)) ∧
      (s.lockedOut = true → check = stDenied) ∧
      (∃ u, exec .lock s = .next u ∧ u.dbg.level = 0 ∧ u.dbg.uStatus = stOk ∧ u.mems = s.mems) ∧
      (1 ≤ s.dbg.level → s.dbg.user = none →
        ∃ u, exec .programUserDigest s = .next u ∧ u.dbg.level = s.dbg.level ∧
          (if blank fuseUser = true then u.dbg.uStatus = stOk ∧
            u.dbg.user = some ((upTo 16).flatMap fun i => leBytes 4 (s.regN (aDbgUfuse i)))
           else u.dbg.uStatus = stDenied ∧ u.dbg.user = none)) ∧
      (s.dbg.level = 0 ∨ s.dbg.user ≠ none → ∃ u, exec .programUserDigest s = .next u ∧ u.dbg.uStatus = stDenied ∧
        u.dbg.user = s.dbg.user)) ∧
    (s.dbg.chal = some (l, g) → g + 60 * second ≤ s.clk.gtc →
      exec .challengeExpire s = .next { s with dbg := { s.dbg with chal := none } }) ∧
    (s.dbg.chal = some (l, g) → s.clk.gtc < g + 60 * second → exec .challengeExpire s = .next s) ∧
    (s.dbg.lockEnd = some g → g ≤ s.evr.optime →
      exec .lockoutExpire s = .next { s with dbg := { s.dbg with lockEnd := none } }) ∧
    (s.dbg.lockEnd = some g → s.evr.optime < g → exec .lockoutExpire s = .next s)

/-- The access port and the halting of threads (R629 to R632, R641, R642): an access below its level is DENIED and has no effect; a halt or an abort
waits for the thread's safe point; a halted thread steps or resumes. -/
def Obligations.DebugAccessesAndThreads : Prop :=
  ∀ (n : Nat) (s : State),
    let ap (wr : Nat) : State := dbgSet rowDbgApCtl 30 1 wr s
    let word (wr : Nat) : Nat := putBits (putBits (s.regN aDbgApCtl) 30 1 wr) 31 1 1
    let space := bitsOf (s.regN aDbgApCtl) 8 3
    let size := if bitOf (s.regN aDbgApCtl) 29 then 8 else 4
    let at_ := (s.regN aDbgApAddr + s.regN (aDbgApAddr + 4) * 2 ^ 32) / size * size
    let th (op : Nat) : State := dbgSet rowDbgThrCtl 28 3 op s
    let x := s.thr n
    s.top.mode ≠ .cold → s.top.mode ≠ .commit →
    exec .apRead s = .next ((ap 0).apGo (word 0)) ∧ exec .apWrite s = .next ((ap 1).apGo (word 1)) ∧
    (space < 6 → s.dbg.level < spaceLevel space true at_ →
      exec .apWrite s = .next { ap 1 with dbg := { (ap 1).dbg with apStatus := stDenied } }) ∧
    (space = 2 → 1 ≤ s.dbg.level → at_ + size ≤ 0xF80000000 →
      ∃ u, exec .apRead s = .next u ∧ u.dbg.apStatus = stOk ∧
        u.regN aDbgApData = ((ap 0).dramGet at_ size).1 % 2 ^ 32 ∧ u.mems = s.mems) ∧
    (1 ≤ s.dbg.level → s.selThread = some n →
      (x.ctx.isSome = true ∨ x.svc.isSome = true → x.halted = none →
        exec .threadHalt s = .next { ((th 1).setThr n { x with ints := { x.ints with halt := true } }) with
          dbg := { (th 1).dbg with thrStatus := stOk } }) ∧
      (x.halted.isSome = true →
        exec .threadStep s = .next (((th 2).unhalt n true false).setDbg
          { ((th 2).unhalt n true false).dbg with thrStatus := stOk }) ∧
        exec .threadResume s = .next (((th 3).unhalt n false false).setDbg
          { ((th 3).unhalt n false false).dbg with thrStatus := stOk }) ∧
        (∀ b, s.stale n = false → ((th 2).unhalt n b false).thr n = { x with
          ctx := x.ctx.map (fun c => { c with start := c.start + (s.clk.gtc - x.haltAt) }), halted := none, stepping := b,
          mstep := false, bpPass := true, svcAt := s.clk.gtc }) ∧
        (∀ b, s.stale n = true → (th 2).unhalt n b false = ((th 2).setThr n { x with ints := {} }).endService n) ∧
        (2 ≤ s.dbg.level → exec .threadMstep s = .next (((th 5).microStep n 2).setDbg
          { ((th 5).microStep n 2).dbg with thrStatus := stOk }))) ∧
      (s.dbg.level < 2 → exec .threadMstep s = .next { th 5 with dbg := { (th 5).dbg with thrStatus := stDenied } }) ∧
      (x.ctx.isSome = true ∨ x.svc.isSome = true →
        exec .threadAbort s = .next { ((th 4).setThr n { x with ints := { x.ints with abort := true } }) with
          dbg := { (th 4).dbg with thrStatus := stOk } }) ∧
      (x.halted = none →
        exec .threadStep s = .next { th 2 with dbg := { (th 2).dbg with thrStatus := stReject } } ∧
        exec .threadResume s = .next { th 3 with dbg := { (th 3).dbg with thrStatus := stReject } } ∧
        (2 ≤ s.dbg.level → exec .threadMstep s = .next { th 5 with dbg := { (th 5).dbg with thrStatus := stReject } })) ∧
      (x.ctx = none → x.svc = none →
        exec .threadAbort s = .next { th 4 with dbg := { (th 4).dbg with thrStatus := stNotFound } } ∧
        exec .threadHalt s = .next { th 1 with dbg := { (th 1).dbg with thrStatus := stNotFound } }))

/-- Device HALT and debug resets (R635 to R637): a HALT is asked for ahead of its instant, every island stops there, and goes on in
the mode before; a debug reset restarts the block or one block of it, or enters TEST. -/
def Obligations.TheDebugPortHaltsAndResets : Prop :=
  ∀ (h : HaltReq) (s : State),
    let ask := s.regN aDbgHaltAt + s.regN (aDbgHaltAt + 4) * 2 ^ 32
    let g := s.clk.gtc
    let at_ := if ask = 0 then nextMultiple 4096 (g + 8000) else ask
    let rw (op : Nat) : Nat := putBits (putBits (s.regN aDbgReset) 29 2 op) 31 1 1
    let t (op : Nat) : State := dbgSet rowDbgReset 29 2 op s
    let done (op : Nat) : State := { t op with dbg := { (t op).dbg with resetStatus := stOk } }
    let bk := bitsOf (rw 1) 24 4
    let bi := bitsOf (rw 1) 16 8
    (1 ≤ s.dbg.level → ask = 0 ∨ (g + 8000 ≤ ask ∧ ask ≤ g + 10 * second) →
      (modeB s.top.mode = true →
        ∃ u, exec .deviceHaltRequest s = .next u ∧ u.dbg.halt = some { enter := true, at_ := at_ } ∧
          u.dbg.haltStatus = stOk ∧ u.top = s.top ∧ u.regN aDbgHaltAt = at_ % 2 ^ 32) ∧
      (s.top.mode = .halt →
        ∃ u, exec .deviceResumeRequest s = .next u ∧ u.dbg.halt = some { enter := false, at_ := at_ } ∧
          u.dbg.haltStatus = stOk ∧ u.top = s.top)) ∧
    (1 ≤ s.dbg.level → s.top.mode ≠ .cold → s.top.mode ≠ .commit → ask ≠ 0 → ask < g + 8000 →
      ∃ u, exec .deviceHaltRequest s = .next u ∧ u.dbg.haltStatus = stReject ∧ u.dbg.halt = s.dbg.halt ∧ u.top = s.top) ∧
    (s.dbg.halt = some h → h.at_ ≤ g →
      (h.enter = true → modeB s.top.mode = true →
        ∃ u, exec .deviceHaltEnter s = .next u ∧ u.top.mode = .halt ∧ u.dbg.halt = none ∧ u.dbg.mine = true) ∧
      (h.enter = false → s.top.mode = .halt →
        ∃ u, exec .deviceHaltResume s = .next u ∧ u.top.mode = s.top.preHalt ∧ u.dbg.halt = none ∧ u.mems = s.mems)) ∧
    (1 ≤ s.dbg.level → s.top.mode ≠ .cold → s.top.mode ≠ .commit → s.top.mode ≠ .test →
      exec .debugWarmReset s =
        .next ((done 0).warmReset rstDbg (if bitOf (rw 0) 28 then some 5 else none) false)) ∧
    (1 ≤ s.dbg.level → modeB s.top.mode = true → blockExists bk bi = true → s.top.blk = none →
      ∃ u, exec .debugBlockReset s = .next u ∧ u.top.blk = some { kind := bk, index := bi, phase := 0, since := g, who := none } ∧
        u.dbg.resetStatus = stOk ∧ u.mems = s.mems) ∧
    (s.dbg.level = 2 → s.top.mode = .ready →
      ∃ u, exec .debugTestEntry s = .next u ∧ u.top.mode = .test ∧ u.dbg.resetStatus = stOk ∧ u.mems = s.mems) ∧
    (s.dbg.level = 1 → s.top.mode = .ready →
      ∃ u, exec .debugTestEntry s = .next u ∧ u.top.mode = .ready ∧ u.dbg.resetStatus = stReject)
end

