-- ==== Sys2Proof/Laws/Maps.lean ====
section
/-! SUPPORT. Laws of the sparse maps: a read after a write, and the canonical form kept by every write. -/

namespace Sys2Proof.Laws

open Sys2Proof Sys2Proof.Machine

theorem mget_merase_self {α : Type} (d : Nat → α) (m : SMap α) (k : Nat) : mget d (merase m k) k = d k := by
  induction m with
  | nil => rfl
  | cons e m ih =>
    obtain ⟨j, v⟩ := e
    by_cases h : j = k
    · subst h; simpa [merase] using ih
    · simpa [merase, mget, h] using ih

theorem mget_merase_ne {α : Type} (d : Nat → α) (m : SMap α) {k j : Nat} (h : j ≠ k) :
    mget d (merase m k) j = mget d m j := by
  induction m with
  | nil => rfl
  | cons e m ih =>
    obtain ⟨i, v⟩ := e
    by_cases hi : i = k
    · subst hi
      have : i ≠ j := fun h' => h h'.symm
      simpa [merase, mget, this] using ih
    · by_cases hj : i = j
      · subst hj; simp [merase, mget, hi]
      · simpa [merase, mget, hi, hj] using ih

theorem mget_minsert_self {α : Type} (d : Nat → α) (k : Nat) (v : α) (m : SMap α) (h : ∀ e ∈ m, e.1 ≠ k) :
    mget d (minsert k v m) k = v := by
  induction m with
  | nil => simp [minsert, mget]
  | cons e m ih =>
    obtain ⟨j, w⟩ := e
    have hj : j ≠ k := h (j, w) (by simp)
    by_cases hk : k < j
    · simp [minsert, hk, mget]
    · simp only [minsert, hk, if_false, mget, hj]
      exact ih fun e he => h e (by simp [he])

theorem mget_minsert_ne {α : Type} (d : Nat → α) (k : Nat) (v : α) (m : SMap α) {j : Nat} (h : j ≠ k) :
    mget d (minsert k v m) j = mget d m j := by
  have hk : k ≠ j := fun h' => h h'.symm
  induction m with
  | nil => simp [minsert, mget, hk]
  | cons e m ih =>
    obtain ⟨i, w⟩ := e
    by_cases hi : k < i
    · simp [minsert, hi, mget, hk]
    · simp only [minsert, hi, if_false, mget, ih]

theorem mget_mset_self {α : Type} [DecidableEq α] (d : Nat → α) (m : SMap α) (k : Nat) (v : α) :
    mget d (mset d m k v) k = v := by
  by_cases h : v = d k
  · simp [mset, h, mget_merase_self]
  · simp only [mset, h, if_false]
    exact mget_minsert_self d k v _ fun e he => by simpa [merase] using (List.mem_filter.1 he).2

theorem mget_mset_ne {α : Type} [DecidableEq α] (d : Nat → α) (m : SMap α) {k j : Nat} (v : α) (h : j ≠ k) :
    mget d (mset d m k v) j = mget d m j := by
  by_cases hv : v = d k
  · simp [mset, hv, mget_merase_ne d m h]
  · simp only [mset, hv, if_false]
    rw [mget_minsert_ne d k v _ h, mget_merase_ne d m h]

theorem mget_mset {α : Type} [DecidableEq α] (d : Nat → α) (m : SMap α) (k j : Nat) (v : α) :
    mget d (mset d m k v) j = if j = k then v else mget d m j := by
  by_cases h : j = k
  · subst h; simp [mget_mset_self]
  · simp [h, mget_mset_ne d m v h]

/-! ### The canonical form -/

theorem risingFrom_mono {α : Type} {m : SMap α} {a b : Nat} (h : a ≤ b) (hm : risingFrom b m = true) :
    risingFrom a m = true := by
  cases m with
  | nil => rfl
  | cons e m =>
    obtain ⟨k, v⟩ := e
    simp only [risingFrom, Bool.and_eq_true, decide_eq_true_eq] at *
    exact ⟨by omega, hm.2⟩

theorem risingFrom_merase {α : Type} (k : Nat) {m : SMap α} : ∀ {a : Nat}, risingFrom a m = true →
    risingFrom a (merase m k) = true := by
  induction m with
  | nil => intro a _; rfl
  | cons e m ih =>
    intro a h
    obtain ⟨j, v⟩ := e
    simp only [risingFrom, Bool.and_eq_true, decide_eq_true_eq] at h
    by_cases hj : j = k
    · have h2 : merase ((j, v) :: m) k = merase m k := by simp [merase, hj]
      rw [h2]
      exact risingFrom_mono (by omega) (ih h.2)
    · have h2 : merase ((j, v) :: m) k = (j, v) :: merase m k := by simp [merase, hj]
      rw [h2]
      simp [risingFrom, h.1, ih h.2]

theorem risingFrom_minsert {α : Type} (k : Nat) (v : α) {m : SMap α} (hk : ∀ e ∈ m, e.1 ≠ k) :
    ∀ {a : Nat}, a ≤ k → risingFrom a m = true → risingFrom a (minsert k v m) = true := by
  induction m with
  | nil => intro a ha _; simp [minsert, risingFrom, ha]
  | cons e m ih =>
    intro a ha h
    obtain ⟨j, w⟩ := e
    have hj : j ≠ k := hk (j, w) (by simp)
    simp only [risingFrom, Bool.and_eq_true, decide_eq_true_eq] at h
    by_cases hlt : k < j
    · simp only [minsert, hlt, if_true, risingFrom, Bool.and_eq_true, decide_eq_true_eq]
      exact ⟨ha, by omega, h.2⟩
    · simp only [minsert, hlt, if_false, risingFrom, Bool.and_eq_true, decide_eq_true_eq]
      exact ⟨h.1, ih (fun e he => hk e (by simp [he])) (by omega) h.2⟩

theorem mem_minsert {α : Type} (k : Nat) (v : α) (m : SMap α) (e : Nat × α) (h : e ∈ minsert k v m) :
    e = (k, v) ∨ e ∈ m := by
  induction m with
  | nil => simpa [minsert] using h
  | cons x m ih =>
    obtain ⟨j, w⟩ := x
    by_cases hlt : k < j
    · simpa [minsert, hlt] using h
    · simp only [minsert, hlt, if_false, List.mem_cons] at h
      rcases h with h | h
      · right; simp [h]
      · rcases ih h with h | h
        · left; exact h
        · right; simp [h]

/-- A write keeps the canonical form. -/
theorem mset_wf {α : Type} [DecidableEq α] (d : Nat → α) (m : SMap α) (k : Nat) (v : α) (h : SMapWf d m = true) :
    SMapWf d (mset d m k v) = true := by
  simp only [SMapWf, Bool.and_eq_true, List.all_eq_true, decide_eq_true_eq] at h ⊢
  have he : ∀ e ∈ merase m k, e.1 ≠ k := fun e he => by simpa [merase] using (List.mem_filter.1 he).2
  have hd : ∀ e ∈ merase m k, e.2 ≠ d e.1 := fun e he => h.2 e (List.mem_filter.1 he).1
  by_cases hv : v = d k
  · simp only [mset, hv, if_true]
    exact ⟨risingFrom_merase k h.1, hd⟩
  · simp only [mset, hv, if_false]
    refine ⟨risingFrom_minsert k v he (Nat.zero_le k) (risingFrom_merase k h.1), fun e hm => ?_⟩
    rcases mem_minsert k v _ e hm with rfl | hm
    · exact hv
    · exact hd e hm

/-! ### Byte memories -/

theorem getByte_setByte (m : Mem) (a b : Nat) (v : Byte) :
    getByte (setByte m a v) b = if b = a then v else getByte m b := mget_mset byte0 m a b v

theorem setByte_wf (m : Mem) (a : Nat) (v : Byte) (h : Memory.wf m = true) : Memory.wf (setByte m a v) = true :=
  mset_wf byte0 m a v h

theorem setBytes_wf (l : List Byte) : ∀ (m : Mem) (a : Nat), Memory.wf m = true → Memory.wf (setBytes m a l) = true := by
  induction l with
  | nil => intro m a h; exact h
  | cons b l ih => intro m a h; exact ih _ _ (setByte_wf m a b h)

/-- What a stored list leaves in memory: the list at its addresses, all else as before. -/
theorem getByte_setBytes (l : List Byte) : ∀ (m : Mem) (a b : Nat),
    getByte (setBytes m a l) b = if a ≤ b ∧ b < a + l.length then l.getD (b - a) 0 else getByte m b := by
  induction l with
  | nil => intro m a b; rw [if_neg (by simp only [List.length_nil]; omega)]; rfl
  | cons x l ih =>
    intro m a b
    simp only [setBytes, ih, getByte_setByte, List.length_cons]
    by_cases h0 : b = a
    · subst h0; simp
    · by_cases h1 : a + 1 ≤ b ∧ b < a + 1 + l.length
      · have : b - a = (b - (a + 1)) + 1 := by omega
        simp [h1, this, show a ≤ b ∧ b < a + (l.length + 1) by omega]
      · rw [if_neg h1, if_neg h0, if_neg (by omega)]

/-- A list read back where it was stored. -/
theorem getBytes_setBytes (l : List Byte) (m : Mem) (a : Nat) : getBytes (setBytes m a l) a l.length = l := by
  suffices h : ∀ (k : List Byte) (m : Mem) (a : Nat),
      (∀ i < k.length, getByte m (a + i) = k.getD i 0) → getBytes m a k.length = k by
    apply h
    intro i hi
    rw [getByte_setBytes]
    simp [hi]
  intro k
  induction k with
  | nil => intro m a _; rfl
  | cons b k ih =>
    intro m a h
    have h0 := h 0 (by simp)
    simp only [List.length_cons, getBytes]
    rw [ih m (a + 1) fun i hi => by
      have := h (i + 1) (by simpa using hi)
      simpa [Nat.add_assoc, Nat.add_comm 1 i] using this]
    simpa using h0

end Sys2Proof.Laws
end

