-- ==== Sys2Proof/Laws/State.lean ====
section
/-! SUPPORT. What each update of State leaves of every field, and what each reader finds after it. -/

namespace Sys2Proof.Laws

open Sys2Proof Sys2Proof.Machine

/-! ### setThr -/

@[simp] theorem setThr_pending (s : State) (n : Nat) (x : Thread) : (s.setThr n x).pending = s.pending := rfl
@[simp] theorem setThr_clk (s : State) (n : Nat) (x : Thread) : (s.setThr n x).clk = s.clk := rfl
@[simp] theorem setThr_top (s : State) (n : Nat) (x : Thread) : (s.setThr n x).top = s.top := rfl
@[simp] theorem setThr_regs (s : State) (n : Nat) (x : Thread) : (s.setThr n x).regs = s.regs := rfl
@[simp] theorem setThr_committed (s : State) (n : Nat) (x : Thread) : (s.setThr n x).committed = s.committed := rfl
@[simp] theorem setThr_cnt (s : State) (n : Nat) (x : Thread) : (s.setThr n x).cnt = s.cnt := rfl
@[simp] theorem setThr_latch (s : State) (n : Nat) (x : Thread) : (s.setThr n x).latch = s.latch := rfl
@[simp] theorem setThr_mems (s : State) (n : Nat) (x : Thread) : (s.setThr n x).mems = s.mems := rfl
@[simp] theorem setThr_clusters (s : State) (n : Nat) (x : Thread) : (s.setThr n x).clusters = s.clusters := rfl
@[simp] theorem setThr_races (s : State) (n : Nat) (x : Thread) : (s.setThr n x).races = s.races := rfl
@[simp] theorem setThr_cls (s : State) (n : Nat) (x : Thread) : (s.setThr n x).cls = s.cls := rfl
@[simp] theorem setThr_ucs (s : State) (n : Nat) (x : Thread) : (s.setThr n x).ucs = s.ucs := rfl
@[simp] theorem setThr_comps (s : State) (n : Nat) (x : Thread) : (s.setThr n x).comps = s.comps := rfl
@[simp] theorem setThr_nextTask (s : State) (n : Nat) (x : Thread) : (s.setThr n x).nextTask = s.nextTask := rfl
@[simp] theorem setThr_pkts (s : State) (n : Nat) (x : Thread) : (s.setThr n x).pkts = s.pkts := rfl
@[simp] theorem setThr_nextPkt (s : State) (n : Nat) (x : Thread) : (s.setThr n x).nextPkt = s.nextPkt := rfl
@[simp] theorem setThr_rx (s : State) (n : Nat) (x : Thread) : (s.setThr n x).rx = s.rx := rfl
@[simp] theorem setThr_evr (s : State) (n : Nat) (x : Thread) : (s.setThr n x).evr = s.evr := rfl
@[simp] theorem setThr_msix (s : State) (n : Nat) (x : Thread) : (s.setThr n x).msix = s.msix := rfl
@[simp] theorem setThr_link (s : State) (n : Nat) (x : Thread) : (s.setThr n x).link = s.link := rfl
@[simp] theorem setThr_hop (s : State) (n : Nat) (x : Thread) : (s.setThr n x).hop = s.hop := rfl
@[simp] theorem setThr_weirq (s : State) (n : Nat) (x : Thread) : (s.setThr n x).weirq = s.weirq := rfl
@[simp] theorem setThr_ptp (s : State) (n : Nat) (x : Thread) : (s.setThr n x).ptp = s.ptp := rfl
@[simp] theorem setThr_em (s : State) (n : Nat) (x : Thread) : (s.setThr n x).em = s.em := rfl
@[simp] theorem setThr_host (s : State) (n : Nat) (x : Thread) : (s.setThr n x).host = s.host := rfl
@[simp] theorem setThr_mst (s : State) (n : Nat) (x : Thread) : (s.setThr n x).mst = s.mst := rfl
@[simp] theorem setThr_walks (s : State) (n : Nat) (x : Thread) : (s.setThr n x).walks = s.walks := rfl
@[simp] theorem setThr_weir (s : State) (n : Nat) (x : Thread) : (s.setThr n x).weir = s.weir := rfl
@[simp] theorem setThr_refreshed (s : State) (n : Nat) (x : Thread) : (s.setThr n x).refreshed = s.refreshed := rfl
@[simp] theorem setThr_tab (s : State) (n : Nat) (x : Thread) : (s.setThr n x).tab = s.tab := rfl
@[simp] theorem setThr_eg (s : State) (n : Nat) (x : Thread) : (s.setThr n x).eg = s.eg := rfl
@[simp] theorem setThr_coll (s : State) (n : Nat) (x : Thread) : (s.setThr n x).coll = s.coll := rfl
@[simp] theorem setThr_saf (s : State) (n : Nat) (x : Thread) : (s.setThr n x).saf = s.saf := rfl
@[simp] theorem setThr_smb (s : State) (n : Nat) (x : Thread) : (s.setThr n x).smb = s.smb := rfl
@[simp] theorem setThr_dbg (s : State) (n : Nat) (x : Thread) : (s.setThr n x).dbg = s.dbg := rfl
@[simp] theorem setThr_rdata (s : State) (n : Nat) (x : Thread) : (s.setThr n x).rdata = s.rdata := rfl

/-! ### setClu -/

@[simp] theorem setClu_pending (s : State) (k : Nat) (x : Cluster) : (s.setClu k x).pending = s.pending := rfl
@[simp] theorem setClu_clk (s : State) (k : Nat) (x : Cluster) : (s.setClu k x).clk = s.clk := rfl
@[simp] theorem setClu_top (s : State) (k : Nat) (x : Cluster) : (s.setClu k x).top = s.top := rfl
@[simp] theorem setClu_regs (s : State) (k : Nat) (x : Cluster) : (s.setClu k x).regs = s.regs := rfl
@[simp] theorem setClu_committed (s : State) (k : Nat) (x : Cluster) : (s.setClu k x).committed = s.committed := rfl
@[simp] theorem setClu_cnt (s : State) (k : Nat) (x : Cluster) : (s.setClu k x).cnt = s.cnt := rfl
@[simp] theorem setClu_latch (s : State) (k : Nat) (x : Cluster) : (s.setClu k x).latch = s.latch := rfl
@[simp] theorem setClu_mems (s : State) (k : Nat) (x : Cluster) : (s.setClu k x).mems = s.mems := rfl
@[simp] theorem setClu_threads (s : State) (k : Nat) (x : Cluster) : (s.setClu k x).threads = s.threads := rfl
@[simp] theorem setClu_races (s : State) (k : Nat) (x : Cluster) : (s.setClu k x).races = s.races := rfl
@[simp] theorem setClu_cls (s : State) (k : Nat) (x : Cluster) : (s.setClu k x).cls = s.cls := rfl
@[simp] theorem setClu_ucs (s : State) (k : Nat) (x : Cluster) : (s.setClu k x).ucs = s.ucs := rfl
@[simp] theorem setClu_comps (s : State) (k : Nat) (x : Cluster) : (s.setClu k x).comps = s.comps := rfl
@[simp] theorem setClu_nextTask (s : State) (k : Nat) (x : Cluster) : (s.setClu k x).nextTask = s.nextTask := rfl
@[simp] theorem setClu_pkts (s : State) (k : Nat) (x : Cluster) : (s.setClu k x).pkts = s.pkts := rfl
@[simp] theorem setClu_nextPkt (s : State) (k : Nat) (x : Cluster) : (s.setClu k x).nextPkt = s.nextPkt := rfl
@[simp] theorem setClu_rx (s : State) (k : Nat) (x : Cluster) : (s.setClu k x).rx = s.rx := rfl
@[simp] theorem setClu_evr (s : State) (k : Nat) (x : Cluster) : (s.setClu k x).evr = s.evr := rfl
@[simp] theorem setClu_msix (s : State) (k : Nat) (x : Cluster) : (s.setClu k x).msix = s.msix := rfl
@[simp] theorem setClu_link (s : State) (k : Nat) (x : Cluster) : (s.setClu k x).link = s.link := rfl
@[simp] theorem setClu_hop (s : State) (k : Nat) (x : Cluster) : (s.setClu k x).hop = s.hop := rfl
@[simp] theorem setClu_weirq (s : State) (k : Nat) (x : Cluster) : (s.setClu k x).weirq = s.weirq := rfl
@[simp] theorem setClu_ptp (s : State) (k : Nat) (x : Cluster) : (s.setClu k x).ptp = s.ptp := rfl
@[simp] theorem setClu_em (s : State) (k : Nat) (x : Cluster) : (s.setClu k x).em = s.em := rfl
@[simp] theorem setClu_host (s : State) (k : Nat) (x : Cluster) : (s.setClu k x).host = s.host := rfl
@[simp] theorem setClu_mst (s : State) (k : Nat) (x : Cluster) : (s.setClu k x).mst = s.mst := rfl
@[simp] theorem setClu_walks (s : State) (k : Nat) (x : Cluster) : (s.setClu k x).walks = s.walks := rfl
@[simp] theorem setClu_weir (s : State) (k : Nat) (x : Cluster) : (s.setClu k x).weir = s.weir := rfl
@[simp] theorem setClu_refreshed (s : State) (k : Nat) (x : Cluster) : (s.setClu k x).refreshed = s.refreshed := rfl
@[simp] theorem setClu_tab (s : State) (k : Nat) (x : Cluster) : (s.setClu k x).tab = s.tab := rfl
@[simp] theorem setClu_eg (s : State) (k : Nat) (x : Cluster) : (s.setClu k x).eg = s.eg := rfl
@[simp] theorem setClu_coll (s : State) (k : Nat) (x : Cluster) : (s.setClu k x).coll = s.coll := rfl
@[simp] theorem setClu_saf (s : State) (k : Nat) (x : Cluster) : (s.setClu k x).saf = s.saf := rfl
@[simp] theorem setClu_smb (s : State) (k : Nat) (x : Cluster) : (s.setClu k x).smb = s.smb := rfl
@[simp] theorem setClu_dbg (s : State) (k : Nat) (x : Cluster) : (s.setClu k x).dbg = s.dbg := rfl
@[simp] theorem setClu_rdata (s : State) (k : Nat) (x : Cluster) : (s.setClu k x).rdata = s.rdata := rfl

/-! ### setRace -/

@[simp] theorem setRace_pending (s : State) (r : Nat) (x : Race) : (s.setRace r x).pending = s.pending := rfl
@[simp] theorem setRace_clk (s : State) (r : Nat) (x : Race) : (s.setRace r x).clk = s.clk := rfl
@[simp] theorem setRace_top (s : State) (r : Nat) (x : Race) : (s.setRace r x).top = s.top := rfl
@[simp] theorem setRace_regs (s : State) (r : Nat) (x : Race) : (s.setRace r x).regs = s.regs := rfl
@[simp] theorem setRace_committed (s : State) (r : Nat) (x : Race) : (s.setRace r x).committed = s.committed := rfl
@[simp] theorem setRace_cnt (s : State) (r : Nat) (x : Race) : (s.setRace r x).cnt = s.cnt := rfl
@[simp] theorem setRace_latch (s : State) (r : Nat) (x : Race) : (s.setRace r x).latch = s.latch := rfl
@[simp] theorem setRace_mems (s : State) (r : Nat) (x : Race) : (s.setRace r x).mems = s.mems := rfl
@[simp] theorem setRace_threads (s : State) (r : Nat) (x : Race) : (s.setRace r x).threads = s.threads := rfl
@[simp] theorem setRace_clusters (s : State) (r : Nat) (x : Race) : (s.setRace r x).clusters = s.clusters := rfl
@[simp] theorem setRace_cls (s : State) (r : Nat) (x : Race) : (s.setRace r x).cls = s.cls := rfl
@[simp] theorem setRace_ucs (s : State) (r : Nat) (x : Race) : (s.setRace r x).ucs = s.ucs := rfl
@[simp] theorem setRace_comps (s : State) (r : Nat) (x : Race) : (s.setRace r x).comps = s.comps := rfl
@[simp] theorem setRace_nextTask (s : State) (r : Nat) (x : Race) : (s.setRace r x).nextTask = s.nextTask := rfl
@[simp] theorem setRace_pkts (s : State) (r : Nat) (x : Race) : (s.setRace r x).pkts = s.pkts := rfl
@[simp] theorem setRace_nextPkt (s : State) (r : Nat) (x : Race) : (s.setRace r x).nextPkt = s.nextPkt := rfl
@[simp] theorem setRace_rx (s : State) (r : Nat) (x : Race) : (s.setRace r x).rx = s.rx := rfl
@[simp] theorem setRace_evr (s : State) (r : Nat) (x : Race) : (s.setRace r x).evr = s.evr := rfl
@[simp] theorem setRace_msix (s : State) (r : Nat) (x : Race) : (s.setRace r x).msix = s.msix := rfl
@[simp] theorem setRace_link (s : State) (r : Nat) (x : Race) : (s.setRace r x).link = s.link := rfl
@[simp] theorem setRace_hop (s : State) (r : Nat) (x : Race) : (s.setRace r x).hop = s.hop := rfl
@[simp] theorem setRace_weirq (s : State) (r : Nat) (x : Race) : (s.setRace r x).weirq = s.weirq := rfl
@[simp] theorem setRace_ptp (s : State) (r : Nat) (x : Race) : (s.setRace r x).ptp = s.ptp := rfl
@[simp] theorem setRace_em (s : State) (r : Nat) (x : Race) : (s.setRace r x).em = s.em := rfl
@[simp] theorem setRace_host (s : State) (r : Nat) (x : Race) : (s.setRace r x).host = s.host := rfl
@[simp] theorem setRace_mst (s : State) (r : Nat) (x : Race) : (s.setRace r x).mst = s.mst := rfl
@[simp] theorem setRace_walks (s : State) (r : Nat) (x : Race) : (s.setRace r x).walks = s.walks := rfl
@[simp] theorem setRace_weir (s : State) (r : Nat) (x : Race) : (s.setRace r x).weir = s.weir := rfl
@[simp] theorem setRace_refreshed (s : State) (r : Nat) (x : Race) : (s.setRace r x).refreshed = s.refreshed := rfl
@[simp] theorem setRace_tab (s : State) (r : Nat) (x : Race) : (s.setRace r x).tab = s.tab := rfl
@[simp] theorem setRace_eg (s : State) (r : Nat) (x : Race) : (s.setRace r x).eg = s.eg := rfl
@[simp] theorem setRace_coll (s : State) (r : Nat) (x : Race) : (s.setRace r x).coll = s.coll := rfl
@[simp] theorem setRace_saf (s : State) (r : Nat) (x : Race) : (s.setRace r x).saf = s.saf := rfl
@[simp] theorem setRace_smb (s : State) (r : Nat) (x : Race) : (s.setRace r x).smb = s.smb := rfl
@[simp] theorem setRace_dbg (s : State) (r : Nat) (x : Race) : (s.setRace r x).dbg = s.dbg := rfl
@[simp] theorem setRace_rdata (s : State) (r : Nat) (x : Race) : (s.setRace r x).rdata = s.rdata := rfl

/-! ### setPkt -/

@[simp] theorem setPkt_pending (s : State) (k : Nat) (x : Packet) : (s.setPkt k x).pending = s.pending := rfl
@[simp] theorem setPkt_clk (s : State) (k : Nat) (x : Packet) : (s.setPkt k x).clk = s.clk := rfl
@[simp] theorem setPkt_top (s : State) (k : Nat) (x : Packet) : (s.setPkt k x).top = s.top := rfl
@[simp] theorem setPkt_regs (s : State) (k : Nat) (x : Packet) : (s.setPkt k x).regs = s.regs := rfl
@[simp] theorem setPkt_committed (s : State) (k : Nat) (x : Packet) : (s.setPkt k x).committed = s.committed := rfl
@[simp] theorem setPkt_cnt (s : State) (k : Nat) (x : Packet) : (s.setPkt k x).cnt = s.cnt := rfl
@[simp] theorem setPkt_latch (s : State) (k : Nat) (x : Packet) : (s.setPkt k x).latch = s.latch := rfl
@[simp] theorem setPkt_mems (s : State) (k : Nat) (x : Packet) : (s.setPkt k x).mems = s.mems := rfl
@[simp] theorem setPkt_threads (s : State) (k : Nat) (x : Packet) : (s.setPkt k x).threads = s.threads := rfl
@[simp] theorem setPkt_clusters (s : State) (k : Nat) (x : Packet) : (s.setPkt k x).clusters = s.clusters := rfl
@[simp] theorem setPkt_races (s : State) (k : Nat) (x : Packet) : (s.setPkt k x).races = s.races := rfl
@[simp] theorem setPkt_cls (s : State) (k : Nat) (x : Packet) : (s.setPkt k x).cls = s.cls := rfl
@[simp] theorem setPkt_ucs (s : State) (k : Nat) (x : Packet) : (s.setPkt k x).ucs = s.ucs := rfl
@[simp] theorem setPkt_comps (s : State) (k : Nat) (x : Packet) : (s.setPkt k x).comps = s.comps := rfl
@[simp] theorem setPkt_nextTask (s : State) (k : Nat) (x : Packet) : (s.setPkt k x).nextTask = s.nextTask := rfl
@[simp] theorem setPkt_nextPkt (s : State) (k : Nat) (x : Packet) : (s.setPkt k x).nextPkt = s.nextPkt := rfl
@[simp] theorem setPkt_rx (s : State) (k : Nat) (x : Packet) : (s.setPkt k x).rx = s.rx := rfl
@[simp] theorem setPkt_evr (s : State) (k : Nat) (x : Packet) : (s.setPkt k x).evr = s.evr := rfl
@[simp] theorem setPkt_msix (s : State) (k : Nat) (x : Packet) : (s.setPkt k x).msix = s.msix := rfl
@[simp] theorem setPkt_link (s : State) (k : Nat) (x : Packet) : (s.setPkt k x).link = s.link := rfl
@[simp] theorem setPkt_hop (s : State) (k : Nat) (x : Packet) : (s.setPkt k x).hop = s.hop := rfl
@[simp] theorem setPkt_weirq (s : State) (k : Nat) (x : Packet) : (s.setPkt k x).weirq = s.weirq := rfl
@[simp] theorem setPkt_ptp (s : State) (k : Nat) (x : Packet) : (s.setPkt k x).ptp = s.ptp := rfl
@[simp] theorem setPkt_em (s : State) (k : Nat) (x : Packet) : (s.setPkt k x).em = s.em := rfl
@[simp] theorem setPkt_host (s : State) (k : Nat) (x : Packet) : (s.setPkt k x).host = s.host := rfl
@[simp] theorem setPkt_mst (s : State) (k : Nat) (x : Packet) : (s.setPkt k x).mst = s.mst := rfl
@[simp] theorem setPkt_walks (s : State) (k : Nat) (x : Packet) : (s.setPkt k x).walks = s.walks := rfl
@[simp] theorem setPkt_weir (s : State) (k : Nat) (x : Packet) : (s.setPkt k x).weir = s.weir := rfl
@[simp] theorem setPkt_refreshed (s : State) (k : Nat) (x : Packet) : (s.setPkt k x).refreshed = s.refreshed := rfl
@[simp] theorem setPkt_tab (s : State) (k : Nat) (x : Packet) : (s.setPkt k x).tab = s.tab := rfl
@[simp] theorem setPkt_eg (s : State) (k : Nat) (x : Packet) : (s.setPkt k x).eg = s.eg := rfl
@[simp] theorem setPkt_coll (s : State) (k : Nat) (x : Packet) : (s.setPkt k x).coll = s.coll := rfl
@[simp] theorem setPkt_saf (s : State) (k : Nat) (x : Packet) : (s.setPkt k x).saf = s.saf := rfl
@[simp] theorem setPkt_smb (s : State) (k : Nat) (x : Packet) : (s.setPkt k x).smb = s.smb := rfl
@[simp] theorem setPkt_dbg (s : State) (k : Nat) (x : Packet) : (s.setPkt k x).dbg = s.dbg := rfl
@[simp] theorem setPkt_rdata (s : State) (k : Nat) (x : Packet) : (s.setPkt k x).rdata = s.rdata := rfl

/-! ### setReg -/

@[simp] theorem setReg_pending (s : State) (a : Nat) (v : Word32) : (s.setReg a v).pending = s.pending := rfl
@[simp] theorem setReg_clk (s : State) (a : Nat) (v : Word32) : (s.setReg a v).clk = s.clk := rfl
@[simp] theorem setReg_top (s : State) (a : Nat) (v : Word32) : (s.setReg a v).top = s.top := rfl
@[simp] theorem setReg_committed (s : State) (a : Nat) (v : Word32) : (s.setReg a v).committed = s.committed := rfl
@[simp] theorem setReg_cnt (s : State) (a : Nat) (v : Word32) : (s.setReg a v).cnt = s.cnt := rfl
@[simp] theorem setReg_latch (s : State) (a : Nat) (v : Word32) : (s.setReg a v).latch = s.latch := rfl
@[simp] theorem setReg_mems (s : State) (a : Nat) (v : Word32) : (s.setReg a v).mems = s.mems := rfl
@[simp] theorem setReg_threads (s : State) (a : Nat) (v : Word32) : (s.setReg a v).threads = s.threads := rfl
@[simp] theorem setReg_clusters (s : State) (a : Nat) (v : Word32) : (s.setReg a v).clusters = s.clusters := rfl
@[simp] theorem setReg_races (s : State) (a : Nat) (v : Word32) : (s.setReg a v).races = s.races := rfl
@[simp] theorem setReg_cls (s : State) (a : Nat) (v : Word32) : (s.setReg a v).cls = s.cls := rfl
@[simp] theorem setReg_ucs (s : State) (a : Nat) (v : Word32) : (s.setReg a v).ucs = s.ucs := rfl
@[simp] theorem setReg_comps (s : State) (a : Nat) (v : Word32) : (s.setReg a v).comps = s.comps := rfl
@[simp] theorem setReg_nextTask (s : State) (a : Nat) (v : Word32) : (s.setReg a v).nextTask = s.nextTask := rfl
@[simp] theorem setReg_pkts (s : State) (a : Nat) (v : Word32) : (s.setReg a v).pkts = s.pkts := rfl
@[simp] theorem setReg_nextPkt (s : State) (a : Nat) (v : Word32) : (s.setReg a v).nextPkt = s.nextPkt := rfl
@[simp] theorem setReg_rx (s : State) (a : Nat) (v : Word32) : (s.setReg a v).rx = s.rx := rfl
@[simp] theorem setReg_evr (s : State) (a : Nat) (v : Word32) : (s.setReg a v).evr = s.evr := rfl
@[simp] theorem setReg_msix (s : State) (a : Nat) (v : Word32) : (s.setReg a v).msix = s.msix := rfl
@[simp] theorem setReg_link (s : State) (a : Nat) (v : Word32) : (s.setReg a v).link = s.link := rfl
@[simp] theorem setReg_hop (s : State) (a : Nat) (v : Word32) : (s.setReg a v).hop = s.hop := rfl
@[simp] theorem setReg_weirq (s : State) (a : Nat) (v : Word32) : (s.setReg a v).weirq = s.weirq := rfl
@[simp] theorem setReg_ptp (s : State) (a : Nat) (v : Word32) : (s.setReg a v).ptp = s.ptp := rfl
@[simp] theorem setReg_em (s : State) (a : Nat) (v : Word32) : (s.setReg a v).em = s.em := rfl
@[simp] theorem setReg_host (s : State) (a : Nat) (v : Word32) : (s.setReg a v).host = s.host := rfl
@[simp] theorem setReg_mst (s : State) (a : Nat) (v : Word32) : (s.setReg a v).mst = s.mst := rfl
@[simp] theorem setReg_walks (s : State) (a : Nat) (v : Word32) : (s.setReg a v).walks = s.walks := rfl
@[simp] theorem setReg_weir (s : State) (a : Nat) (v : Word32) : (s.setReg a v).weir = s.weir := rfl
@[simp] theorem setReg_refreshed (s : State) (a : Nat) (v : Word32) : (s.setReg a v).refreshed = s.refreshed := rfl
@[simp] theorem setReg_tab (s : State) (a : Nat) (v : Word32) : (s.setReg a v).tab = s.tab := rfl
@[simp] theorem setReg_eg (s : State) (a : Nat) (v : Word32) : (s.setReg a v).eg = s.eg := rfl
@[simp] theorem setReg_coll (s : State) (a : Nat) (v : Word32) : (s.setReg a v).coll = s.coll := rfl
@[simp] theorem setReg_saf (s : State) (a : Nat) (v : Word32) : (s.setReg a v).saf = s.saf := rfl
@[simp] theorem setReg_smb (s : State) (a : Nat) (v : Word32) : (s.setReg a v).smb = s.smb := rfl
@[simp] theorem setReg_dbg (s : State) (a : Nat) (v : Word32) : (s.setReg a v).dbg = s.dbg := rfl
@[simp] theorem setReg_rdata (s : State) (a : Nat) (v : Word32) : (s.setReg a v).rdata = s.rdata := rfl

/-! ### setCom -/

@[simp] theorem setCom_pending (s : State) (a : Nat) (v : Word32) : (s.setCom a v).pending = s.pending := rfl
@[simp] theorem setCom_clk (s : State) (a : Nat) (v : Word32) : (s.setCom a v).clk = s.clk := rfl
@[simp] theorem setCom_top (s : State) (a : Nat) (v : Word32) : (s.setCom a v).top = s.top := rfl
@[simp] theorem setCom_regs (s : State) (a : Nat) (v : Word32) : (s.setCom a v).regs = s.regs := rfl
@[simp] theorem setCom_cnt (s : State) (a : Nat) (v : Word32) : (s.setCom a v).cnt = s.cnt := rfl
@[simp] theorem setCom_latch (s : State) (a : Nat) (v : Word32) : (s.setCom a v).latch = s.latch := rfl
@[simp] theorem setCom_mems (s : State) (a : Nat) (v : Word32) : (s.setCom a v).mems = s.mems := rfl
@[simp] theorem setCom_threads (s : State) (a : Nat) (v : Word32) : (s.setCom a v).threads = s.threads := rfl
@[simp] theorem setCom_clusters (s : State) (a : Nat) (v : Word32) : (s.setCom a v).clusters = s.clusters := rfl
@[simp] theorem setCom_races (s : State) (a : Nat) (v : Word32) : (s.setCom a v).races = s.races := rfl
@[simp] theorem setCom_cls (s : State) (a : Nat) (v : Word32) : (s.setCom a v).cls = s.cls := rfl
@[simp] theorem setCom_ucs (s : State) (a : Nat) (v : Word32) : (s.setCom a v).ucs = s.ucs := rfl
@[simp] theorem setCom_comps (s : State) (a : Nat) (v : Word32) : (s.setCom a v).comps = s.comps := rfl
@[simp] theorem setCom_nextTask (s : State) (a : Nat) (v : Word32) : (s.setCom a v).nextTask = s.nextTask := rfl
@[simp] theorem setCom_pkts (s : State) (a : Nat) (v : Word32) : (s.setCom a v).pkts = s.pkts := rfl
@[simp] theorem setCom_nextPkt (s : State) (a : Nat) (v : Word32) : (s.setCom a v).nextPkt = s.nextPkt := rfl
@[simp] theorem setCom_rx (s : State) (a : Nat) (v : Word32) : (s.setCom a v).rx = s.rx := rfl
@[simp] theorem setCom_evr (s : State) (a : Nat) (v : Word32) : (s.setCom a v).evr = s.evr := rfl
@[simp] theorem setCom_msix (s : State) (a : Nat) (v : Word32) : (s.setCom a v).msix = s.msix := rfl
@[simp] theorem setCom_link (s : State) (a : Nat) (v : Word32) : (s.setCom a v).link = s.link := rfl
@[simp] theorem setCom_hop (s : State) (a : Nat) (v : Word32) : (s.setCom a v).hop = s.hop := rfl
@[simp] theorem setCom_weirq (s : State) (a : Nat) (v : Word32) : (s.setCom a v).weirq = s.weirq := rfl
@[simp] theorem setCom_ptp (s : State) (a : Nat) (v : Word32) : (s.setCom a v).ptp = s.ptp := rfl
@[simp] theorem setCom_em (s : State) (a : Nat) (v : Word32) : (s.setCom a v).em = s.em := rfl
@[simp] theorem setCom_host (s : State) (a : Nat) (v : Word32) : (s.setCom a v).host = s.host := rfl
@[simp] theorem setCom_mst (s : State) (a : Nat) (v : Word32) : (s.setCom a v).mst = s.mst := rfl
@[simp] theorem setCom_walks (s : State) (a : Nat) (v : Word32) : (s.setCom a v).walks = s.walks := rfl
@[simp] theorem setCom_weir (s : State) (a : Nat) (v : Word32) : (s.setCom a v).weir = s.weir := rfl
@[simp] theorem setCom_refreshed (s : State) (a : Nat) (v : Word32) : (s.setCom a v).refreshed = s.refreshed := rfl
@[simp] theorem setCom_tab (s : State) (a : Nat) (v : Word32) : (s.setCom a v).tab = s.tab := rfl
@[simp] theorem setCom_eg (s : State) (a : Nat) (v : Word32) : (s.setCom a v).eg = s.eg := rfl
@[simp] theorem setCom_coll (s : State) (a : Nat) (v : Word32) : (s.setCom a v).coll = s.coll := rfl
@[simp] theorem setCom_saf (s : State) (a : Nat) (v : Word32) : (s.setCom a v).saf = s.saf := rfl
@[simp] theorem setCom_smb (s : State) (a : Nat) (v : Word32) : (s.setCom a v).smb = s.smb := rfl
@[simp] theorem setCom_dbg (s : State) (a : Nat) (v : Word32) : (s.setCom a v).dbg = s.dbg := rfl
@[simp] theorem setCom_rdata (s : State) (a : Nat) (v : Word32) : (s.setCom a v).rdata = s.rdata := rfl

/-! ### useFree: only the counter of free values moves -/

@[simp] theorem useFree_pending (s : State) : s.useFree.pending = s.pending := rfl
@[simp] theorem useFree_top (s : State) : s.useFree.top = s.top := rfl
@[simp] theorem useFree_regs (s : State) : s.useFree.regs = s.regs := rfl
@[simp] theorem useFree_committed (s : State) : s.useFree.committed = s.committed := rfl
@[simp] theorem useFree_cnt (s : State) : s.useFree.cnt = s.cnt := rfl
@[simp] theorem useFree_latch (s : State) : s.useFree.latch = s.latch := rfl
@[simp] theorem useFree_mems (s : State) : s.useFree.mems = s.mems := rfl
@[simp] theorem useFree_threads (s : State) : s.useFree.threads = s.threads := rfl
@[simp] theorem useFree_clusters (s : State) : s.useFree.clusters = s.clusters := rfl
@[simp] theorem useFree_races (s : State) : s.useFree.races = s.races := rfl
@[simp] theorem useFree_cls (s : State) : s.useFree.cls = s.cls := rfl
@[simp] theorem useFree_ucs (s : State) : s.useFree.ucs = s.ucs := rfl
@[simp] theorem useFree_comps (s : State) : s.useFree.comps = s.comps := rfl
@[simp] theorem useFree_nextTask (s : State) : s.useFree.nextTask = s.nextTask := rfl
@[simp] theorem useFree_pkts (s : State) : s.useFree.pkts = s.pkts := rfl
@[simp] theorem useFree_nextPkt (s : State) : s.useFree.nextPkt = s.nextPkt := rfl
@[simp] theorem useFree_rx (s : State) : s.useFree.rx = s.rx := rfl
@[simp] theorem useFree_evr (s : State) : s.useFree.evr = s.evr := rfl
@[simp] theorem useFree_msix (s : State) : s.useFree.msix = s.msix := rfl
@[simp] theorem useFree_link (s : State) : s.useFree.link = s.link := rfl
@[simp] theorem useFree_hop (s : State) : s.useFree.hop = s.hop := rfl
@[simp] theorem useFree_weirq (s : State) : s.useFree.weirq = s.weirq := rfl
@[simp] theorem useFree_ptp (s : State) : s.useFree.ptp = s.ptp := rfl
@[simp] theorem useFree_em (s : State) : s.useFree.em = s.em := rfl
@[simp] theorem useFree_host (s : State) : s.useFree.host = s.host := rfl
@[simp] theorem useFree_mst (s : State) : s.useFree.mst = s.mst := rfl
@[simp] theorem useFree_walks (s : State) : s.useFree.walks = s.walks := rfl
@[simp] theorem useFree_weir (s : State) : s.useFree.weir = s.weir := rfl
@[simp] theorem useFree_refreshed (s : State) : s.useFree.refreshed = s.refreshed := rfl
@[simp] theorem useFree_tab (s : State) : s.useFree.tab = s.tab := rfl
@[simp] theorem useFree_eg (s : State) : s.useFree.eg = s.eg := rfl
@[simp] theorem useFree_coll (s : State) : s.useFree.coll = s.coll := rfl
@[simp] theorem useFree_saf (s : State) : s.useFree.saf = s.saf := rfl
@[simp] theorem useFree_smb (s : State) : s.useFree.smb = s.smb := rfl
@[simp] theorem useFree_dbg (s : State) : s.useFree.dbg = s.dbg := rfl
@[simp] theorem useFree_rdata (s : State) : s.useFree.rdata = s.rdata := rfl
@[simp] theorem useFree_gtc (s : State) : s.useFree.clk.gtc = s.clk.gtc := rfl
@[simp] theorem useFree_run (s : State) : s.useFree.clk.run = s.clk.run := rfl
@[simp] theorem useFree_frozen (s : State) : s.useFree.clk.frozen = s.clk.frozen := rfl

/-! ### Reading after writing -/

theorem thr_setThr (s : State) (n m : Nat) (x : Thread) : (s.setThr n x).thr m = if m = n then x else s.thr m :=
  mget_mset dThread s.threads n m x
@[simp] theorem thr_setThr_self (s : State) (n : Nat) (x : Thread) : (s.setThr n x).thr n = x := by simp [thr_setThr]
theorem clu_setClu (s : State) (n m : Nat) (x : Cluster) : (s.setClu n x).clu m = if m = n then x else s.clu m :=
  mget_mset dCluster s.clusters n m x
@[simp] theorem clu_setClu_self (s : State) (n : Nat) (x : Cluster) : (s.setClu n x).clu n = x := by simp [clu_setClu]
theorem race_setRace (s : State) (n m : Nat) (x : Race) : (s.setRace n x).race m = if m = n then x else s.race m :=
  mget_mset dRace s.races n m x
@[simp] theorem race_setRace_self (s : State) (n : Nat) (x : Race) : (s.setRace n x).race n = x := by simp [race_setRace]
theorem pkt_setPkt (s : State) (n m : Nat) (x : Packet) : (s.setPkt n x).pkt m = if m = n then x else s.pkt m :=
  mget_mset dPacket s.pkts n m x
@[simp] theorem pkt_setPkt_self (s : State) (n : Nat) (x : Packet) : (s.setPkt n x).pkt n = x := by simp [pkt_setPkt]
theorem reg_setReg (s : State) (a b : Nat) (v : Word32) : (s.setReg a v).reg b = if b = a then v else s.reg b :=
  mget_mset regDefault s.regs a b v
@[simp] theorem reg_setReg_self (s : State) (a : Nat) (v : Word32) : (s.setReg a v).reg a = v := by simp [reg_setReg]
theorem regN_setRegN (s : State) (a b v : Nat) :
    (s.setRegN a v).regN b = if b = a then v % 2 ^ 32 else s.regN b := by
  unfold State.setRegN State.regN
  rw [reg_setReg]
  split <;> simp
theorem com_setCom (s : State) (a b : Nat) (v : Word32) : (s.setCom a v).com b = if b = a then v.toNat else s.com b := by
  unfold State.com State.setCom
  simp only [mget_mset]
  split <;> rfl

/-- The words a word written over another leaves. -/
@[simp] theorem setReg_thr (s : State) (a n : Nat) (v : Word32) : (s.setReg a v).thr n = s.thr n := rfl
@[simp] theorem setReg_pkt (s : State) (a n : Nat) (v : Word32) : (s.setReg a v).pkt n = s.pkt n := rfl
@[simp] theorem setThr_reg (s : State) (n a : Nat) (x : Thread) : (s.setThr n x).reg a = s.reg a := rfl
@[simp] theorem setThr_pkt (s : State) (n k : Nat) (x : Thread) : (s.setThr n x).pkt k = s.pkt k := rfl

end Sys2Proof.Laws
end

