-- ==== Sys2Proof/Laws/Shared.lean ====
section
/-! SUPPORT. What each shared operation can do, said once: counters, free values, events, interrupts, issue. -/

namespace Sys2Proof.Laws

open Sys2Proof Sys2Proof.Machine

/-! ### Counters -/

theorem onlyCounters_refl (s : State) : OnlyCounters s s := ⟨rfl, fun _ _ => rfl⟩

theorem onlyCounters_trans {s t u : State} (h1 : OnlyCounters s t) (h2 : OnlyCounters t u) : OnlyCounters s u := by
  refine ⟨?_, fun a ha => (h2.2 a ha).trans (h1.2 a ha)⟩
  rw [h2.1, h1.1]

/-- A programmable counter changes itself and its overflow bit. -/
theorem progAdd_only (s : State) (u i n : Nat) (hu : u < 107) : OnlyCounters s (s.progAdd u i n) := by
  unfold State.progAdd
  dsimp only
  split
  · exact onlyCounters_refl s
  · split
    · exact ⟨rfl, fun _ _ => rfl⟩
    · refine ⟨rfl, fun a ha => ?_⟩
      unfold State.setRegN
      rw [reg_setReg, if_neg (ha u hu)]
      rfl

theorem foldl_only {α : Type} (f : State → α → State) (hf : ∀ s x, OnlyCounters s (f s x)) (l : List α) :
    ∀ s, OnlyCounters s (l.foldl f s) := by
  induction l with
  | nil => exact onlyCounters_refl
  | cons x l ih => intro s; exact onlyCounters_trans (hf s x) (ih _)

/-- Occurrences of an event change programmable counters of their unit and their overflow bits. -/
theorem occur_only (s : State) (u ev n : Nat) (hu : u < 107) : OnlyCounters s (s.occur u ev n) := by
  unfold State.occur
  refine foldl_only _ (fun s e => ?_) _ s
  split
  · exact progAdd_only s u e.1 n hu
  · exact onlyCounters_refl s

theorem eventOf_unit {a u ev : Nat} (h : eventOf a = some (u, ev)) : u < 107 := by
  unfold eventOf at h
  by_cases h1 : aPortCnt 0 0 ≤ a ∧ a < aPortCnt 512 0
  · rw [if_pos h1] at h
    have h2 : (a - aPortCnt 0 0) / 0x80 < 512 := by
      have := h1.2
      simp only [aPortCnt] at this ⊢
      omega
    dsimp only at h
    split at h <;> simp only [Option.some.injEq, Prod.mk.injEq, reduceCtorEq] at h <;> omega
  rw [if_neg h1] at h
  by_cases h1 : aMstCnt 0 0 ≤ a ∧ a < aMstCnt 32 0
  · rw [if_pos h1] at h
    have h2 : (a - aMstCnt 0 0) / 0x40 < 32 := by
      have := h1.2
      simp only [aMstCnt] at this ⊢
      omega
    dsimp only at h
    split at h <;> simp only [Option.some.injEq, Prod.mk.injEq, reduceCtorEq] at h <;> omega
  rw [if_neg h1] at h
  split at h
  · simp only [Option.some.injEq, Prod.mk.injEq] at h; omega
  split at h
  · simp only [Option.some.injEq, Prod.mk.injEq] at h; omega
  split at h
  · rename_i h1
    simp only [Option.some.injEq, Prod.mk.injEq] at h
    simp only [aQshCnt] at h h1
    omega
  split at h
  · rename_i h1
    simp only [Option.some.injEq, Prod.mk.injEq] at h
    simp only [aRaceLateCnt] at h h1
    omega
  · cases h

/-- A counter changes itself, and programmable counters that count the same. -/
theorem bump_only (s : State) (a n : Nat) : OnlyCounters s (s.bump a n) := by
  unfold State.bump
  dsimp only
  split
  · exact onlyCounters_refl s
  · split
    · rename_i u ev h
      exact onlyCounters_trans ⟨rfl, fun _ _ => rfl⟩ (occur_only _ u ev _ (eventOf_unit h))
    · exact ⟨rfl, fun _ _ => rfl⟩

/-- A heartbeat's probe uses a free value and moves counters only. -/
theorem probe_only (s : State) : OnlyCounters s.useFree s.probe := bump_only _ _ _

/-! ### Requests to the Hopper -/

/-- A request joins the tail of the Hopper's list; nothing else changes. -/
theorem askHopper_only (s : State) (u src o : Nat) (w : ReqFor) :
    s.askHopper u src o w =
      { s with hop := { s.hop with reqs := s.hop.reqs ++ [{ key := ekey (s.islGtc u) src, owner := o, who := w }] } } :=
  rfl

/-- Those that are withdrawn are gone; the others stay as they stood. -/
theorem mem_withdraw (s : State) (f : ReqFor → Bool) (q : CellReq) :
    q ∈ (s.withdraw f).hop.reqs ↔ q ∈ s.hop.reqs ∧ f q.who = false := by
  simp [State.withdraw]

/-- The request that is decided next was asked for. -/
theorem lowestReq_mem {l : List CellReq} {q : CellReq} (h : lowestReq l = some q) : q ∈ l := by
  induction l generalizing q with
  | nil => cases h
  | cons a l ih =>
    unfold lowestReq at h
    split at h
    · rename_i b hb
      split at h <;> cases h
      · exact List.mem_cons_of_mem _ (ih hb)
      · exact List.mem_cons_self
    · cases h
      exact List.mem_cons_self

end Sys2Proof.Laws
end

