-- ==== Sys2Proof/Laws/Issue.lean ====
section
/-! SUPPORT. What issuing an instruction can do: the counting of its slots, its boundary, and the thread's new state. -/

namespace Sys2Proof.Laws

open Sys2Proof Sys2Proof.Machine

theorem raceOf_thrNum (t : ThreadId) : raceOf (thrNum t) = t.race.val := by
  have := t.race.isLt
  have := t.cluster.isLt
  have := t.engine.isLt
  have := t.thread.isLt
  unfold raceOf thrNum
  omega

/-- Counting an instruction's slots moves counters only. -/
theorem issued_only (s : State) (t : ThreadId) (c : Ctx) (w : Word32) : OnlyCounters s (s.issued (thrNum t) c w) := by
  have hr : 64 + raceOf (thrNum t) < 107 := by
    have := t.race.isLt
    rw [raceOf_thrNum]
    omega
  unfold State.issued State.slotsSpent
  dsimp only
  split <;> split
  · exact onlyCounters_refl s
  · exact occur_only _ _ _ _ hr
  · exact onlyCounters_refl s
  · exact occur_only _ _ _ _ hr

/-- An instruction that may issue has its effect at its boundary. -/
theorem issue_effect {t : ThreadId} {w : Word32} {c : Ctx} {s : State} (bad : Bool) (body : Nat → Ctx → State → State)
    (h : Issues t w c s) : issue t w bad s body = .next (s.effect (thrNum t) c w bad body) := by
  obtain ⟨h1, h2, h3, h4, h5, h6, h7⟩ := h
  unfold issue State.badMicro
  simp [h1, h2, h3, h4, h5, h6, h7]

/-- One that is no reserved encoding does what its rule says. -/
theorem issue_next {t : ThreadId} {w : Word32} {c : Ctx} {s : State} (body : Nat → Ctx → State → State)
    (h : Issues t w c s) :
    issue t w false s body =
      .next (((body (thrNum t) c s).issued (thrNum t) c w).boundary (thrNum t) c.task) :=
  issue_effect false body h

/-- A reserved encoding has one of the effects of R484 case 10. -/
theorem issue_reserved {t : ThreadId} {w : Word32} {c : Ctx} {s : State} (body : Nat → Ctx → State → State)
    (h : Issues t w c s) :
    issue t w true s body =
      .next (((s.anything (thrNum t) c).issued (thrNum t) c w).boundary (thrNum t) c.task) :=
  issue_effect true body h

/-- A turn changes only the ready lists of the thread's cluster. -/
theorem turn_only (s : State) (n p : Nat) : s.turn n p = { s with clusters := (s.turn n p).clusters } := by
  unfold State.turn
  dsimp only
  split <;> rfl

@[simp] theorem thr_turn (s : State) (n p m : Nat) : (s.turn n p).thr m = s.thr m := by rw [turn_only]; rfl

/-- A turn of a state depends on its clusters alone. -/
theorem turn_clusters (s u : State) (n p : Nat) (h : u.clusters = s.clusters) :
    (u.turn n p).clusters = (s.turn n p).clusters := by
  have hc : ∀ k, u.clu k = s.clu k := fun k => by unfold State.clu; rw [h]
  unfold State.turn State.join State.unready
  simp only [hc]
  split
  · simp [State.setClu, State.clu, h]
  · exact h

/-- A thread that may issue stands at no gate. -/
theorem issues_gate {t : ThreadId} {w : Word32} {c : Ctx} {s : State} (h : Issues t w c s) :
    (s.thr (thrNum t)).gate = none := by
  have h2 := h.2.1
  unfold State.selectable at h2
  simp only [Bool.and_eq_true, Option.isNone_iff_eq_none] at h2
  exact h2.1.1.1.1.1.2

/-- An instruction whose whole effect is the thread's new state lets the thread go on with it. -/
theorem issue_goesOn {t : ThreadId} {w : Word32} {c c' : Ctx} {s : State} (body : Nat → Ctx → State → State)
    (h : Issues t w c s) (hn : NoHalt t s) (hb : body (thrNum t) c s = s.putCtx (thrNum t) c') (ht : c'.task = c.task) :
    GoesOn t c' s (issue t w false s body) := by
  rw [issue_next body h, hb]
  have hg := issues_gate h
  generalize hu : (s.putCtx (thrNum t) c').issued (thrNum t) c w = u
  have ho : OnlyCounters (s.putCtx (thrNum t) c') u := hu ▸ issued_only _ t c w
  have hthr : ∀ m, u.thr m = (s.putCtx (thrNum t) c').thr m := fun m => by rw [ho.1]; rfl
  have hself : u.thr (thrNum t) = { (s.thr (thrNum t)) with ctx := some c' } := by
    rw [hthr]; exact thr_setThr_self _ _ _
  have hb2 : u.boundary (thrNum t) c.task = (u.setThr (thrNum t)
      { (s.thr (thrNum t)) with ctx := some c', bpPass := false, micro := {} }).turn (thrNum t) c'.prio := by
    unfold State.boundary
    rw [hself]
    simp [ht, hg, hn.1, hn.2]
  have hc : ((u.setThr (thrNum t) { (s.thr (thrNum t)) with ctx := some c', bpPass := false, micro := {} }).turn
      (thrNum t) c'.prio).clusters = (s.turn (thrNum t) c'.prio).clusters :=
    turn_clusters _ _ _ _ (show u.clusters = s.clusters by rw [ho.1]; rfl)
  refine ⟨_, rfl, ?_, fun m hm => ?_, ?_⟩
  · rw [hb2, thr_turn, thr_setThr_self]
  · rw [hb2, thr_turn, thr_setThr, if_neg hm, hthr]
    exact (thr_setThr _ _ _ _).trans (if_neg hm)
  · rw [hb2, turn_only, hc]
    refine ⟨?_, fun a ha => ho.2 a ha⟩
    rw [ho.1]; rfl

/-- The next instruction of the image's code. -/
theorem retire_eq {t : ThreadId} {c : Ctx} {s : State} (c' : Ctx) (hc : c'.pc = c.pc) (hi : c'.img = c.img)
    (h : MoreCode t c s) : s.retire (thrNum t) c' = s.putCtx (thrNum t) (Ctx.next c') := by
  have hl : s.codeLen t.race.val c' = s.codeLen t.race.val c := by
    unfold State.codeLen State.img
    rw [hi]
  unfold State.retire State.goTo
  rw [raceOf_thrNum, hl, hc]
  have hlt : (c.pc.toNat : Int) + 1 < (s.codeLen t.race.val c : Int) := by
    have := h
    unfold MoreCode at this
    omega
  rw [if_pos ⟨by omega, hlt⟩]
  unfold Ctx.next
  have : BitVec.ofInt 15 ((c.pc.toNat : Int) + 1) = c.pc + 1 := by
    apply BitVec.eq_of_toNat_eq
    simp
    omega
  rw [this, hc]

end Sys2Proof.Laws
end

