-- ==== Sys2Proof/Laws/PerInstr.lean ====
section
/-! SUPPORT. What holds of every command as syntax, one lemma a constructor: only an engine instruction can be a reserved
encoding (R52). -/

namespace Sys2Proof.Laws

/-- The thread that executes the command, where it is an engine instruction. -/
def threadOf : Instr → Option ThreadId
  | .aluReg t _ _ _ _ _ => some t
  | .aluImm t _ _ _ _ _ => some t
  | .aluLi t _ _ => some t
  | .aluLih t _ _ => some t
  | .ld t _ _ _ _ _ _ => some t
  | .st t _ _ _ _ _ _ => some t
  | .ext t _ _ _ _ => some t
  | .ins t _ _ _ _ => some t
  | .br t _ _ => some t
  | .brLink t _ _ => some t
  | .brReg t _ => some t
  | .brRc t _ _ _ _ => some t
  | .csumAdj t _ _ _ _ => some t
  | .tstamp t _ _ _ => some t
  | .flowGet t _ _ _ => some t
  | .flowAdd t _ _ _ _ _ _ => some t
  | .flowCas t _ _ _ _ _ _ => some t
  | .flowIns t _ _ _ => some t
  | .flowDel t _ _ _ => some t
  | .lkpEm t _ _ _ _ _ _ => some t
  | .lkpLpm t _ _ _ _ _ => some t
  | .hashCrc32c t _ _ _ _ _ => some t
  | .csumSum t _ _ _ _ _ => some t
  | .meter t _ _ _ _ _ _ => some t
  | .hashCrc32 t _ _ _ _ _ => some t
  | .hashH0 t _ _ _ _ _ => some t
  | .wait t _ _ => some t
  | .delay t _ _ _ _ => some t
  | .yield t => some t
  | .ordrel t => some t
  | .emit t _ _ _ => some t
  | .drop t _ => some t
  | .trap t _ _ => some t
  | .recirc t => some t
  | _ => none

namespace Reserved

-- one lemma after another: as many tasks at once as there are lemmas exhaust the threads
set_option Elab.async false

/-- A reserved encoding is one of an engine instruction. -/
def Statement (i : Instr) : Prop := i.reserved = true → (threadOf i).isSome = true

theorem aluReg (t : ThreadId) (rd ra rb : GReg) (f : Bool) (fn : BitVec 5) : Statement (.aluReg t rd ra rb f fn) := by
  simp [Statement, Instr.reserved, threadOf]
theorem aluImm (t : ThreadId) (rd ra : GReg) (f : Bool) (fn : BitVec 5) (imm : BitVec 12) : Statement (.aluImm t rd ra f fn imm) := by
  simp [Statement, Instr.reserved, threadOf]
theorem aluLi (t : ThreadId) (rd : GReg) (imm : Half) : Statement (.aluLi t rd imm) := by
  simp [Statement, Instr.reserved, threadOf]
theorem aluLih (t : ThreadId) (rd : GReg) (imm : Half) : Statement (.aluLih t rd imm) := by
  simp [Statement, Instr.reserved, threadOf]
theorem ld (t : ThreadId) (rd : GReg) (space size : BitVec 2) (x : Bool) (ra : GReg) (off : Byte) : Statement (.ld t rd space size x ra off) := by
  simp [Statement, Instr.reserved, threadOf]
theorem st (t : ThreadId) (rd : GReg) (space size : BitVec 2) (x : Bool) (ra : GReg) (off : Byte) : Statement (.st t rd space size x ra off) := by
  simp [Statement, Instr.reserved, threadOf]
theorem ext (t : ThreadId) (rd ra : GReg) (pos len1 : BitVec 6) : Statement (.ext t rd ra pos len1) := by
  simp [Statement, Instr.reserved, threadOf]
theorem ins (t : ThreadId) (rd ra : GReg) (pos len1 : BitVec 6) : Statement (.ins t rd ra pos len1) := by
  simp [Statement, Instr.reserved, threadOf]
theorem br (t : ThreadId) (cond : BitVec 4) (off : Half) : Statement (.br t cond off) := by
  simp [Statement, Instr.reserved, threadOf]
theorem brLink (t : ThreadId) (rd : GReg) (off : Half) : Statement (.brLink t rd off) := by
  simp [Statement, Instr.reserved, threadOf]
theorem brReg (t : ThreadId) (ra : GReg) : Statement (.brReg t ra) := by
  simp [Statement, Instr.reserved, threadOf]
theorem brRc (t : ThreadId) (tag : GReg) (code : BitVec 4) (sense : Bool) (off : Half) : Statement (.brRc t tag code sense off) := by
  simp [Statement, Instr.reserved, threadOf]
theorem csumAdj (t : ThreadId) (rd ra rb : GReg) (width : BitVec 2) : Statement (.csumAdj t rd ra rb width) := by
  simp [Statement, Instr.reserved, threadOf]
theorem tstamp (t : ThreadId) (rd : GReg) (sel : BitVec 3) (off : Byte) : Statement (.tstamp t rd sel off) := by
  simp [Statement, Instr.reserved, threadOf]
theorem flowGet (t : ThreadId) (rd tag : GReg) (mask : Half) : Statement (.flowGet t rd tag mask) := by
  simp [Statement, Instr.reserved, threadOf]
theorem flowAdd (t : ThreadId) (rd tag ra rb : GReg) (word : BitVec 4) (mode : BitVec 2) : Statement (.flowAdd t rd tag ra rb word mode) := by
  simp [Statement, Instr.reserved, threadOf]
theorem flowCas (t : ThreadId) (rd tag ra rb : GReg) (word : BitVec 4) (u : Bool) : Statement (.flowCas t rd tag ra rb word u) := by
  simp [Statement, Instr.reserved, threadOf]
theorem flowIns (t : ThreadId) (rd tag : GReg) (persist : Bool) : Statement (.flowIns t rd tag persist) := by
  simp [Statement, Instr.reserved, threadOf]
theorem flowDel (t : ThreadId) (rd tag ra : GReg) : Statement (.flowDel t rd tag ra) := by
  simp [Statement, Instr.reserved, threadOf]
theorem lkpEm (t : ThreadId) (rd tag ra rb : GReg) (type : BitVec 3) (learn : Bool) : Statement (.lkpEm t rd tag ra rb type learn) := by
  simp [Statement, Instr.reserved, threadOf]
theorem lkpLpm (t : ThreadId) (rd tag ra : GReg) (v6 : Bool) (off : Byte) : Statement (.lkpLpm t rd tag ra v6 off) := by
  simp [Statement, Instr.reserved, threadOf]
theorem hashCrc32c (t : ThreadId) (rd tag : GReg) (space : BitVec 2) (len off : Byte) : Statement (.hashCrc32c t rd tag space len off) := by
  simp [Statement, Instr.reserved, threadOf]
theorem csumSum (t : ThreadId) (rd tag : GReg) (space : BitVec 2) (len off : Byte) : Statement (.csumSum t rd tag space len off) := by
  simp [Statement, Instr.reserved, threadOf]
theorem meter (t : ThreadId) (rd tag ra rb : GReg) (f c : Bool) : Statement (.meter t rd tag ra rb f c) := by
  simp [Statement, Instr.reserved, threadOf]
theorem hashCrc32 (t : ThreadId) (rd tag : GReg) (space : BitVec 2) (len off : Byte) : Statement (.hashCrc32 t rd tag space len off) := by
  simp [Statement, Instr.reserved, threadOf]
theorem hashH0 (t : ThreadId) (rd tag : GReg) (space : BitVec 2) (len off : Byte) : Statement (.hashH0 t rd tag space len off) := by
  simp [Statement, Instr.reserved, threadOf]
theorem wait (t : ThreadId) (kind : BitVec 2) (n : BitVec 9) : Statement (.wait t kind n) := by
  simp [Statement, Instr.reserved, threadOf]
theorem delay (t : ThreadId) (unit : BitVec 2) (x : Bool) (ra : GReg) (count : Half) : Statement (.delay t unit x ra count) := by
  simp [Statement, Instr.reserved, threadOf]
theorem yield (t : ThreadId) : Statement (.yield t) := by
  simp [Statement, Instr.reserved, threadOf]
theorem ordrel (t : ThreadId) : Statement (.ordrel t) := by
  simp [Statement, Instr.reserved, threadOf]
theorem emit (t : ThreadId) (q m : Bool) (ra : GReg) : Statement (.emit t q m ra) := by
  simp [Statement, Instr.reserved, threadOf]
theorem drop (t : ThreadId) (reason : Byte) : Statement (.drop t reason) := by
  simp [Statement, Instr.reserved, threadOf]
theorem trap (t : ThreadId) (ring : BitVec 6) (code : Byte) : Statement (.trap t ring code) := by
  simp [Statement, Instr.reserved, threadOf]
theorem recirc (t : ThreadId) : Statement (.recirc t) := by
  simp [Statement, Instr.reserved, threadOf]
theorem interruptTaken (t : ThreadId) (ecc : Bool) : Statement (.interruptTaken t ecc) := by
  simp [Statement, Instr.reserved, threadOf]
theorem gateConditionTrue (t : ThreadId) : Statement (.gateConditionTrue t) := by
  simp [Statement, Instr.reserved, threadOf]
theorem asyncComplete (t : ThreadId) (tag : GReg) (ecc : Bool) : Statement (.asyncComplete t tag ecc) := by
  simp [Statement, Instr.reserved, threadOf]
theorem flowOpApply (slice : SliceId) : Statement (.flowOpApply slice) := by
  simp [Statement, Instr.reserved, threadOf]
theorem missQueueRoom (slice : SliceId) : Statement (.missQueueRoom slice) := by
  simp [Statement, Instr.reserved, threadOf]
theorem journalRoom (slice : SliceId) : Statement (.journalRoom slice) := by
  simp [Statement, Instr.reserved, threadOf]
theorem emLookupApply (race : RaceId) : Statement (.emLookupApply race) := by
  simp [Statement, Instr.reserved, threadOf]
theorem lpmLookupApply (race : RaceId) : Statement (.lpmLookupApply race) := by
  simp [Statement, Instr.reserved, threadOf]
theorem meterApply : Statement .meterApply := by
  simp [Statement, Instr.reserved, threadOf]
theorem hashApply (race : RaceId) (cluster : ClusterId) : Statement (.hashApply race cluster) := by
  simp [Statement, Instr.reserved, threadOf]
theorem frameReceive (port : PortId) (part : RxPart) (bytes : List Byte) (fcsOk : Bool) (preempt : Bool) : Statement (.frameReceive port part bytes fcsOk preempt) := by
  simp [Statement, Instr.reserved, threadOf]
theorem headerBytesArrive (port : PortId) (n : Nat) : Statement (.headerBytesArrive port n) := by
  simp [Statement, Instr.reserved, threadOf]
theorem cellRequest : Statement .cellRequest := by
  simp [Statement, Instr.reserved, threadOf]
theorem noCellDrop : Statement .noCellDrop := by
  simp [Statement, Instr.reserved, threadOf]
theorem refRelease : Statement .refRelease := by
  simp [Statement, Instr.reserved, threadOf]
theorem hostTxRetry (part : Part) : Statement (.hostTxRetry part) := by
  simp [Statement, Instr.reserved, threadOf]
theorem parserAdmit (race : RaceId) : Statement (.parserAdmit race) := by
  simp [Statement, Instr.reserved, threadOf]
theorem leatAdmit (race : RaceId) : Statement (.leatAdmit race) := by
  simp [Statement, Instr.reserved, threadOf]
theorem heldPassEnqueue (race : RaceId) : Statement (.heldPassEnqueue race) := by
  simp [Statement, Instr.reserved, threadOf]
theorem taskDeal (race : RaceId) : Statement (.taskDeal race) := by
  simp [Statement, Instr.reserved, threadOf]
theorem dueTaskTake (race : RaceId) (cluster : ClusterId) : Statement (.dueTaskTake race cluster) := by
  simp [Statement, Instr.reserved, threadOf]
theorem delayTick (race : RaceId) (unit : Fin 4) : Statement (.delayTick race unit) := by
  simp [Statement, Instr.reserved, threadOf]
theorem delayEntryObtained (t : ThreadId) : Statement (.delayEntryObtained t) := by
  simp [Statement, Instr.reserved, threadOf]
theorem dueTaskEnqueue (race : RaceId) (unit : Fin 4) : Statement (.dueTaskEnqueue race unit) := by
  simp [Statement, Instr.reserved, threadOf]
theorem keepaliveFire (race : RaceId) (timer : Fin 4096) : Statement (.keepaliveFire race timer) := by
  simp [Statement, Instr.reserved, threadOf]
theorem reorderTimeout (race : RaceId) : Statement (.reorderTimeout race) := by
  simp [Statement, Instr.reserved, threadOf]
theorem budgetWatchdog (race : RaceId) (task : Nat) : Statement (.budgetWatchdog race task) := by
  simp [Statement, Instr.reserved, threadOf]
theorem tailraceEnqueue (race : RaceId) : Statement (.tailraceEnqueue race) := by
  simp [Statement, Instr.reserved, threadOf]
theorem multicastReplicate : Statement .multicastReplicate := by
  simp [Statement, Instr.reserved, threadOf]
theorem spillWrite (queue : Nat) : Statement (.spillWrite queue) := by
  simp [Statement, Instr.reserved, threadOf]
theorem portSelect (port : PortId) : Statement (.portSelect port) := by
  simp [Statement, Instr.reserved, threadOf]
theorem frameTxDone (port : PortId) : Statement (.frameTxDone port) := by
  simp [Statement, Instr.reserved, threadOf]
theorem gateEntryAdvance (port : PortId) : Statement (.gateEntryAdvance port) := by
  simp [Statement, Instr.reserved, threadOf]
theorem gateListSwitch (port : PortId) : Statement (.gateListSwitch port) := by
  simp [Statement, Instr.reserved, threadOf]
theorem pfcFrameReceived (port : PortId) (mask : Byte) (times : BitVec 128) : Statement (.pfcFrameReceived port mask times) := by
  simp [Statement, Instr.reserved, threadOf]
theorem pfcPauseExpire (port : PortId) (prio : Fin 8) : Statement (.pfcPauseExpire port prio) := by
  simp [Statement, Instr.reserved, threadOf]
theorem pfcRefresh (port : PortId) (prio : Fin 8) : Statement (.pfcRefresh port prio) := by
  simp [Statement, Instr.reserved, threadOf]
theorem linkUp (port : PortId) : Statement (.linkUp port) := by
  simp [Statement, Instr.reserved, threadOf]
theorem linkDown (port : PortId) : Statement (.linkDown port) := by
  simp [Statement, Instr.reserved, threadOf]
theorem verifyResponse (port : PortId) : Statement (.verifyResponse port) := by
  simp [Statement, Instr.reserved, threadOf]
theorem verifyTimeout (port : PortId) : Statement (.verifyTimeout port) := by
  simp [Statement, Instr.reserved, threadOf]
theorem modRead (m : Master) (octet : Fin 64) : Statement (.modRead m octet) := by
  simp [Statement, Instr.reserved, threadOf]
theorem modWrite (m : Master) (octet : Fin 64) : Statement (.modWrite m octet) := by
  simp [Statement, Instr.reserved, threadOf]
theorem modTransactionDone (octet : Fin 64) (ok : Bool) (data : Word64) : Statement (.modTransactionDone octet ok data) := by
  simp [Statement, Instr.reserved, threadOf]
theorem modulePresenceChange (octet : Fin 64) (present : Bool) : Statement (.modulePresenceChange octet present) := by
  simp [Statement, Instr.reserved, threadOf]
theorem moduleInt (octet : Fin 64) (level : Bool) : Statement (.moduleInt octet level) := by
  simp [Statement, Instr.reserved, threadOf]
theorem sweeperPassStart (slice : SliceId) : Statement (.sweeperPassStart slice) := by
  simp [Statement, Instr.reserved, threadOf]
theorem sweeperVisit (slice : SliceId) : Statement (.sweeperVisit slice) := by
  simp [Statement, Instr.reserved, threadOf]
theorem agerPass (race : RaceId) : Statement (.agerPass race) := by
  simp [Statement, Instr.reserved, threadOf]
theorem learnApply (race : RaceId) : Statement (.learnApply race) := by
  simp [Statement, Instr.reserved, threadOf]
theorem holddownExpire (race : RaceId) (key : Word64) (type : BitVec 3) : Statement (.holddownExpire race key type) := by
  simp [Statement, Instr.reserved, threadOf]
theorem walkTimeout (part : Part) : Statement (.walkTimeout part) := by
  simp [Statement, Instr.reserved, threadOf]
theorem restampDone (table : Nat) : Statement (.restampDone table) := by
  simp [Statement, Instr.reserved, threadOf]
theorem meterRefresh (meter : Nat) : Statement (.meterRefresh meter) := by
  simp [Statement, Instr.reserved, threadOf]
theorem nop (c : HostCmd) : Statement (.nop c) := by
  simp [Statement, Instr.reserved, threadOf]
theorem abort (c : HostCmd) : Statement (.abort c) := by
  simp [Statement, Instr.reserved, threadOf]
theorem commit (c : HostCmd) : Statement (.commit c) := by
  simp [Statement, Instr.reserved, threadOf]
theorem attest (c : HostCmd) : Statement (.attest c) := by
  simp [Statement, Instr.reserved, threadOf]
theorem attestDone (part : Part) (ring : Fin 4) (tag : Word32) : Statement (.attestDone part ring tag) := by
  simp [Statement, Instr.reserved, threadOf]
theorem search (c : HostCmd) : Statement (.search c) := by
  simp [Statement, Instr.reserved, threadOf]
theorem insert (c : HostCmd) : Statement (.insert c) := by
  simp [Statement, Instr.reserved, threadOf]
theorem delete (c : HostCmd) : Statement (.delete c) := by
  simp [Statement, Instr.reserved, threadOf]
theorem next (c : HostCmd) : Statement (.next c) := by
  simp [Statement, Instr.reserved, threadOf]
theorem flushPort (c : HostCmd) : Statement (.flushPort c) := by
  simp [Statement, Instr.reserved, threadOf]
theorem lpmUpdate (c : HostCmd) : Statement (.lpmUpdate c) := by
  simp [Statement, Instr.reserved, threadOf]
theorem walkStart (c : HostCmd) : Statement (.walkStart c) := by
  simp [Statement, Instr.reserved, threadOf]
theorem flowSearch (c : HostCmd) : Statement (.flowSearch c) := by
  simp [Statement, Instr.reserved, threadOf]
theorem flowInsert (c : HostCmd) : Statement (.flowInsert c) := by
  simp [Statement, Instr.reserved, threadOf]
theorem flowDelete (c : HostCmd) : Statement (.flowDelete c) := by
  simp [Statement, Instr.reserved, threadOf]
theorem flowNext (c : HostCmd) : Statement (.flowNext c) := by
  simp [Statement, Instr.reserved, threadOf]
theorem flowFlushPort (c : HostCmd) : Statement (.flowFlushPort c) := by
  simp [Statement, Instr.reserved, threadOf]
theorem versionCommit (c : HostCmd) : Statement (.versionCommit c) := by
  simp [Statement, Instr.reserved, threadOf]
theorem versionChecksDone (part : Part) (ring : Fin 4) (tag : Word32) : Statement (.versionChecksDone part ring tag) := by
  simp [Statement, Instr.reserved, threadOf]
theorem versionActivate (part : Part) (ring : Fin 4) (tag : Word32) : Statement (.versionActivate part ring tag) := by
  simp [Statement, Instr.reserved, threadOf]
theorem versionStatus (c : HostCmd) : Statement (.versionStatus c) := by
  simp [Statement, Instr.reserved, threadOf]
theorem snapshot (c : HostCmd) : Statement (.snapshot c) := by
  simp [Statement, Instr.reserved, threadOf]
theorem snapshotLatch : Statement .snapshotLatch := by
  simp [Statement, Instr.reserved, threadOf]
theorem counterFreeze : Statement .counterFreeze := by
  simp [Statement, Instr.reserved, threadOf]
theorem counterUnfreeze : Statement .counterUnfreeze := by
  simp [Statement, Instr.reserved, threadOf]
theorem dumpCfg (c : HostCmd) : Statement (.dumpCfg c) := by
  simp [Statement, Instr.reserved, threadOf]
theorem dumpDue (part : Part) (stream : Fin 2) : Statement (.dumpDue part stream) := by
  simp [Statement, Instr.reserved, threadOf]
theorem dumpComplete (part : Part) (stream : Fin 2) : Statement (.dumpComplete part stream) := by
  simp [Statement, Instr.reserved, threadOf]
theorem evrFreeze (c : HostCmd) : Statement (.evrFreeze c) := by
  simp [Statement, Instr.reserved, threadOf]
theorem evrThaw (c : HostCmd) : Statement (.evrThaw c) := by
  simp [Statement, Instr.reserved, threadOf]
theorem evrFreezeExpire : Statement .evrFreezeExpire := by
  simp [Statement, Instr.reserved, threadOf]
theorem evrRead (c : HostCmd) : Statement (.evrRead c) := by
  simp [Statement, Instr.reserved, threadOf]
theorem evrClearSec (c : HostCmd) : Statement (.evrClearSec c) := by
  simp [Statement, Instr.reserved, threadOf]
theorem eventRecord : Statement .eventRecord := by
  simp [Statement, Instr.reserved, threadOf]
theorem maintStart (c : HostCmd) : Statement (.maintStart c) := by
  simp [Statement, Instr.reserved, threadOf]
theorem maintStop (c : HostCmd) : Statement (.maintStop c) := by
  simp [Statement, Instr.reserved, threadOf]
theorem maintStatus (c : HostCmd) : Statement (.maintStatus c) := by
  simp [Statement, Instr.reserved, threadOf]
theorem maintAutoStart (activity : Fin 13) : Statement (.maintAutoStart activity) := by
  simp [Statement, Instr.reserved, threadOf]
theorem maintEnd (activity : Fin 13) (ok : Bool) : Statement (.maintEnd activity ok) := by
  simp [Statement, Instr.reserved, threadOf]
theorem patchLoad (c : HostCmd) : Statement (.patchLoad c) := by
  simp [Statement, Instr.reserved, threadOf]
theorem patchActivate (c : HostCmd) : Statement (.patchActivate c) := by
  simp [Statement, Instr.reserved, threadOf]
theorem patchClusterDrained (race : RaceId) : Statement (.patchClusterDrained race) := by
  simp [Statement, Instr.reserved, threadOf]
theorem patchDrainTimeout (race : RaceId) : Statement (.patchDrainTimeout race) := by
  simp [Statement, Instr.reserved, threadOf]
theorem patchHeartbeatResult (race : RaceId) (failed : List EngineId) : Statement (.patchHeartbeatResult race failed) := by
  simp [Statement, Instr.reserved, threadOf]
theorem bufAlloc (c : HostCmd) : Statement (.bufAlloc c) := by
  simp [Statement, Instr.reserved, threadOf]
theorem bufFree (c : HostCmd) : Statement (.bufFree c) := by
  simp [Statement, Instr.reserved, threadOf]
theorem modeReq (c : HostCmd) : Statement (.modeReq c) := by
  simp [Statement, Instr.reserved, threadOf]
theorem blockReset (c : HostCmd) : Statement (.blockReset c) := by
  simp [Statement, Instr.reserved, threadOf]
theorem islandQuiesced : Statement .islandQuiesced := by
  simp [Statement, Instr.reserved, threadOf]
theorem quiesceTimeout : Statement .quiesceTimeout := by
  simp [Statement, Instr.reserved, threadOf]
theorem islandResumed : Statement .islandResumed := by
  simp [Statement, Instr.reserved, threadOf]
theorem warmReset (c : HostCmd) : Statement (.warmReset c) := by
  simp [Statement, Instr.reserved, threadOf]
theorem restartQuiesced : Statement .restartQuiesced := by
  simp [Statement, Instr.reserved, threadOf]
theorem clocksValid : Statement .clocksValid := by
  simp [Statement, Instr.reserved, threadOf]
theorem trimApplied (fails : BitVec 32) : Statement (.trimApplied fails) := by
  simp [Statement, Instr.reserved, threadOf]
theorem bootComplete (slotA slotB : Bool) : Statement (.bootComplete slotA slotB) := by
  simp [Statement, Instr.reserved, threadOf]
theorem vin12Rise : Statement .vin12Rise := by
  simp [Statement, Instr.reserved, threadOf]
theorem brownOut (rail : Option Byte) : Statement (.brownOut rail) := by
  simp [Statement, Instr.reserved, threadOf]
theorem powerFailWarning : Statement .powerFailWarning := by
  simp [Statement, Instr.reserved, threadOf]
theorem commitEnd : Statement .commitEnd := by
  simp [Statement, Instr.reserved, threadOf]
theorem rstNRelease (lowNs : Nat) : Statement (.rstNRelease lowNs) := by
  simp [Statement, Instr.reserved, threadOf]
theorem rstNLow100ms : Statement .rstNLow100ms := by
  simp [Statement, Instr.reserved, threadOf]
theorem windshaftWatchdog (pair : Fin 4) : Statement (.windshaftWatchdog pair) := by
  simp [Statement, Instr.reserved, threadOf]
theorem lockstepMismatch (pair : Fin 4) : Statement (.lockstepMismatch pair) := by
  simp [Statement, Instr.reserved, threadOf]
theorem resonatorFail (which : Fin 2) : Statement (.resonatorFail which) := by
  simp [Statement, Instr.reserved, threadOf]
theorem bothResonatorsFail : Statement .bothResonatorsFail := by
  simp [Statement, Instr.reserved, threadOf]
theorem islandPllLostLock (island : Fin 107) : Statement (.islandPllLostLock island) := by
  simp [Statement, Instr.reserved, threadOf]
theorem gtcSync (island : Fin 107) (drift : Int) : Statement (.gtcSync island drift) := by
  simp [Statement, Instr.reserved, threadOf]
theorem partitionReset (part : Part) (perst : Bool) : Statement (.partitionReset part perst) := by
  simp [Statement, Instr.reserved, threadOf]
theorem partitionResetClear (part : Part) : Statement (.partitionResetClear part) := by
  simp [Statement, Instr.reserved, threadOf]
theorem hostBuffersReturn (part : Part) : Statement (.hostBuffersReturn part) := by
  simp [Statement, Instr.reserved, threadOf]
theorem cmdPiDoorbell (part : Part) (ring : Fin 4) (value : Word32) : Statement (.cmdPiDoorbell part ring value) := by
  simp [Statement, Instr.reserved, threadOf]
theorem cmdChDoorbell (part : Part) (ring : Fin 4) (value : Word32) : Statement (.cmdChDoorbell part ring value) := by
  simp [Statement, Instr.reserved, threadOf]
theorem rxTailDoorbell (part : Part) (ring : Fin 64) (value : Word32) : Statement (.rxTailDoorbell part ring value) := by
  simp [Statement, Instr.reserved, threadOf]
theorem txTailDoorbell (part : Part) (ring : Fin 64) (value : Word32) : Statement (.txTailDoorbell part ring value) := by
  simp [Statement, Instr.reserved, threadOf]
theorem txDescriptor (part : Part) (ring : Fin 64) : Statement (.txDescriptor part ring) := by
  simp [Statement, Instr.reserved, threadOf]
theorem txWriteback (part : Part) (ring : Fin 64) : Statement (.txWriteback part ring) := by
  simp [Statement, Instr.reserved, threadOf]
theorem rxPacketWrite (part : Part) (ring : Fin 64) : Statement (.rxPacketWrite part ring) := by
  simp [Statement, Instr.reserved, threadOf]
theorem stagedCommitGo (m : Master) (addr : Nat) : Statement (.stagedCommitGo m addr) := by
  simp [Statement, Instr.reserved, threadOf]
theorem stagedCommitDiscard (m : Master) (addr : Nat) : Statement (.stagedCommitDiscard m addr) := by
  simp [Statement, Instr.reserved, threadOf]
theorem gateCommit (m : Master) (part : Part) (value : Word32) : Statement (.gateCommit m part value) := by
  simp [Statement, Instr.reserved, threadOf]
theorem portCommit (m : Master) (part : Part) (value : Word32) : Statement (.portCommit m part value) := by
  simp [Statement, Instr.reserved, threadOf]
theorem tcamWrite (m : Master) (part : Part) (value : Word32) : Statement (.tcamWrite m part value) := by
  simp [Statement, Instr.reserved, threadOf]
theorem tcamVset (m : Master) (part : Part) (value : Word32) : Statement (.tcamVset m part value) := by
  simp [Statement, Instr.reserved, threadOf]
theorem tcamVclr (m : Master) (part : Part) (value : Word32) : Statement (.tcamVclr m part value) := by
  simp [Statement, Instr.reserved, threadOf]
theorem tcamInvalidate (m : Master) (part : Part) (value : Word32) : Statement (.tcamInvalidate m part value) := by
  simp [Statement, Instr.reserved, threadOf]
theorem taccRead (m : Master) (part : Part) (value : Word32) : Statement (.taccRead m part value) := by
  simp [Statement, Instr.reserved, threadOf]
theorem taccWrite (m : Master) (part : Part) (value : Word32) : Statement (.taccWrite m part value) := by
  simp [Statement, Instr.reserved, threadOf]
theorem lbWdataWrite (m : Master) (part : Part) (hi : Bool) (value : Word32) : Statement (.lbWdataWrite m part hi value) := by
  simp [Statement, Instr.reserved, threadOf]
theorem lbSvcWrite (m : Master) (svc : Fin 1024) (value : Word32) : Statement (.lbSvcWrite m svc value) := by
  simp [Statement, Instr.reserved, threadOf]
theorem ucsModeNextWrite (m : Master) (word : Fin 6) (value : Word32) : Statement (.ucsModeNextWrite m word value) := by
  simp [Statement, Instr.reserved, threadOf]
theorem hstDsubWrite (m : Master) (part : Part) (hi : Bool) (value : Word32) : Statement (.hstDsubWrite m part hi value) := by
  simp [Statement, Instr.reserved, threadOf]
theorem cntSelWrite (m : Master) (island : Fin 107) (sel : Fin 16) (value : Word32) : Statement (.cntSelWrite m island sel value) := by
  simp [Statement, Instr.reserved, threadOf]
theorem cntWinWrite (m : Master) (word : Fin 4) (value : Word32) : Statement (.cntWinWrite m word value) := by
  simp [Statement, Instr.reserved, threadOf]
theorem cntUserReadWrite (m : Master) (part : Part) (value : Word32) : Statement (.cntUserReadWrite m part value) := by
  simp [Statement, Instr.reserved, threadOf]
theorem lanemapWrite (m : Master) (port : PortId) (value : Word32) : Statement (.lanemapWrite m port value) := by
  simp [Statement, Instr.reserved, threadOf]
theorem ptpRateWrite (m : Master) (hi : Bool) (value : Word32) : Statement (.ptpRateWrite m hi value) := by
  simp [Statement, Instr.reserved, threadOf]
theorem ptpStepWrite (m : Master) (value : Word32) : Statement (.ptpStepWrite m value) := by
  simp [Statement, Instr.reserved, threadOf]
theorem ptpSetWrite (m : Master) (word : Fin 3) (value : Word32) : Statement (.ptpSetWrite m word value) := by
  simp [Statement, Instr.reserved, threadOf]
theorem ptpChangeApply : Statement .ptpChangeApply := by
  simp [Statement, Instr.reserved, threadOf]
theorem ptpCaptureRead (m : Master) : Statement (.ptpCaptureRead m) := by
  simp [Statement, Instr.reserved, threadOf]
theorem ptpTsqPop (m : Master) (part : Part) : Statement (.ptpTsqPop m part) := by
  simp [Statement, Instr.reserved, threadOf]
theorem lowWordReadLatch (m : Master) (addr : Nat) : Statement (.lowWordReadLatch m addr) := by
  simp [Statement, Instr.reserved, threadOf]
theorem hstDenyRead (m : Master) (part : Part) : Statement (.hstDenyRead m part) := by
  simp [Statement, Instr.reserved, threadOf]
theorem ptpPpsinRead (m : Master) : Statement (.ptpPpsinRead m) := by
  simp [Statement, Instr.reserved, threadOf]
theorem ptpTodRxRead (m : Master) : Statement (.ptpTodRxRead m) := by
  simp [Statement, Instr.reserved, threadOf]
theorem robStatusRead (m : Master) (race : RaceId) : Statement (.robStatusRead m race) := by
  simp [Statement, Instr.reserved, threadOf]
theorem portStatusRead (m : Master) (port : PortId) : Statement (.portStatusRead m port) := by
  simp [Statement, Instr.reserved, threadOf]
theorem registerWrite (m : Master) (addr : Nat) (value : Word32) : Statement (.registerWrite m addr value) := by
  simp [Statement, Instr.reserved, threadOf]
theorem ppsInEdge : Statement .ppsInEdge := by
  simp [Statement, Instr.reserved, threadOf]
theorem ppsOutEdge : Statement .ppsOutEdge := by
  simp [Statement, Instr.reserved, threadOf]
theorem todTxMessage : Statement .todTxMessage := by
  simp [Statement, Instr.reserved, threadOf]
theorem todRxMessage (bytes : List Byte) : Statement (.todRxMessage bytes) := by
  simp [Statement, Instr.reserved, threadOf]
theorem eecReferenceLoss : Statement .eecReferenceLoss := by
  simp [Statement, Instr.reserved, threadOf]
theorem eecCfgWrite (m : Master) (value : Word32) : Statement (.eecCfgWrite m value) := by
  simp [Statement, Instr.reserved, threadOf]
theorem fwWrite (m : Master) (slot : Bool) : Statement (.fwWrite m slot) := by
  simp [Statement, Instr.reserved, threadOf]
theorem fwSelect (m : Master) (slot : Bool) : Statement (.fwSelect m slot) := by
  simp [Statement, Instr.reserved, threadOf]
theorem fwActivate (m : Master) (slot : Bool) : Statement (.fwActivate m slot) := by
  simp [Statement, Instr.reserved, threadOf]
theorem fwOperationDone (result : Option Bool) : Statement (.fwOperationDone result) := by
  simp [Statement, Instr.reserved, threadOf]
theorem heartbeatRun (race : RaceId) (cluster : ClusterId) (engine : EngineId) (pass : Option Bool) : Statement (.heartbeatRun race cluster engine pass) := by
  simp [Statement, Instr.reserved, threadOf]
theorem heartbeatCheck : Statement .heartbeatCheck := by
  simp [Statement, Instr.reserved, threadOf]
theorem selftestStart (race : RaceId) (cluster : ClusterId) : Statement (.selftestStart race cluster) := by
  simp [Statement, Instr.reserved, threadOf]
theorem selftestDone (race : RaceId) (cluster : ClusterId) (seg : Byte) (pass : Option Bool) : Statement (.selftestDone race cluster seg pass) := by
  simp [Statement, Instr.reserved, threadOf]
theorem tcamScan (race : RaceId) (rule : Nat) (shadowOk : Bool) : Statement (.tcamScan race rule shadowOk) := by
  simp [Statement, Instr.reserved, threadOf]
theorem safetyReaction (failure : Option Failure) : Statement (.safetyReaction failure) := by
  simp [Statement, Instr.reserved, threadOf]
theorem ageingMeasure (islands : List (Nat × Nat × Nat × Nat)) (canaries : List (Nat × Nat)) : Statement (.ageingMeasure islands canaries) := by
  simp [Statement, Instr.reserved, threadOf]
theorem safAliveTick : Statement .safAliveTick := by
  simp [Statement, Instr.reserved, threadOf]
theorem optimeTick : Statement .optimeTick := by
  simp [Statement, Instr.reserved, threadOf]
theorem powerMonitorUpdate (vin iin pin tj : Half) (island : Fin 107) : Statement (.powerMonitorUpdate vin iin pin tj island) := by
  simp [Statement, Instr.reserved, threadOf]
theorem smbusMode : Statement .smbusMode := by
  simp [Statement, Instr.reserved, threadOf]
theorem smbusLatch (write : Bool) (value : Half) : Statement (.smbusLatch write value) := by
  simp [Statement, Instr.reserved, threadOf]
theorem smbusMask (write : Bool) (value : Half) : Statement (.smbusMask write value) := by
  simp [Statement, Instr.reserved, threadOf]
theorem smbusVin : Statement .smbusVin := by
  simp [Statement, Instr.reserved, threadOf]
theorem smbusIin : Statement .smbusIin := by
  simp [Statement, Instr.reserved, threadOf]
theorem smbusPin : Statement .smbusPin := by
  simp [Statement, Instr.reserved, threadOf]
theorem smbusTjmax : Statement .smbusTjmax := by
  simp [Statement, Instr.reserved, threadOf]
theorem smbusTalert (write : Bool) (value : Half) : Statement (.smbusTalert write value) := by
  simp [Statement, Instr.reserved, threadOf]
theorem smbusOphours : Statement .smbusOphours := by
  simp [Statement, Instr.reserved, threadOf]
theorem smbusPcyc : Statement .smbusPcyc := by
  simp [Statement, Instr.reserved, threadOf]
theorem smbusPart : Statement .smbusPart := by
  simp [Statement, Instr.reserved, threadOf]
theorem smbusAlertResponse : Statement .smbusAlertResponse := by
  simp [Statement, Instr.reserved, threadOf]
theorem extest : Statement .extest := by
  simp [Statement, Instr.reserved, threadOf]
theorem idcode : Statement .idcode := by
  simp [Statement, Instr.reserved, threadOf]
theorem samplePreload : Statement .samplePreload := by
  simp [Statement, Instr.reserved, threadOf]
theorem clamp : Statement .clamp := by
  simp [Statement, Instr.reserved, threadOf]
theorem highz : Statement .highz := by
  simp [Statement, Instr.reserved, threadOf]
theorem extestPulse : Statement .extestPulse := by
  simp [Statement, Instr.reserved, threadOf]
theorem extestTrain : Statement .extestTrain := by
  simp [Statement, Instr.reserved, threadOf]
theorem bypass : Statement .bypass := by
  simp [Statement, Instr.reserved, threadOf]
theorem eaccRead (addr : Word32) : Statement (.eaccRead addr) := by
  simp [Statement, Instr.reserved, threadOf]
theorem eaccWrite (addr : Word32) (value : Word32) : Statement (.eaccWrite addr value) := by
  simp [Statement, Instr.reserved, threadOf]
theorem trstNLow : Statement .trstNLow := by
  simp [Statement, Instr.reserved, threadOf]
theorem unlockChallenge : Statement .unlockChallenge := by
  simp [Statement, Instr.reserved, threadOf]
theorem unlock : Statement .unlock := by
  simp [Statement, Instr.reserved, threadOf]
theorem lock : Statement .lock := by
  simp [Statement, Instr.reserved, threadOf]
theorem programUserDigest : Statement .programUserDigest := by
  simp [Statement, Instr.reserved, threadOf]
theorem challengeExpire : Statement .challengeExpire := by
  simp [Statement, Instr.reserved, threadOf]
theorem lockoutExpire : Statement .lockoutExpire := by
  simp [Statement, Instr.reserved, threadOf]
theorem apRead : Statement .apRead := by
  simp [Statement, Instr.reserved, threadOf]
theorem apWrite : Statement .apWrite := by
  simp [Statement, Instr.reserved, threadOf]
theorem threadHalt : Statement .threadHalt := by
  simp [Statement, Instr.reserved, threadOf]
theorem threadStep : Statement .threadStep := by
  simp [Statement, Instr.reserved, threadOf]
theorem threadResume : Statement .threadResume := by
  simp [Statement, Instr.reserved, threadOf]
theorem threadAbort : Statement .threadAbort := by
  simp [Statement, Instr.reserved, threadOf]
theorem threadMstep : Statement .threadMstep := by
  simp [Statement, Instr.reserved, threadOf]
theorem deviceHaltRequest : Statement .deviceHaltRequest := by
  simp [Statement, Instr.reserved, threadOf]
theorem deviceResumeRequest : Statement .deviceResumeRequest := by
  simp [Statement, Instr.reserved, threadOf]
theorem deviceHaltEnter : Statement .deviceHaltEnter := by
  simp [Statement, Instr.reserved, threadOf]
theorem deviceHaltResume : Statement .deviceHaltResume := by
  simp [Statement, Instr.reserved, threadOf]
theorem debugWarmReset : Statement .debugWarmReset := by
  simp [Statement, Instr.reserved, threadOf]
theorem debugBlockReset : Statement .debugBlockReset := by
  simp [Statement, Instr.reserved, threadOf]
theorem debugTestEntry : Statement .debugTestEntry := by
  simp [Statement, Instr.reserved, threadOf]
theorem samplerVisit (queue : Nat) : Statement (.samplerVisit queue) := by
  simp [Statement, Instr.reserved, threadOf]
theorem journalRingWrite : Statement .journalRingWrite := by
  simp [Statement, Instr.reserved, threadOf]
theorem eecLocked : Statement .eecLocked := by
  simp [Statement, Instr.reserved, threadOf]
theorem perstNRelease (part : Part) : Statement (.perstNRelease part) := by
  simp [Statement, Instr.reserved, threadOf]
theorem pcieLinkUp (part : Part) : Statement (.pcieLinkUp part) := by
  simp [Statement, Instr.reserved, threadOf]

end Reserved

end Sys2Proof.Laws
end

