-- ==== Sys2Proof/Tests/Slice0.lean ====
section
/-! SUPPORT. Tests: ill-formed commands are refused, values worked out by hand from the spec, and for each statement a
state that meets its hypotheses. -/

namespace Sys2Proof.Tests

open Sys2Proof Sys2Proof.Machine Sys2Proof.Laws

-- one theorem after another: as many tasks at once as there are theorems exhaust the threads
set_option Elab.async false

/-! ### States for the tests -/

/-- The block in SERVICE, a quarter of a second after reset, all links up. -/
def up : State :=
  { State.reset with
    clk := { gtc := 1000000000, run := true }
    top := { mode := .service, prev := .ready, coldStart := false }
    link := [(0, true), (1, true), (2, true), (3, true)] }

def t0 : ThreadId := { race := 0, cluster := 0, engine := 0, thread := 0 }

/-- A frame of 64 bytes. -/
def frame64 : List Byte := exactly 64 [0x02, 0x01, 0x02, 0x03, 0x04, 0x05, 0x0A, 0x0B, 0x0C, 0x0D, 0x0E, 0x0F, 0x08, 0x00]

/-- A packet that has arrived at port 3 whole. -/
def pk : Packet :=
  { port := 3, frame := frame64, arrived := 64, ended := true, rob := true, cells := [5], owner := 3, stamp := 999999000 }

/-- The state of a thread that runs packet 1, at the start of its code. -/
def c0 : Ctx := { task := 9, pkt := 1, prio := 4, g := [(1, 0x10), (2, 0xFFFFFFFFFFFFFFFF), (3, 7)] }

/-- An image of four words of code at the start of race 0's bank, `w` the first (R83). -/
def image (w : Word32) : Mem :=
  setBytes (setBytes [] 0 (exactly 6 [] ++ [0, 0, 4, 0, 0, 0])) 320 (leBytes 4 w.toNat)

/-- Thread 0 ready at the word `w` with the state `c`. -/
def at_ (w : Word32) (c : Ctx) : State :=
  { up with
    threads := [(0, { ctx := some c })]
    clusters := [(0, { ready := [(4, [0])] })]
    pkts := [(1, pk)]
    races := [(0, { rob := [{ port := 3, pkt := 1, at_ := 0 }] })]
    mems := { up.mems with prog := image w } }

/-- `at_` meets the hypotheses of the statements about engine instructions. -/
theorem at_quiet (w : Word32) (c : Ctx) : NoHalt t0 (at_ w c) ∧ NoWatch t0 (at_ w c) := by
  refine ⟨⟨rfl, rfl⟩, fun i write space off len hi => ?_⟩
  have h : ∀ i, i < 4 → bitOf (up.regN (aDbgWp 0 i)) 31 = false := by decide +kernel
  have h1 : bitOf ((at_ w c).regN (aDbgWp t0.race.val i)) 31 = false := h i hi
  simp [State.wpMatch, h1]

/-- `at_` with version 0 of domain 0 current, its class 0 the image of race 0 (R190, R198), and port 3, a 100 Gbit/s port
of domain 0, with its link up. -/
def atV (w : Word32) (c : Ctx) : State :=
  { (((at_ w c).setRegN (aClsVd 0 0 + 4) 16).setRegN (aClsCent 0) 0x40000000).setPortS 3 { link := true } with
    cls := { vers := [(0, { state := 2, count := 1 })] }
    committed := [(aClsPortDom 3, 0x10), (aPortCfg 3, 0x86002800)] }

/-- Queue 0 of the classes of port 3, and a copy of packet 1 for it. -/
def q3 : Nat := 0x40000 + 24
def d0 : Desc := { pkt := 1, cell := 5, queue := q3, frame := frame64, port := 3, ingress := some 3 }

/-- `atV` with queue `q3` enabled and holding `x`, and head cell 5 with one reference. -/
def atQ (x : Queue) : State :=
  { ((atV 0 c0).setTabW tQueue q3 0 0x80002800).setQueue q3 x with
    hop := { cells := [(5, { ref := 1, head := true, owner := 3 })] } }

/-- The same at GTC `g`. -/
def atGtc (g : Nat) (s : State) : State := { s with clk := { s.clk with gtc := g } }

/-- A command of partition 0 on ring 0 with the operands `l`: (offset, value). -/
def cmd (l : List (Nat × Nat)) : HostCmd :=
  { part := 0, ring := 0, tag := 7, flags := 1, rsv := 0, ops := BitVec.ofNat 256 ((l.map fun e => e.2 * 2 ^ (8 * e.1)).sum) }

/-- `s` with command ring 0 of partition 0 enabled and one descriptor on it. -/
def ringed (s : State) : State :=
  ((s.setRegN (aHstCmdq 0 0 + 16) 0x80000004).setRegN (aHstCmdq 0 0 + 20) 1).setRegN (aHstCmdq 0 0 + 24) 0

def up0 : State := ringed (atV 0 c0)

/-- `up0` with a version in slot 1 of domain 0 that passes its checks: node 0 valid and ending, one class of KIND 0. -/
def upV : State := (up0.setRegN (aClsVd 0 1 + 4) 0x00010001).setRegN (aPrsNode 0 + 60) 0xC0000000

/-! ### Ill-formed commands are refused (R52, R53) -/

/-- One ill-formed term for each check of `Instr.reserved`, at the first value the check names; none is well-formed. -/
theorem test_wf_refuses : ∀ i ∈ ([.aluReg t0 1 2 3 false 0x16, .aluImm t0 1 2 true 0x1F 0, .br t0 0xD 0, .csumAdj t0 1 2 3 2,
    .tstamp t0 1 3 0, .tstamp t0 1 6 0, .tstamp t0 1 4 0, .flowGet t0 1 15 0, .flowCas t0 1 15 2 3 0 false, .flowIns t0 1 15 true,
    .flowDel t0 1 15 2, .lkpLpm t0 1 15 2 false 0, .hashCrc32c t0 1 15 0 0 0, .csumSum t0 1 15 0 0 0, .hashCrc32 t0 1 15 0 0 0,
    .hashH0 t0 1 15 0 0 0, .meter t0 1 15 2 3 false false, .flowAdd t0 1 2 3 4 0 3, .flowAdd t0 1 2 3 4 1 1,
    .flowAdd t0 1 15 3 4 0 0, .lkpEm t0 1 15 2 0 0 false, .lkpEm t0 1 2 3 4 0 false, .wait t0 3 0, .wait t0 0 16, .wait t0 1 0,
    .wait t0 1 257, .wait t0 2 15, .delay t0 0 true 1 1, .delay t0 0 false 1 1, .emit t0 false false 1,
    .drop t0 0xE0] : List Instr), i.reserved = true ∧ i.wf = false := by decide +kernel

/-- Terms that name a unit or a place there is none of, at the first value outside. -/
theorem test_wf_places : ∀ i ∈ ([.spillWrite 266240, .samplerVisit 266240, .restampDone 17, .meterRefresh 1048576,
    .tcamScan 0 16384 true, .registerWrite .eosta 0x10000000 0, .registerWrite .eosta 2 0, .lowWordReadLatch .eosta 1,
    .stagedCommitGo .eosta 0x10000000, .stagedCommitDiscard .eosta 3, .ageingMeasure [(107, 0, 0, 0)] [],
    .ageingMeasure [] [(3264, 0)]] : List Instr), i.reserved = false ∧ i.wf = false := by decide +kernel

/-- The last values inside. -/
theorem test_wf_accepts : ∀ i ∈ ([.aluReg t0 1 2 3 false 0x15, .br t0 0xC 0, .csumAdj t0 1 2 3 1, .tstamp t0 0 5 0, .flowGet t0 1 14 0,
    .flowAdd t0 0 15 3 4 0 2, .lkpEm t0 1 2 3 4 7 true, .wait t0 0 15, .wait t0 1 256, .wait t0 2 14, .delay t0 3 false 0 1,
    .drop t0 0xDF, .spillWrite 266239, .tcamScan 15 16383 true, .registerWrite .eosta 0x0FFFFFFC 0] : List Instr), i.wf = true := by
  decide +kernel

/-! ### Values worked out by hand -/

def digits : List Byte := [0x31, 0x32, 0x33, 0x34, 0x35, 0x36, 0x37, 0x38, 0x39]

/-- The check values of CRC-32C and CRC-32 over the digits 1 to 9 are 0xE3069283 and 0xCBF43926; the register starts at all ones
and is complemented at the end (R74, R86). -/
theorem test_crc32c : crc32cStd digits = 0xE3069283 := by decide +kernel
theorem test_crc32 : (up.hashResult { src := .checkpoint, kind := .crc32, seed := 0xFFFFFFFF, bytes := digits }) = 0x340BC6D9 := by
  decide +kernel

/-- The ones'-complement sum of an odd number of bytes pads with 0 (R74): 0102 + 0300 = 0402. -/
theorem test_csum : (up.hashResult { src := .checkpoint, kind := .csum, seed := 0, bytes := [1, 2, 3] }) = 0x0402 := by decide +kernel

/-- RFC 1624, section 4: checksum DD2F, field 5555 becomes 3285, checksum 0000. -/
theorem test_csum_adj : csumAdjust 0xDD2F 0x5555 0x3285 false = 0x0000 := by decide +kernel

/-- Functions of `alu` (R57) on 0x8000000000000001 and 1. -/
theorem test_alu : (upTo 0x16).map (fun fn => aluResult fn 0x8000000000000001 1) =
    [0x8000000000000002, 0x8000000000000000, 1, 0x8000000000000001, 0x8000000000000000, 0x8000000000000000, 2, 0x4000000000000000,
     0xC000000000000000, 3, 0x8000000000000001, 1, 0x8000000000000001, 0x8000000000000000, 1, 1, 0xFFFFFFFFFFFFFFFE, 0x100,
     0x01000000, 0x0100000000000000, 1, 63] := by decide +kernel

/-- Flags of `sub` and `cmp` (R58): C is 1 without a borrow, V on signed overflow. -/
theorem test_alu_flags : aluCarry 1 5 5 = true ∧ aluCarry 1 4 5 = false ∧ aluOverflow 1 0x8000000000000000 1 = true ∧
    aluCarry 0 0xFFFFFFFFFFFFFFFF 1 = true ∧ aluOverflow 0 0x7FFFFFFFFFFFFFFF 1 = true ∧ aluCarry 6 0x8000000000000000 1 = true ∧
    aluCarry 7 1 1 = true ∧ aluCarry 9 0x8000000000000000 1 = true ∧ aluCarry 6 0xFFFFFFFFFFFFFFFF 0 = false := by decide +kernel

/-- Due times (R149): a count of 1 on list 0, at 1 and at a tick; the longest delay is 655.35 s. -/
theorem test_due : dlyDue 0 1 1 = 800 ∧ dlyDue 0 1 400 = 800 ∧ dlyDue 3 65535 0 = 65535 * 40000000 := by decide +kernel

/-- The word of `alu.add g4, g1, g2` with flags, bit by bit (R52, R53): opcode 0x01, rd 4, ra 1, rb 2, F, fn 0. -/
theorem test_word_alu : encR 4 1 2 true 0 = 0b000001_0100_0001_0010_1_00000_00000000#32 := by decide
theorem test_word_ld : encM 0x04 4 2 3 true 1 0xAB = 0b000100_0100_10_11_1_0001_00000_10101011#32 := by decide
theorem test_word_br : encB 0x08 1 0xFFFE = 0b001000_0001_000000_1111111111111110#32 := by decide

/-- The power-on start (R500, R501, R508): from reset through TRIM and BOOT to READY, and the power cycle is counted. -/
theorem test_clocks : ∃ u, exec .clocksValid State.reset = .next u ∧ u.top.mode = .trim ∧ u.evr.pcyc = 1 := by
  refine ⟨_, rfl, ?_⟩; decide +kernel


/-! ### The issue of an engine instruction, for every word -/

theorem leNat_leBytes4 (w : Word32) : leNat (leBytes 4 w.toNat) = w.toNat := by
  have := w.isLt
  simp [leBytes, leNat]
  omega

theorem fetch_image (w : Word32) : memLe (image w) 320 4 = w.toNat := by
  have h : getBytes (image w) 320 4 = leBytes 4 w.toNat := getBytes_setBytes (leBytes 4 w.toNat) _ 320
  simp only [memLe, h, leNat_leBytes4]

/-- What lies before the code does not depend on the word. -/
theorem image_head (w : Word32) (a : Nat) (h : a < 320) : getByte (image w) a = getByte (image 0) a := by
  simp only [image, getByte_setBytes, leBytes, List.length_cons, List.length_nil]
  simp only [show ¬ 320 ≤ a by omega, false_and, if_false]

theorem head_len (w : Word32) : memLe (image w) 8 4 = 4 := by
  have h : getBytes (image w) 8 4 = getBytes (image 0) 8 4 := by
    simp only [getBytes, image_head w _ (by decide : 8 < 320), image_head w _ (by decide : 8 + 1 < 320),
      image_head w _ (by decide : 8 + 1 + 1 < 320), image_head w _ (by decide : 8 + 1 + 1 + 1 < 320)]
  simp only [memLe, h]; decide +kernel

theorem head_entries (w : Word32) : memLe (image w) 6 2 = 0 := by
  have h : getBytes (image w) 6 2 = getBytes (image 0) 6 2 := by
    simp only [getBytes, image_head w _ (by decide : 6 < 320), image_head w _ (by decide : 6 + 1 < 320)]
  simp only [memLe, h]; decide +kernel

/-- Every word issues at `at_`, and another word of code follows it. -/
theorem at_issues (w : Word32) (c : Ctx) (hp : c.pc = 0) (hi : c.img = 0) (hq : c.prio = 4) :
    Issues t0 w c (at_ w c) ∧ MoreCode t0 c (at_ w c) := by
  have hl : (at_ w c).codeLen t0.race.val c = 4 := by
    simp only [State.codeLen, State.img, hi]; exact head_len w
  have he : (at_ w c).img t0.race.val c 6 2 = 0 := by simp only [State.img, hi]; exact head_entries w
  have ho : (at_ w c).codeOff t0.race.val c = 320 := by simp only [State.codeOff, State.poolOff, he]; decide
  have hb : (at_ w c).bpFind t0.race.val c = none := by
    have h : ∀ i ∈ upTo 8, bitOf (up.regN (aDbgBp 0 i)) 31 = false := by decide +kernel
    refine List.find?_eq_none.mpr fun i hi => ?_
    have h1 : bitOf ((at_ w c).regN (aDbgBp t0.race.val i)) 31 = false := h i hi
    simp [h1]
  refine ⟨⟨rfl, ?_, ?_, ?_, rfl, ?_, ?_⟩, ?_⟩
  · have h1 : (at_ w c).runs = true := rfl
    have h2 : (at_ w c).thr (thrNum t0) = { ctx := some c } := rfl
    have h3 : (at_ w c).intsOn (thrNum t0) = false := rfl
    have h4 : (at_ w c).engActive (cluOf (thrNum t0)) (engOf (thrNum t0) % 17) = true :=
      (by decide +kernel : up.engActive (cluOf (thrNum t0)) (engOf (thrNum t0) % 17) = true)
    have h5 : (at_ w c).cluOff (cluOf (thrNum t0)) = false := (by decide +kernel : up.cluOff (cluOf (thrNum t0)) = false)
    have h6 : (at_ w c).outranked (thrNum t0) 4 = false := rfl
    unfold State.selectable
    simp only [h1, h2, h3, h4, h5, h6, hq]
    rfl
  · simp only [State.fetch, ho, State.img, hi, hp]; exact fetch_image w
  · rw [hl, hp]; decide
  · simp [at_, up, State.reset]
  · simp [hb]
  · simp only [MoreCode, hl, hp]; decide

/-- The state `at_` with the word `w` meets what the statements about engine instructions ask of a state. -/
def Goes (w : Word32) (c : Ctx) : Prop :=
  NoHalt t0 (at_ w c) ∧ NoWatch t0 (at_ w c) ∧ MoreCode t0 c (at_ w c) ∧ Issues t0 w c (at_ w c)

theorem goes (w : Word32) (c : Ctx) (hp : c.pc = 0) (hi : c.img = 0) (hq : c.prio = 4) : Goes w c :=
  ⟨(at_quiet w c).1, (at_quiet w c).2, (at_issues w c hp hi hq).2, (at_issues w c hp hi hq).1⟩

/-- `c0` at the last but one word of its image. -/
def cEnd : Ctx := { c0 with g := [(1, 4), (2, 0x7FFF)] }

/-! ### Hypotheses that are met: the step and the engines -/

theorem wit_StepsKeepMemoriesCanonical : MemsWf State.reset.mems ∧ ∃ t, step State.reset = .next t := by
  refine ⟨?_, _, rfl⟩
  unfold MemsWf; decide +kernel

theorem wit_CommandsLeaveTheQueue : ∃ t, exec (.nop (cmd [])) State.reset = .next t := ⟨_, rfl⟩

theorem wit_EmptyQueueCountsTime : up.pending = [] ∧ up.clk.run = true ∧ State.reset.clk.run = false := by decide +kernel

/-- Reserved encodings issue too, and stand for their words. -/
theorem wit_ReservedEncodingsStayWithTheirThread : ∀ i ∈ ([.aluReg t0 4 1 2 true 0x16, .aluImm t0 4 1 true 0x1F 5, .br t0 0xD 1, .csumAdj t0 1 2 3 3,
    .tstamp t0 0 7 0, .flowGet t0 4 15 0, .flowAdd t0 1 15 2 3 0 0, .flowCas t0 4 15 1 2 3 true, .flowIns t0 4 15 true, .flowDel t0 4 15 1,
    .lkpEm t0 4 5 1 2 3 false, .lkpLpm t0 4 15 1 true 0, .hashCrc32c t0 4 15 0 0 0, .csumSum t0 4 15 0 0 0, .meter t0 4 15 1 2 true true,
    .hashCrc32 t0 4 15 0 0 0, .hashH0 t0 4 15 0 0 0, .wait t0 1 257, .delay t0 0 true 1 1, .emit t0 false false 1, .drop t0 0xFF] : List Instr),
    i.reserved = true ∧ ∃ w, wordOf i = some (t0, w) ∧ Issues t0 w c0 (at_ w c0) := by
  intro i hi
  refine ⟨by revert i; decide +kernel, ?_⟩
  have h : ((wordOf i).any fun e => decide (e.1 = t0)) = true := by revert i; decide +kernel
  match hw : wordOf i with
  | none => simp [hw] at h
  | some (t, w) =>
    have ht : t = t0 := by simpa [hw] using h
    exact ⟨w, by rw [ht], (at_issues w c0 rfl rfl rfl).1⟩

theorem wit_AluComputesResultAndFlags : (0x15 : BitVec 5).toNat < 0x16 ∧ Goes (encR 4 1 2 true 0x15) c0 ∧ Goes (encR 4 1 2 false 0xD) c0 ∧
    Goes (encI 4 2 true 1 0xFFF) c0 := ⟨by decide, goes _ _ rfl rfl rfl, goes _ _ rfl rfl rfl, goes _ _ rfl rfl rfl⟩

theorem wit_G0ReadsZeroAndDiscardsWrites : (0xC : BitVec 5).toNat < 0x0D ∧ Goes (encW 0 0 5) c0 ∧ Goes (encR 4 0 0 false 0xC) c0 :=
  ⟨by decide, goes _ _ rfl rfl rfl, goes _ _ rfl rfl rfl⟩

theorem wit_MovesAndFieldsWriteTheirRegister : (Goes (encW 4 0 0x8000) c0 ∧ Goes (encW 15 1 0xFFFF) c0 ∧ Goes (encE 0x06 4 2 63 63) c0 ∧
    Goes (encE 0x07 4 2 0 63) c0) ∧ (Goes (encC 4 1 2 1) c0 ∧ (1 : BitVec 2).toNat < 2) ∧
    (Goes (encT 4 2 0) c0 ∧ badStamp 2 4 = false) ∧ Goes (encT 0 5 0) c0 ∧ badStamp 5 0 = false :=
  ⟨⟨goes _ _ rfl rfl rfl, goes _ _ rfl rfl rfl, goes _ _ rfl rfl rfl, goes _ _ rfl rfl rfl⟩, ⟨goes _ _ rfl rfl rfl, by decide⟩,
    ⟨goes _ _ rfl rfl rfl, by decide⟩, goes _ _ rfl rfl rfl, by decide⟩

/-- The last bytes of the windows of spaces 0 (as far as the frame has arrived), 1, 2 and 3. -/
theorem wit_LoadsAndStoresMoveWindowBytes :
    (memAddr c0 true 3 49 + 8 ≤ winSize 0 ∧ Goes (encM 0x04 4 0 3 true 3 49) c0 ∧
      hdrNeed ((at_ (encM 0x04 4 0 3 true 3 49) c0).pkt c0.pkt) (memAddr c0 true 3 49) 8 = 0) ∧
    (memAddr c0 false 0 56 + 8 ≤ winSize 1 ∧ Goes (encM 0x04 4 1 3 false 0 56) c0 ∧ Goes (encM 0x05 4 1 3 false 0 56) c0) ∧
    (memAddr c0 false 0 120 + 8 ≤ winSize 2 ∧ Goes (encM 0x05 4 2 3 false 0 120) c0) ∧
    (memAddr c0 false 0 248 + 8 ≤ winSize 3 ∧ Goes (encM 0x04 4 3 3 false 0 248) c0 ∧
      (at_ (encM 0x04 4 3 3 false 0 248) c0).mems.progBad = []) ∧
    memAddr c0 false 0 127 + 1 ≤ winSize 0 ∧ Goes (encM 0x05 4 0 0 false 0 127) c0 ∧
    ¬ (((at_ (encM 0x05 4 0 0 false 0 127) c0).pkt c0.pkt).hasFrame = true ∧
      ((at_ (encM 0x05 4 0 0 false 0 127) c0).pkt c0.pkt).frame.length + 64 < memAddr c0 false 0 127 + 1) :=
  ⟨⟨by decide, goes _ _ rfl rfl rfl, by decide +kernel⟩, ⟨by decide, goes _ _ rfl rfl rfl, goes _ _ rfl rfl rfl⟩,
    ⟨by decide, goes _ _ rfl rfl rfl⟩, ⟨by decide, goes _ _ rfl rfl rfl, by decide +kernel⟩, by decide, goes _ _ rfl rfl rfl, by decide +kernel⟩

/-- Branches to the first and the last word of the image, and just outside it. -/
theorem wit_BranchesGoToTheirTargets :
    (Goes (encB 0x08 0 3) c0 ∧ Goes (encB 0x08 0xC 0) c0 ∧ Goes (encB 0x09 (r4 4) 3) c0 ∧ Goes (encBC 4 1 true 3) c0 ∧ c0.rcOf 4 ≠ 0 ∧
      (at_ (encB 0x08 0 3) c0).codeLen 0 c0 = 4 ∧ (0xC : BitVec 4).toNat < 0xD) ∧
    (Goes (encBR 3) { c0 with g := [(3, 3)] } ∧ (at_ (encBR 3) c0).codeLen 0 c0 = 4) ∧
    (Goes (encBR 3) c0 ∧ (c0.gr 3).toNat = 7) ∧ Goes (encB 0x08 0 4) c0 ∧ Goes (encB 0x09 (r4 4) 0xFFFF) c0 ∧ (0xFFFF : Half).toInt < 0 :=
  ⟨⟨goes _ _ rfl rfl rfl, goes _ _ rfl rfl rfl, goes _ _ rfl rfl rfl, goes _ _ rfl rfl rfl, by decide, by decide +kernel, by decide⟩,
    ⟨goes _ _ rfl rfl rfl, by decide +kernel⟩, ⟨goes _ _ rfl rfl rfl, by decide⟩, goes _ _ rfl rfl rfl, goes _ _ rfl rfl rfl, by decide⟩

/-- No slice's queue is full while every slice is as it starts. -/
theorem room (w : Word32) (c : Ctx) (sl : Nat) : (at_ w c).missFull sl = false := by
  have h1 : (at_ w c).blkOn 1 (sl / 8) = false := rfl
  have h2 : ((at_ w c).slice sl).queue = [] := rfl
  simp [State.missFull, h1, h2]

theorem wit_OperationsJoinTheirUnit :
    (Goes (encFlowGet 4 5 0xFFFF) c0 ∧ c0.dc ≠ 15 ∧ c0.rcOf 5 ≠ 0 ∧ (∀ sl, (at_ (encFlowGet 4 5 0xFFFF) c0).missFull sl = false) ∧
      (Goes (encFlowAdd 4 5 1 2 15 2) c0 ∧ badAdd 4 5 15 2 = false) ∧ (Goes (encFlowAdd 0 15 1 2 15 0) c0 ∧ badAdd 0 15 15 0 = false) ∧
      Goes (encFlowCas 4 5 1 2 15 true) c0 ∧ Goes (encFlowIns 4 5 true) c0 ∧ Goes (encFlowDel 4 14 1) c0 ∧ c0.rcOf 14 ≠ 0) ∧
    ((Goes (encLkpEm 4 5 1 2 7 true) c0 ∧ badLookup 5 2 true = false ∧
        ((at_ 0 c0).pkt c0.pkt).hlen ≤ ((at_ 0 c0).pkt c0.pkt).arrived) ∧
      (Goes (encLkpLpm 4 5 1 true 240) c0 ∧ (240 : Byte).toNat + 16 ≤ 256) ∧
      (Goes (encHash 0x1A 4 5 3 255 0) c0 ∧ (0 : Byte).toNat + (255 : Byte).toNat + 1 ≤ winSize 3) ∧
      (Goes (encHash 0x1B 4 5 0 191 64) c0 ∧ (64 : Byte).toNat + (191 : Byte).toNat + 1 ≤ winSize 0) ∧
      (Goes (encHash 0x1D 4 5 1 63 0) c0 ∧ (0 : Byte).toNat + (63 : Byte).toNat + 1 ≤ winSize 1) ∧
      (Goes (encHash 0x1E 4 5 2 127 0) c0 ∧ (0 : Byte).toNat + (127 : Byte).toNat + 1 ≤ winSize 2) ∧
      Goes (encMeter 4 5 1 2 false true) c0 ∧ Goes (encMeter 4 5 1 2 true false) c0) :=
  ⟨⟨goes _ _ rfl rfl rfl, by decide, by decide, room _ _, ⟨goes _ _ rfl rfl rfl, by decide⟩, ⟨goes _ _ rfl rfl rfl, by decide⟩, goes _ _ rfl rfl rfl,
      goes _ _ rfl rfl rfl, goes _ _ rfl rfl rfl, by decide⟩,
    ⟨goes _ _ rfl rfl rfl, by decide, by decide +kernel⟩, ⟨goes _ _ rfl rfl rfl, by decide⟩, ⟨goes _ _ rfl rfl rfl, by decide⟩,
    ⟨goes _ _ rfl rfl rfl, by decide⟩, ⟨goes _ _ rfl rfl rfl, by decide⟩, ⟨goes _ _ rfl rfl rfl, by decide⟩, goes _ _ rfl rfl rfl,
    goes _ _ rfl rfl rfl⟩

/-- Delays of race 0 limited to five tasks. -/
def atDly (w : Word32) : State := { at_ w c0 with committed := [(aTskDlyCfg 0, 5)] }

theorem wit_WaitsAndDelays :
    (Goes (encWait 0 0) c0 ∧ c0.dc.toNat ≤ 0 ∧ Goes (encWait 0 15) c0) ∧ (Goes (encWait 1 256) c0 ∧
      ((at_ (encWait 1 256) c0).pkt 1).frame.length ≤ ((at_ (encWait 1 256) c0).pkt 1).arrived) ∧
    (Goes (encWait 2 14) c0 ∧ c0.rcOf 14 ≠ 0) ∧ (Goes (encWait 0 0) { c0 with dc := 1 }) ∧
    (NoHalt t0 (atDly (encDelay 3 false 0 65535)) ∧ MoreCode t0 c0 (atDly (encDelay 3 false 0 65535)) ∧
      Issues t0 (encDelay 3 false 0 65535) c0 (atDly (encDelay 3 false 0 65535)) ∧ c0.dc = 0 ∧
      ((atDly 0).race 0).progHeld < (atDly 0).cfld (aTskDlyCfg 0) 0 16) ∧
    Goes encYield c0 ∧ (Goes encOrdrel c0 ∧ ((at_ encOrdrel c0).pkt c0.pkt).rob = true) :=
  ⟨⟨goes _ _ rfl rfl rfl, by decide, goes _ _ rfl rfl rfl⟩, ⟨goes _ _ rfl rfl rfl, by decide +kernel⟩, ⟨goes _ _ rfl rfl rfl, by decide⟩,
    goes _ _ rfl rfl rfl,
    ⟨(at_quiet (encDelay 3 false 0 65535) c0).1, (at_issues (encDelay 3 false 0 65535) c0 rfl rfl rfl).2, (at_issues (encDelay 3 false 0 65535) c0 rfl rfl rfl).1, by decide, by decide +kernel⟩,
    goes _ _ rfl rfl rfl, goes _ _ rfl rfl rfl, by decide +kernel⟩

/-- Every ending, of a packet with a frame and with the fourth pass still to come. -/
theorem wit_EndingsReleaseTheThread : c0.dc = 0 ∧ ((at_ 0 c0).pkt c0.pkt).kind ≠ .expiry ∧ (at_ 0 c0).outFrame 0 c0 = some frame64 ∧
    (Goes (encEmit true true 1) c0 ∧ stampsFit pk c0 = true) ∧ Goes (encEmit false false 0) c0 ∧
    (Goes (encDrop 0xDF) c0 ∧ (0xDF : Byte).toNat < 0xE0) ∧ Goes (encTrap 63 0xFF) c0 ∧
    Goes encRecirc c0 ∧ ((at_ 0 c0).pkt c0.pkt).pass ≠ 3 ∧ ((at_ 0 c0).race 0).leat.length < 256 :=
  ⟨by decide, by decide +kernel, by decide +kernel, ⟨goes _ _ rfl rfl rfl, by decide +kernel⟩, goes _ _ rfl rfl rfl,
    ⟨goes _ _ rfl rfl rfl, by decide⟩, goes _ _ rfl rfl rfl, goes _ _ rfl rfl rfl, by decide +kernel, by decide +kernel⟩

/-! ### Hypotheses that are met: threads, units, tables, the front end -/

def atInts (i : Ints) : State := { at_ 0 c0 with threads := [(0, { ctx := some c0, ints := i })] }

theorem wit_InterruptsAndExceptionsEndTasks : (∀ i ∈ ([{}, { ecc := true, abort := true }, { abort := true, watchdog := true, halt := true },
      { watchdog := true, halt := true }, { halt := true }] : List Ints), (atInts i).runs = true ∧ ((atInts i).thr 0).mstep = false ∧
      ((atInts i).thr 0).halted = none ∧ ((atInts i).thr 0).ctx = some c0 ∧ ((atInts i).thr 0).ints = i) ∧
    thrNum t0 = 0 ∧ bitOf ((atInts {}).regN (aRaceExcCfg 0)) 3 = false ∧
    bitOf (((atInts {}).setRegN (aRaceExcCfg 0) 0xFFFFFFFF).regN (aRaceExcCfg 0)) 3 = true := by decide +kernel

/-- A state with an operation outstanding, its tag 5. -/
def c5 : Ctx := { c0 with dc := 1, rc := [(5, 0)] }
def k0 : Completion := { thread := 0, task := 9, tag := 5, rd := 4, res := 77, code := 1, fv := [(0, 5), (3, 6)], ecc := false }
def atGate : State := { at_ 0 c5 with threads := [(0, { ctx := some c5, gate := some (.dcLe 1) })], comps := [k0] }

theorem wit_GatesOpenAndCompletionsArrive : atGate.runs = true ∧ (atGate.thr 0).ctx = some c5 ∧ thrNum t0 = 0 ∧
    ((atGate.thr 0).gate = some (.dcLe 1) ∧ gateHolds atGate c5 (.dcLe 1) = true ∧ (atGate.thr 0).halted = none) ∧
    (atGate.comps.find? (fun k => decide (k.thread = 0 ∧ k.tag = 5)) = some k0 ∧ k0.task = c5.task ∧ k0.ecc = false ∧ c5.wrong = false) := by decide +kernel

def src0 : OpSrc := .thread 0 9 5 4
def fo : FlowOp := { src := src0, kind := .get 3, view := [], index := 0, dom := 0, part := 0 }
def fa (t : Nat) : FlowOp := { fo with kind := .add 0 3 1 1, src := .posted t 9 }
def cr : CmdRef := { part := 0, ring := 0, tag := 1, opcode := 1, slot := 0, irq := false }
def fh : FlowOp := { fo with src := .host cr, kind := .hostDel true }
/-- Slice 0 with operations queued, held and waiting for the journal. -/
def atSlice (q h j : List FlowOp) : State := (at_ 0 c0).setSlice 0 { (at_ 0 c0).slice 0 with queue := q, held := h, jwait := j }

theorem wit_UnitsApplyTheirOperations_flow : (atSlice [] [] []).tablesRun = true ∧
    ((atSlice [fo] [] []).nextOp 0 = some fo ∧ (atSlice [fo] [] []).mergeInto fo [] = none) ∧
    ((atSlice [fa 1, fa 2] [] []).nextOp 0 = some (fa 1) ∧ ((atSlice [fa 1, fa 2] [] []).mergeInto (fa 1) [fa 2]).isSome = true) ∧
    (((atSlice [] [fh] []).slice 0).held = [fh] ∧ (atSlice [] [fh] []).missFull 0 = false) ∧
    ((atSlice [] [] [fh]).slice 0).jwait = [fh] ∧ (atSlice [] [] [fh]).alive fh.src = true := by decide +kernel

def eo : EmOp := { src := src0, key := 5, type := 1, learn := none, part := 0, dom := 0, port := 3, seen := 0 }
def lo : LpmOp := { src := src0, table := 4095, v6 := false, addr := 0x0A000001, part := 0 }
def mo : MeterOp := { src := src0, meter := 0xFFFFF, bytes := 100, aware := true, colour := 0, part := 0 }
def ho : HashOp := { src := src0, kind := .crc32c, seed := 0xFFFFFFFF, bytes := [0x31, 0x32, 0x33, 0x34, 0x35, 0x36, 0x37, 0x38, 0x39] }
def px (len : Nat) (a : BitVec 128) (d : Word32) : Prefix := { v6 := false, table := 4095, len := len, addr := a, data := d, part := 0 }
def atUnits : State :=
  { ((at_ 0 c5).setRace 0 { emq := [eo], lpmq := [lo] }).setClu 0 { hashq := [ho] } with
    weirq := [mo], cls := { lpm := [px 8 0x0A000000 1, px 24 0x0A000000 2, px 24 0x0A000100 3] } }

theorem wit_UnitsApplyTheirOperations_race : atUnits.runs = true ∧ ((atUnits.race 0).emq = [eo] ∧ eo.learn = none) ∧
    ((atUnits.race 0).lpmq = [lo] ∧ lo.table < 4096 ∧ atUnits.ownsLpm lo.part lo.table = true) ∧
    (atUnits.weirq = [mo] ∧ atUnits.owns mo.part .mtr mo.meter = true ∧ atUnits.ownsProf mo.part .mpr (atUnits.meterAt mo.meter).prof = true) ∧
    (atUnits.clu 0).hashq = [ho] := by decide +kernel

theorem wit_TheLongestPrefixWins : (lpmBest false 4095 0x0A000001 atUnits.cls.lpm).map Prefix.data = some 2 ∧
    lpmBest false 4095 0x0B000001 atUnits.cls.lpm = none := by decide +kernel

def q1 : CellReq := { key := 5, owner := 3, who := .frame 1 }
def q2 : CellReq := { key := 7, owner := 3, who := .frame 2 }
def atHop (h : Hop) : State := { at_ 0 c0 with hop := h }
/-- The answer to the request `q1` of packet 1. -/
def ask (h : Hop) : (Nat × State) ⊕ Nat :=
  let t : State := { atHop h with hop := { h with reqs := h.reqs.erase q1 } }
  t.grant q1.owner (some (t.pkt 1).race) (t.domOwner (t.pkt 1).dom) false (decide ((t.pkt 1).cells = []))

theorem wit_TheHopperServesItsRequests : (atHop {}).runs = true ∧
    (lowestReq [q2, q1, { q1 with who := .frame 2 }] = some q1 ∧ (ask { reqs := [q2, q1] }).isLeft = true) ∧
    (lowestReq [q1] = some q1 ∧ (ask { reqs := [q1], ring := [], caches := [] }).isRight = true) ∧
    (1 < ((atHop { rel := [(5, 0)], cells := [(5, { ref := 2, head := true, owner := 3 })] }).cell 5).ref ∧
      ((atHop { rel := [(5, 0)], cells := [(5, { ref := 2, head := true, owner := 3 })] }).cell 5).gen = 0) ∧
    (atHop { nocell := [1, 1] }).admitted 1 = true ∧ ((atHop { nocell := [1, 1] }).setRace 0 { sluice := [1] }).admitted 1 = false := by
  decide +kernel

def tk : Task := { ctx := c0 }
def dd : Delayed := { kind := .prog, list := 0, due := 5, ctx := c0 }
def atRace (z : Race) : State := { (at_ 0 c0).setRace 0 z with pkts := [(1, pk), (2, { pk with rob := false })] }

theorem wit_PassesAreAdmittedAndDealt : (atRace {}).runs = true ∧
    (((atRace { sluice := [2] }).race 0).paused = false ∧ ((atRace { sluice := [2] }).race 0).bareWaits 1000000000 = false ∧ ((atRace { sluice := [2] }).pkt 2).cells ≠ [] ∧
      (atRace { sluice := [2] }).walkWaits 2 = false) ∧
    (((atRace { leat := [1] }).race 0).ntq.length < 1024 ∧ (atRace { leat := [1] }).walkWaits 1 = false) ∧
    ((atRace { held := [tk] }).race 0).held = [tk] ∧
    (((atRace { ntq := [tk] }).race 0).ntq = [tk] ∧ ((atRace { ntq := [tk] }).nextPos 0).isSome = true) ∧
    (bestDue 0 [dd] = some dd ∧ ((atRace { due := [dd] }).pickThread 0).isSome = true ∧
      ((atRace { due := [dd] }).clu 0).drain = false ∧ (atRace { due := [dd] }).cluOff 0 = false) := by decide +kernel

/-- Delay list 0 of race 0 with a keepalive and an expiry. -/
def atDue : State :=
  { (atV 0 c0).setRace 0 { dly := [{ kind := .timer 7, list := 0, due := 5 },
      { kind := .expiry, list := 2, due := 5, ctx := { pkt := 1, fv := [(1, 7)] } }] } with pkts := [(1, pk)] }
def atEntry : State :=
  { at_ (encDelay 1 false 0 9) c0 with
    threads := [(0, { ctx := some c0, gate := some .entry })], committed := [(aTskDlyCfg 0, 5)] }

theorem wit_DelaysTimersAndTimeouts : atDue.runs = true ∧
    ((atEntry.thr 0).ctx = some c0 ∧ (atEntry.thr 0).gate = some .entry ∧ (atEntry.thr 0).halted = none ∧
      (atEntry.race 0).progHeld < atEntry.cfld (aTskDlyCfg 0) 0 16) ∧
    (atDue.blockOff 0 0 = false ∧ (atDue.race 0).ntq.length < 1024 ∧ (atDue.race 0).held = [] ∧
      (∃ d, (atDue.race 0).dly.find? (fun d => decide (d.kind = .timer 7)) = some d ∧ d.due ≤ atDue.clk.gtc ∧
        (atDue.dueBare 0 d.list).head? = some d) ∧ (atDue.race 0).leat = [] ∧
      atDue.curSlot (bitsOf (atDue.com (aTskKa 0 7 + 4)) 28 4) = some 0 ∧ (atDue.classEntry 0 0 0 0).isSome = true ∧
      (atDue.grant 4096 (some 0) (atDue.domOwner 0) false true).isLeft = true) ∧
    ((∃ d, (atDue.dueBare 0 2).head? = some d ∧ d.kind = .expiry ∧ d.due ≤ atDue.clk.gtc) ∧
      atDue.curSlot 0 = some 0 ∧ (atDue.classEntry 0 0 0 (atDue.fld (aMstExp 0) 16 12)).isSome = true) ∧
    (((at_ 0 c0).race 0).rob.find? (fun e => decide (e.at_ + (at_ 0 c0).fld (aRaceReorderTmo 0) 0 16 * 4 ≤ (at_ 0 c0).clk.gtc))).isSome = true ∧
    ((at_ 0 c0).threads.find? (fun e => decide (raceOf e.1 = 0) && e.2.halted.isNone && (match e.2.ctx with
        | some c => decide (c.task = 9 ∧ c.start + budget ≤ (at_ 0 c0).clk.gtc) | none => false))).isSome = true := by decide +kernel

/-! ### Hypotheses that are met: ports, queues, gates and tables in time -/

/-- Port 3 in the middle of a frame that is packet 1. -/
def atRx : State :=
  { (atV 0 c0).setPortS 3 { link := true, rxE := some { bytes := frame64, pkt := some 1 } } with
    pkts := [(1, { pk with ended := false, arrived := 10 })] }
/-- `atV`, but port 3 in no domain. -/
def atNoDom : State := { atV 0 c0 with committed := [(aPortCfg 3, 0x86002800)] }

theorem wit_FramesEnterTheSluiceOrAreDropped : ((atV 0 c0).passing 3 = true ∧ ((atV 0 c0).portS 3).rxE = none ∧ 20 ≤ frame64.length ∧
      be16 frame64 12 ≠ 0x8808 ∧ (atV 0 c0).blockOff 0 0 = false ∧ (atV 0 c0).blkOn 4 0 = false ∧ 1 ≤ (atV 0 c0).maxFrm 3) ∧
    (bitOf ((atV 0 c0).com (aClsPortDom 3)) 4 = true ∧ (atV 0 c0).curSlot ((atV 0 c0).com (aClsPortDom 3) % 16) = some 0) ∧
    (bitOf (atNoDom.com (aClsPortDom 3)) 4 = false ∧ atNoDom.passing 3 = true ∧ 1 ≤ atNoDom.maxFrm 3) ∧
    (atRx.rxLive 1 = true ∧ (atRx.pkt 1).ended = false ∧ (atRx.portS 3).rxE = some { bytes := frame64, pkt := some 1 }) ∧
    frame64.length + 4 ≤ (atV 0 c0).maxFrm 3 := by decide +kernel

/-- Descriptors that have left race 0's reorder unit; queue `q3` in use. -/
def atSwitch (l : List Desc) (x : Queue) : State := (atQ x).setRace 0 { switch := l }
def dM : Desc := { d0 with mirror := true, queue := 16384 }
def dG : Desc := { d0 with queue := 0x83FFF }
def dD : Desc := { d0 with toDram := true }

theorem wit_CopiesReachTheirQueues : (atSwitch [d0] {}).runs = true ∧
    (((atSwitch [d0] {}).race 0).switch = [d0] ∧ d0.mirror = false ∧ validQueue d0.queue = true ∧
      (atSwitch [d0] {}).blockOff 2 ((atSwitch [d0] {}).queuePort d0.queue / 32) = false ∧ (atSwitch [] {}).enqueueFails d0 q3 = none) ∧
    (dM.mirror = true ∧ dM.group = some 16383 ∧ isMcast dG.queue = true ∧ dG.group = some 0x3FFF) ∧
    (let s := atSwitch [] { fifo := [dD], depth := 68, openPage := some (7, 4032) };
     (s.queue q3).fifo.find? (fun d => d.toDram && decide (d.pages = [])) = some dD ∧ (s.pkt 1).ended = true ∧ (s.pkt 1).bad = false ∧
      dD.hostBufs = [] ∧ (s.spillPieces q3 (s.pkt 1).owner dD.part 12 dD.frame []).2.1 = true) := by decide +kernel

/-- Queue `q3` with one frame, and port 3 as `p`. -/
def atPort (p : PortS) : State := (atQ { fifo := [d0], depth := 68 }).setPortS 3 p
def settled (s : State) : State := (s.settleCbs 3).tierKeeps 3
def tx0 : Tx := { d := d0, frame := frame64, len := 68, express := true, start := 5, from_ := 5, until_ := 9, stampS := 0, stampNs := 0 }

theorem wit_PortsSendTheirFrames : (let s := atPort { link := true };
      let z := settled s;
      s.tailRuns 3 = true ∧ (z.portS 3).tx = none ∧ (z.portS 3).busy ≤ z.clk.gtc ∧ (if z.passing 3 then z.pausesDue 3 else []) = [] ∧
      (z.portS 3).sel = none) ∧
    (let z := settled (atPort { link := true, sel := some q3 });
      (z.portS 3).sel = some q3 ∧ z.mayStartTx 3 (z.queueCls q3) (z.queue q3).headLen = true) ∧
    (let s := atPort { link := true, tx := some tx0 };
      (s.portS 3).tx = some tx0 ∧ tx0.piece = none ∧ tx0.until_ ≤ s.clk.gtc ∧ s.whole tx0.d = true ∧ s.allReadsOk tx0.d = true ∧
      tx0.crcBad = false ∧ (s.pkt tx0.d.pkt).bad = false ∧ tx0.sent = 0 ∧ tx0.d.twoStep = none ∧ s.lateEnd tx0 = false ∧
      tx0.d.hostBufs = []) := by decide +kernel

def gl : GateList :=
  { en := true, cycle := 1000, baseSec := 0, baseNs := 0, ents := [{ interval := 500, gates := 1, op := 0 }, { interval := 500, gates := 2, op := 0 }] }
def atMac (p : PortS) : State := { atPort p with committed := (atPort p).committed ++ [(aPortMac 3, 0x000500FF)] }

theorem wit_GatesAndPausesFollowTheirTimes : (let s := atPort { link := true, op := gl, started := true, gates := 1 };
      let x := s.portS 3;
      s.runs = true ∧ x.op.en = true ∧ x.started = true ∧ x.ent + 1 < x.op.ents.length ∧
      x.runAt + x.cyc * x.op.cycle + x.op.offset (x.ent + 1) ≤ s.ptpNs) ∧
    (let s := atPort { link := true, op := gl, started := true, gates := 1, ent := 1 };
      let x := s.portS 3;
      x.ent + 1 = x.op.ents.length ∧ x.runAt + (x.cyc + 1) * x.op.cycle + x.op.offset 0 ≤ s.ptpNs) ∧
    (∀ l ∈ [gl, {}], ((atPort { link := true, pend := some l }).portS 3).chg ≤ (atPort { link := true, pend := some l }).ptpNs) ∧
    (atMac { link := true }).passing 3 = true ∧
    (mget zeroN ((atMac { link := true, rxPause := [(2, 5)] }).portS 3).rxPause 2 = 5) ∧
    (let s := (atMac { link := true, txPause := [(2, 5)] }).setOwn 26 { u := 1, pause := true };
      (s.own (8 * 3 + 2)).pause = true ∧ mget zeroN (s.portS 3).txPause 2 = 5 ∧
      (5 - 1) * s.portRate 3 + s.cfld (aPortMac 3) 16 16 * 1024 ≤ s.clk.gtc * s.portRate 3 ∧
      s.hop.pauseTx.any (fun e => e.1 = 3 && e.2.1 = 2) = false) := by decide +kernel

theorem wit_LinksAndModulesChange : ((atPort {}).portOn 3 = true ∧ ((atPort {}).portS 3).link = false) ∧
    (((atPort { link := true, linkDn := 255 }).portS 3).link = true ∧ ((atPort { link := true, linkDn := 255 }).portS 3).rxE = none ∧
      ((atPort { link := true, linkDn := 255 }).portS 3).rxP = none) ∧
    (let s := atPort { link := true, pre := 1, tries := 3 };
      (s.portS 3).pre = 1 ∧ (s.portS 3).verAt + s.cfld (aPortMac 3 + 4) 0 8 * 4000000 ≤ s.clk.gtc) ∧
    (up.mayAct (.host 0) = true ∧ masterIs (.host 0) (up.modOwner 63) = true ∧ (up.modS 63).run = false ∧ (up.modS 63).prs = false ∧
      (up.modS 63).int = false) ∧ ((up.setModS 63 { run := true }).modS 63).run = true := by decide +kernel

def lq : Learn := { ekey := 64 * 4096, key := 5, type := 1, data := 9, part := 0, dom := 0, port := 3 }

theorem wit_TimedTableWork_slices : (let s := atGtc 9000000000 (at_ 0 c0);
      let start := s.sliceGtc 31 / second * second;
      s.runs = true ∧ 0 < start ∧ (s.slice 31).pass ≠ start + 1 ∧ s.top.resumeGtc ≤ start) ∧
    (let s := atGtc (second - 1) ((at_ 0 c0).setSlice 31 { (at_ 0 c0).slice 31 with pass := 1, next := 4194302 });
      (s.slice 31).pass ≠ 0 ∧ (s.slice 31).next + 1 < 4194304 ∧
      (s.slice 31).next * second ≤ (s.sliceGtc 31 - ((s.slice 31).pass - 1)) * 4194304 ∧ s.sliceGtc 31 < (s.slice 31).pass - 1 + second) ∧
    (let s := atGtc (2 * second + 100) (atRace {});
      (s.race 0).ager < s.islGtc 64 / second ∧ s.top.resumeGtc ≤ s.islGtc 64 / second * second) ∧
    (lowestLearn [lq] = some lq ∧ lq.ekey / 4096 + 64 ≤ (atRace { learnq := [lq] }).islGtc 64 ∧
      (((atRace { learnq := [lq] }).race 0).learnWin.filter (fun t => decide ((atRace { learnq := [lq] }).islGtc 64 < t + 4000000))).length < 8000) := by
  decide +kernel

/-- Every timer of the tables has something whose time has come. -/
theorem wit_TimedTableWork_timers : (up.setRestamp 2 16 true).restamping 2 16 = true ∧
    (∀ p, p < 4 → p ≠ 2 → (up.setRestamp 2 16 true).restamping p 16 = false) ∧
    (up.runs = true ∧ ((up.setMeter 0xFFFFF { (up.meterAt 0xFFFFF) with prof := 1 }).meterAt 0xFFFFF).prof ≠ 0) ∧
    ((atGtc (4 * 0x3FFFF) up).runs = true ∧ (atGtc (4 * 0x3FFFF) up).clk.gtc / 4 % 0x40000 = 0x3FFFF) ∧
    up.clk.run = true ∧ up.mst.jnl.ring.length < 2097152 ∧ ({ type := 1 } : JEntry).type ≠ 6 := by decide +kernel

/-! ### Hypotheses that are met: host commands -/

/-- `Begins` for a command of partition 0 on ring 0. -/
def begins (l : List (Nat × Nat)) (k : CmdKind) (s : State) : Bool :=
  decide (s.mayStart 0 0 k = true ∧ (cmd l).rsv = 0 ∧ (cmd l).flags.toNat / 2 = 0)

theorem begins_iff (l : List (Nat × Nat)) (k : CmdKind) (s : State) : begins l k s = true ↔ Begins (cmd l) k s := by
  simp [begins, Begins, cmd]

def upW : State := up0.setWalk 0 16 (some {})
def opCommit : List (Nat × Nat) := [(0, 3)]
def atAtt : State :=
  { up0 with host := { up0.host with attests := [{ ref := { cr with epoch := up0.epoch 0 }, nonce := 5, res := 0x1000 }] } }

theorem wit_CompletionsAreWrittenToTheRing : cr.part < 4 ∧ cr.epoch = up0.epoch 0 ∧ { cr with epoch := 3 }.epoch ≠ up0.epoch 0 ∧
    up0.regN (aHstCmdq 0 0 + 8) + up0.regN (aHstCmdq 0 0 + 12) * 2 ^ 32 + 32 * ((up0.ring 0 0).done % up0.cmdSize 0 0) + 32 ≤ 2 ^ 64 := by
  decide +kernel

theorem wit_GeneralCommandsStartAndComplete : Begins (cmd []) .foreground up0 ∧ modeC up0.top.mode 0 = true ∧ modeB up0.top.mode = true ∧
    (Begins (cmd [(0, 4), (1, 16)]) .ahead upW ∧ (cmd [(0, 4), (1, 16)]).op 0 1 = 4 ∧ (cmd [(0, 4), (1, 16)]).op 1 1 = 16 ∧
      ((started (cmd [(0, 4), (1, 16)]) upW).walk 0 16).isSome = true) ∧
    (Begins (cmd opCommit) .foreground up0 ∧ commitAddr ((cmd opCommit).op 0 2) ((cmd opCommit).op 2 2) = some 3145856 ∧
      commitWriter 3145856 = some 0 ∧ ((started (cmd opCommit) up0).commitGo 3145856 0).1 = stOk) ∧
    (Begins (cmd [(24, 1012)]) .background up0 ∧ 1012 ≤ (cmd [(24, 1012)]).op 24 4) ∧
    ((atAtt.host.attests.find? (fun a => a.ref.part = 0 && a.ref.ring = 0 && a.ref.tag = 1)).isSome = true) ∧
    ({ cmd [] with rsv := 1 }.rsv ≠ 0 ∧ { cmd [] with flags := 2 }.flags.toNat / 2 ≠ 0 ∧
      modeA { up0 with top := { up0.top with mode := .safe } }.top.mode = false ∧
      { up0 with top := { up0.top with mode := .safe } }.mayStart 0 0 .foreground = true) := by
  simp only [← begins_iff]; decide +kernel

def opKey : List (Nat × Nat) := [(0, 0x8000), (2, 1), (8, 0xABCDEF)]
/-- `up0` with the key of `opKey` in the stash of race 15's table. -/
def upEm : State := up0.setEm 15 131072 { valid := true, key := 0xABCDEF, type := 1, port := 511 }
def opFlushPort : List (Nat × Nat) := [(0, 0x8000), (2, 1), (4, 511)]
def opLpm : List (Nat × Nat) := [(2, 32), (4, 4095), (8, 0xDEADBEEF), (16, 0x0100000A)]

/-- A key that the stash lists is found. -/
theorem emFind_stash (s : State) (r p type : Nat) (key : Word64)
    (h : (s.em.find? (fun e => decide (emBase r + 131072 ≤ e.1 ∧ e.1 < emBase r + 131328) && e.2.valid && e.2.part == p &&
      e.2.type == type && e.2.key == key)).isSome = true) : (s.emFind r p type key).isSome = true := by
  obtain ⟨x, hx⟩ := Option.isSome_iff_exists.mp h
  unfold State.emFind
  rw [hx]
  dsimp only
  split <;> rfl

theorem wit_TableCommandsComplete_found : Begins (cmd opKey) .foreground upEm ∧ racesOf ((cmd opKey).op 0 2) = [15] ∧
    emBadOps (cmd opKey) false = false ∧ (cmd opKey).op 2 1 = 1 ∧ (cmd opKey).op 8 8 = 0xABCDEF ∧
    ((started (cmd opKey) upEm).emFind 15 0 1 0xABCDEF).isSome = true :=
  ⟨(begins_iff _ _ _).1 (by decide +kernel), by decide +kernel, by decide +kernel, by decide +kernel, by decide +kernel,
    emFind_stash _ _ _ _ _ (by decide +kernel)⟩

theorem wit_TableCommandsComplete : Begins (cmd opKey) .foreground up0 ∧ modeA up0.top.mode = true ∧
    emBadOps (cmd (opKey ++ [(3, 3), (4, 511), (16, 2 ^ 40 - 1)])) true = false ∧
    (Begins (cmd [(0, 15), (2, 4096)]) .foreground up0 ∧ (cmd [(0, 15), (2, 4096)]).op 0 1 = 15 ∧ (cmd [(0, 15), (2, 4096)]).op 2 2 = 4096) ∧
    (Begins (cmd opFlushPort) .foreground up0 ∧ racesOf ((cmd opFlushPort).op 0 2) = [15] ∧ (cmd opFlushPort).op 2 1 < 2 ∧
      (cmd opFlushPort).op 4 2 = 511) ∧
    (Begins (cmd opLpm) .foreground up0 ∧ (cmd opLpm).op 2 1 = 32 ∧ (cmd opLpm).op 4 2 = 4095 ∧
      beNat (leBytes 16 ((cmd opLpm).op 16 16)) % 2 ^ (128 - 32) = 0 ∧ (started (cmd opLpm) up0).ownsLpm 0 4095 = true ∧
      (started (cmd opLpm) up0).lpmHeld 0 false < 64 * (started (cmd opLpm) up0).cfld (aClsLpmQuota 0) 16 16 ∧
      (started (cmd opLpm) up0).lpmTotal false < 1048576) ∧
    (Begins (cmd [(0, 16)]) .foreground up0 ∧ (started (cmd [(0, 16)]) up0).walk 0 16 = none ∧
      (started (cmd [(0, 16)]) up0).restamping 0 16 = false) := by
  simp only [← begins_iff]; decide +kernel

theorem wit_FlowCommandsReachTheirSlice :
    (Begins (cmd [(0, 1), (4, 2 ^ 27 - 1)]) .foreground up0 ∧ flowBadOps (cmd [(0, 1), (4, 2 ^ 27 - 1)]) 1 false true = false ∧
      flowBadOps (cmd [(0, 1), (4, 2 ^ 27 - 1)]) 1 false false = false) ∧
    (Begins (cmd [(0, 2), (1, 15), (8, 0x1000)]) .foreground up0 ∧ flowBadOps (cmd [(0, 2), (1, 15), (8, 0x1000)]) 2 true false = false ∧
      (started (cmd [(0, 2), (1, 15)]) up0).domOwner 15 = 0) ∧
    (Begins (cmd [(2, 1)]) .foreground up0 ∧ (cmd [(2, 1)]).op 2 2 = 1) ∧
    (Begins (cmd [(0, 3), (1, 15), (2, 46)]) .background up0 ∧ (cmd [(0, 3), (1, 15), (2, 46)]).op 2 1 = 46 ∧ up0.flushOf 0 = none) := by
  simp only [← begins_iff]; decide +kernel

def vc (checked : Bool) (a : Nat) : VCommit := { ref := cr, dom := 0, slot := 1, at_ := a, accepted := 999000000, checked := checked }
def atVc (x : VCommit) : State := { upV with cls := { upV.cls with commits := [x] } }

theorem wit_VersionsAreCommittedAndActivated :
    (Begins (cmd [(0, 15), (1, 3), (8, 77)]) .background up0 ∧ (cmd [(0, 15), (1, 3), (8, 77)]).op 0 1 = 15 ∧
      (cmd [(0, 15), (1, 3), (8, 77)]).op 1 1 = 3 ∧ up0.domOwner 15 = 0 ∧ up0.live 15 3 = false ∧ (upTo 4).all (up0.live 15) = false) ∧
    ((atVc (vc false 0)).commitOf 0 0 1 = some (vc false 0) ∧ (atVc (vc false 0)).versionOk 0 1 = true ∧
      (atVc (vc false 1000008000)).clk.gtc + 8000 ≤ 1000008000) ∧
    ((atVc (vc true 1000000000)).commitOf 0 0 1 = some (vc true 1000000000) ∧ 1000000000 ≤ (atVc (vc true 1000000000)).clk.gtc ∧
      (atVc (vc true 1000000000)).oldSlot 0 = some 0 ∧ (0 : Nat) ≠ 1) ∧
    (Begins (cmd [(0, 15)]) .foreground up0 ∧ (cmd [(0, 15)]).op 1 31 = 0) := by
  simp only [← begins_iff]; decide +kernel

def snap (m : Nat) : Snap := { mode := m, at_ := 1000000000, dest := 0x2000, ref := cr }
def atSnap (m : Nat) : State := { up0 with coll := { up0.coll with snap := some (snap m) } }
def dcfg : DumpCfg := { period := 250, base := 0x10000, pages := [0] }
def atStream (k : Nat) (x : Stream) : State := up0.setStream 0 k x

theorem wit_SnapshotsAndDumpsRun :
    (Begins (cmd [(0, 1)]) .background up0 ∧ (cmd [(0, 1)]).op 0 1 = 1 ∧ (cmd [(0, 1)]).op 1 7 = 0 ∧ up0.clk.frozen = false ∧
      up0.coll.snap = none) ∧ (∀ m ∈ [0, 1, 2], (atSnap m).snapDue m = some (snap m)) ∧ (snap 0).ref.epoch = (atSnap 0).epoch (snap 0).ref.part ∧
    (Begins (cmd []) .foreground up0 ∧ bitOf ((cmd []).op 1 1) 0 = false) ∧
    (∀ r ∈ [none, some (1, dcfg, 5)], (atStream 1 { en := true, cfg := dcfg, first := 5, run := r }).collects = true ∧
      (let x := (atStream 1 { en := true, cfg := dcfg, first := 5, run := r }).stream 0 1;
       x.en = true ∧ x.first + (x.next - 1) * (x.cfg.period * 4000) ≤ up0.clk.gtc ∧ x.run = r)) ∧ dcfg.irq = false := by
  simp only [← begins_iff]; decide +kernel

theorem wit_CountersFreezeAndSaturate : (∀ u i, u < 107 → i < 16 → aPortCnt 0 0 ≠ aCntVal u i) ∧ up0.clk.frozen = false ∧
    { up0 with clk := { up0.clk with frozen := true } }.clk.frozen = true := by
  refine ⟨fun u i hu hi => ?_, by decide +kernel, by decide +kernel⟩
  simp [aPortCnt, aCntVal]
  omega

/-! ### Hypotheses that are met: events, maintenance, patches, modes and resets -/

def ev (code : Nat) : EvRec := { src := 5, code := code, detail := 9, gtc := 77 }
def atEvr (e : Evr) : State := { up0 with evr := e }

theorem wit_EventsAreRecordedFrozenAndRead :
    (∀ c ∈ [0x7FFF, 0x8000], (atEvr { up0.evr with inq := [ev c] }).evr.inq = [ev c]) ∧
    (Begins (cmd []) .foreground up0 ∧ up0.evr.frozenSince = 0) ∧
    (Begins (cmd []) .foreground (atEvr { up0.evr with freeze := [(0, 5)], frozenSince := 5 }) ∧
      (started (cmd []) (atEvr { up0.evr with freeze := [(0, 5)], frozenSince := 5 })).freezeOf 0 ≠ 0) ∧
    (Begins (cmd [(8, 2), (16, 4096), (24, 0x8000)]) .foreground up0 ∧ (cmd [(8, 2), (16, 4096), (24, 0x8000)]).op 16 2 = 4096 ∧
      (cmd [(8, 2), (16, 4096), (24, 0x8000)]).op 0 1 = 0) ∧
    (up0.top.pfail = false ∧ { up0 with top := { up0.top with pfail := true } }.top.pfail = true ∧
      ¬ 1024 ≤ (up0.evr.inq.filter (fun e => e.code < 0x8000)).length) := by
  simp only [← begins_iff]; decide +kernel

theorem wit_EventsAreRecordedFrozenAndRead_full :
    1024 ≤ ((atEvr { up0.evr with inq := List.replicate 1024 (ev 1) }).evr.inq.filter (fun e => e.code < 0x8000)).length := by
  decide +kernel

/-- `up0` with maintenance activity `k` running, started by `by_`. -/
def atMnt (k by_ : Nat) : State := (up0.setFld (aMnt k) 0 2 1).setFld (aMnt k) 16 8 by_
def atTest : State := (atMnt 7 byWindshaft).setFld (aUcsStest 191) 29 3 1

theorem wit_MaintenanceStartsAndEnds :
    (∀ a ∈ [1, 2, 3, 12], Begins (cmd [(0, a)]) .foreground up0 ∧ (cmd [(0, a)]).op 0 1 = a ∧ (cmd [(0, a)]).op 1 7 = 0) ∧
    (∀ a ∈ [1, 2, 3, 12], mntArgOk a ((cmd [(0, a)]).op 8 8) = true ∧ (started (cmd [(0, a)]) up0).mntConflict a = none) ∧
    up0.top.fw = none ∧ modeA up0.top.mode = true ∧ modeB up0.top.mode = true ∧
    (up0.mntOn 3 = false ∧ up0.autoDue 3 = true ∧ mget zeroN up0.saf.autoAt 3 = 0 ∧ up0.mntConflict 3 = none) ∧
    ((atMnt 3 0).mntOn 3 = true ∧ (atMnt 3 0).mntMayEnd 3 = true) ∧
    ((atMnt 7 byWindshaft).stestRuns 191 = false ∧ (atMnt 7 byWindshaft).mntOn 7 = true ∧
      (atMnt 7 byWindshaft).fld (aMnt 7) 16 8 = byWindshaft) ∧ atTest.stestRuns 191 = true := by
  simp only [← begins_iff]; decide +kernel

def act (at_ : SMap (Nat × Bool)) : Activation := { ref := cr, revert := true, at_ := at_, since := [(0, 5)] }
def atAct (at_ : SMap (Nat × Bool)) : State := { up0 with ucs := { up0.ucs with act := some (act at_) } }

theorem wit_PatchesAreStagedAndActivated : (Begins (cmd [(0, 0x1000), (8, 64)]) .background up0 ∧ up0.ucs.act = none ∧ up0.top.fw = none) ∧
    (Begins (cmd [(0, 1)]) .background up0 ∧ (started (cmd [(0, 1)]) up0).mntConflict 10 = none ∧ bitOf ((cmd [(0, 1)]).op 0 1) 0 = true ∧
      (started (cmd [(0, 1)]) up0).ucs.stagedSince = false ∧
      (started (cmd [(0, 1)]) up0).actChecks { ref := startRef (cmd [(0, 1)]) 0x71 up0, revert := true } = true) ∧
    ((act [(0, (1, false))]).draining 0 = some 1 ∧ (atAct [(0, (1, false))]).cluEmpty 1 = true ∧ (act [(0, (1, false))]).failing = none ∧
      mget zeroN (act [(0, (1, false))]).since 0 + 4000 * (atAct []).fld aUcsDrainTmo 0 16 ≤ (atAct []).clk.gtc) ∧
    ((act [(0, (11, true))]).phase 0 = (11, true) ∧ (act [(0, (11, true))]).aborted = false) := by
  simp only [← begins_iff]; decide +kernel

def opCells : List (Nat × Nat) := [(1, 2), (8, 0x2000), (16, 512), (24, 0x4000)]
def opPages : List (Nat × Nat) := [(0, 1), (1, 64), (8, 0x2000), (16, 64 * 4096), (24, 0x8000)]
def opFree : List (Nat × Nat) := [(1, 2), (8, 0x4000)]
/-- Partition 0 holds cells 6 and 7 and has their handles at 0x4000. -/
def atBufs : State :=
  { up0 with
    hop := { up0.hop with cells := [(6, { ref := 1, host := true, ownp := 0 }), (7, { ref := 1, host := true, ownp := 0 })] }
    mems := { up0.mems with host := setBytes [] (hostKey 0 0x4000) (leBytes 4 6 ++ leBytes 4 7) } }
def handles : List Nat := (upTo 2).map fun i => (started (cmd opFree) atBufs).hostLe 0 (0x4000 + 4 * i) 4

theorem wit_BuffersModesAndRestartsAreCommanded :
    (Begins (cmd opCells) .foreground up0 ∧ (cmd opCells).op 0 1 = 0 ∧ (cmd opCells).op 1 1 = 2 ∧ (cmd opCells).op 16 4 = 2 * 256 ∧
      ((started (cmd opCells) up0).grantAll 4096 0 true 2 false).isLeft = true) ∧
    (Begins (cmd opPages) .foreground up0 ∧ (cmd opPages).op 0 1 = 1 ∧ (cmd opPages).op 1 1 = 64 ∧ (cmd opPages).op 16 4 = 64 * 4096 ∧
      ((started (cmd opPages) up0).pagesAll 4096 0 64).isSome = true) ∧
    (Begins (cmd opFree) .foreground atBufs ∧ (cmd opFree).op 1 1 = 2 ∧ handles = [6, 7] ∧
      ∀ x ∈ handles, handleOk x = true ∧ x / 2 ^ 31 % 2 = (cmd opFree).op 0 1 ∧ (started (cmd opFree) atBufs).holdsBuf 0 x = true) ∧
    (Begins (cmd [(0, 4)]) .foreground up0 ∧ modeC up0.top.mode 0 = true ∧
      (started (cmd [(0, 4)]) up0).modeTarget ((cmd [(0, 4)]).op 0 1) = some .ready ∧ Mode.ready ≠ up0.top.mode) ∧
    ((cmd [(0, 1)]).op 0 1 = 1) := by
  simp only [← begins_iff]; decide +kernel

def blk (phase : Nat) : BlkReset := { kind := 3, index := 63, phase := phase, who := some cr }
def atBlk (b : BlkReset) : State := { up0 with top := { up0.top with blk := some b } }

theorem wit_BlocksQuiesceResetAndResume : (Begins (cmd [(0, 3), (1, 63)]) .background up0 ∧ (cmd [(0, 3), (1, 63)]).op 0 1 = 3 ∧
      (cmd [(0, 3), (1, 63)]).op 1 1 = 63 ∧ blockExists 3 63 = true ∧ up0.top.blk = none) ∧
    ((atBlk (blk 0)).top.blk = some (blk 0) ∧ (atBlk (blk 0)).blockIdle 3 63 = true ∧
      (blk 0).since + 4000 * (atBlk (blk 0)).fld aRstQuiesceTmo 0 16 ≤ (atBlk (blk 0)).clk.gtc) ∧
    ((blk 1).phase = 1 ∧ (blk 1).who = some cr ∧ { blk 1 with who := none }.who = none) := by
  simp only [← begins_iff]; decide +kernel

def atTop (t : Top) : State := { up0 with top := t }

theorem wit_PowerAndPinsResetTheBlock : ((atTop { up0.top with vinUp := false, vinLow := true }).top.mode ≠ .commit ∧ up0.top.vinUp = true ∧
      up0.top.rstHeld = false ∧ up0.top.mode ≠ .cold) ∧ (atTop { up0.top with mode := .commit }).top.mode = .commit ∧
    State.reset.top.mode = .cold ∧ (atTop { up0.top with rstHeld := true }).top.rstHeld = true := by decide +kernel

theorem wit_StartsGoThroughTrimAndBoot : (∀ e, e ∈ (atTop { up0.top with mode := .restart }).eg.ports → e.2.tx = none) ∧
    (State.reset.top.mode = .cold ∧ State.reset.top.rstHeld = false ∧ State.reset.top.vinUp = true) ∧
    (0 : BitVec 32).toNat % 2 = 0 ∧ ((atTop { up0.top with mode := .boot }).pickSlot fun _ => false).1 = none ∧
    ((atTop { up0.top with mode := .boot }).pickSlot fun _ => true).1.isSome = true := by decide +kernel

theorem wit_ClockFailuresAndSynchronisation : up0.top.mode ≠ .cold ∧ up0.top.mode ≠ .commit ∧ up0.top.mode ≠ .halt ∧
    up0.top.resFail0 = false ∧ up0.top.resFail1 = false ∧ (atTop { up0.top with resFail1 := true }).top.resFail1 = true ∧
    up0.clk.run = true := by decide +kernel

theorem wit_PartitionsAreResetAndLinkAgain :
    (let s : State := { up0 with host := { up0.host with preset := [(3, 1)], presetAt := [(3, 5)] } };
      mget zeroN s.host.preset 3 = 1 ∧ mget zeroN s.host.presetAt 3 + 200000 ≤ s.clk.gtc) ∧
    (let s : State := { up0 with host := { up0.host with retDue := [(0, [6])] } }; ∀ d, d ∈ s.liveDescs → d.hostBufs = []) ∧
    (let s : State := { up0 with link := [], host := { up0.host with preset := [(3, 2)], presetAt := [(3, 5)] } };
      s.trains 3 = true ∧ s.linkUp 3 = false ∧ mget (fun _ => false) s.host.perst 3 = false ∧ mget zeroN s.host.preset 3 = 2 ∧
      mget zeroN s.host.presetAt 3 + 400000 ≤ s.clk.gtc) := by decide +kernel

/-! ### Hypotheses that are met: rings, settings, registers, time -/

/-- Transmit and receive ring 63 of partition 0, of four descriptors each, the first at 0x2000 and 0x3000; `b` at 0x2000. -/
def atDma (tail : Nat) (b : List Byte) : State :=
  let s := ((up0.setRegN (aHstTxq 0 63) 0x2000).setRegN (aHstTxq 0 63 + 8) 0x80000002).setRegN (aHstTxq 0 63 + 12) tail
  let s := ((s.setRegN (aHstRxq 0 63) 0x3000).setRegN (aHstRxq 0 63 + 8) 0x80000002).setRegN (aHstRxq 0 63 + 12) tail
  { s with mems := { s.mems with host := setBytes [] (hostKey 0 0x2000) b } }
/-- A descriptor of a frame of 64 bytes at 0x4000 for queue `q3`, and one with a length that is too small. -/
def txGood : List Byte := leBytes 8 0x4000 ++ leBytes 2 64 ++ exactly 6 [] ++ leBytes 4 q3
def txShort : List Byte := leBytes 8 0x4000 ++ leBytes 2 59 ++ exactly 6 [] ++ leBytes 4 q3
def atRing (b : List Byte) : State := (atDma 1 b).setTabW tQueue q3 0 0x80002800

theorem wit_RingsAreServedInOrder : (up0.doorOk 0 = true ∧ up0.cmdOn 0 0 = true ∧ sub16 16 (up0.cmdCh 0 0) ≤ up0.cmdSize 0 0 ∧
      up0.cmdSize 0 0 < sub16 17 (up0.cmdCh 0 0) ∧ sub16 (up0.cmdPi 0 0) 0 ≤ up0.cmdSize 0 0 ∧ up0.cmdSize 0 0 < sub16 (up0.cmdPi 0 0) 2) ∧
    ((atDma 0 []).dmaOn (aHstRxq 0 63) = true ∧ (atDma 0 []).dmaOn (aHstTxq 0 63) = true ∧
      sub16 4 ((atDma 0 []).dmaHead (aHstRxq 0 63)) ≤ (atDma 0 []).dmaSize (aHstRxq 0 63)) ∧
    (∀ b ∈ [txGood, txShort], (atRing b).doorOk 0 = true ∧ (atRing b).runs = true ∧ (atRing b).dmaOn (aHstTxq 0 63) = true ∧
      ((atRing b).dmaHead (aHstTxq 0 63) + ((atRing b).txs 63).length) % 65536 ≠ (atRing b).dmaTail (aHstTxq 0 63) ∧
      63 ∉ (atRing b).host.txWait) ∧
    ((atRing txShort).txRefused 0 (nextTx (atRing txShort) 0 63) = some stReject) ∧
    ((atRing txGood).txRefused 0 (nextTx (atRing txGood) 0 63) = none ∧ (nextTx (atRing txGood) 0 63).hb = false ∧
      (nextTx (atRing txGood) 0 63).inject = false ∧
      ((atRing txGood).hostCells 0 ((atRing txGood).hostRead 0 (nextTx (atRing txGood) 0 63).addr 64)).isLeft = true) ∧
    (({ atRing txShort with host := { (atRing txShort).host with txWait := [63] } }.host.txWait.find? (fun k => decide (k / 64 = 0))) = some 63) ∧
    (atRing txShort).dmaAddr (aHstTxq 0 63) 3 + 32 ≤ 2 ^ 64 := by decide +kernel

def rxItem : RxItem := { part := 0, ring := 63, pkt := 1, cell := 5, gen := 0, frame := frame64, code := 7, kind := 1 }
/-- The next receive descriptor names 64 bytes at 0x8000. -/
def atRxq : State :=
  let s := atDma 1 []
  { s with rx := [rxItem], mems := { s.mems with host := setBytes [] (hostKey 0 0x3000) (leBytes 8 0x8000 ++ leBytes 2 64) } }

theorem wit_RingsAreServedInOrder_rx : (atRxq.rx.find? (fun z => z.part = 0 && z.ring = 63)) = some rxItem ∧ atRxq.runs = true ∧
    (atRxq.pkt 1).bad = false ∧ (atRxq.pkt 1).ended = true ∧ atRxq.dmaTail (aHstRxq 0 63) ≠ atRxq.dmaHead (aHstRxq 0 63) ∧
    (let a := atRxq.dmaAddr (aHstRxq 0 63) (atRxq.dmaHead (aHstRxq 0 63));
      atRxq.hostLe 0 a 8 % 64 = 0 ∧ atRxq.hostLe 0 (a + 8) 2 = 64 ∧ rxItem.frame.length ≤ atRxq.hostLe 0 (a + 8) 2) := by decide +kernel

/-- A gate list of two entries staged for port 3 by partition 0. -/
def atStg : State :=
  (((((up0.setRegN (aGateStgCfg 0) 0x80020003).setRegN (aGateStgCfg 0 + 4) 1000000).setRegN (aGateStgEnt 0 0) 500000).setRegN
    (aGateStgEnt 0 0 + 4) 1).setRegN (aGateStgEnt 0 1) 500000).setRegN (aGateStgEnt 0 1 + 4) 2

theorem wit_StagedSettingsAreCommitted : up0.mayAct (.host 0) = true ∧ masterIs (.host 0) 0 = true ∧
    (commitWriter 3145856 = some 0 ∧ blockOf 3145856 ≠ 0x00A ∧ blockOf 3145856 ≠ 0x00B ∧ up0.commitOk 3145856 = true ∧
      (up0.setRegN (aTskDlyCfg 0) 0xFFFFFFFF).commitOk 3145856 = false) ∧
    (bitOf 0x80000000 31 = true ∧ bitsOf (atStg.regN (aGateStgCfg 0)) 0 9 = 3 ∧ atStg.portOwner 3 = 0 ∧
      bitOf (atStg.regN (aGateStgCfg 0)) 30 = false ∧ (atStg.portS 3).pend = none ∧ (atStg.stagedList 0).en = true ∧
      (atStg.stagedList 0).wellFormed (bitsOf (atStg.regN (aGateStgCfg 0)) 16 9) = true ∧
      (∀ c, c < 8 → (atStg.stagedList 0).admits c (atStg.classSdu 3 c) (atStg.portRate 3) = true)) ∧
    bitOf ((atStg.setRegN (aGateStgCfg 0) 0xC0020003).regN (aGateStgCfg 0)) 30 = true := by decide +kernel

/-- Rule 5 of races 0 and 1 staged, and the state in which operation `k` on it runs. -/
def atTcam : State := (up0.setRegN (aClsTcamStgRule 0) 0x00030800).setRegN (aClsTcamStgKey 0 0) 0x1234
def tcode (s : State) (k : Nat) : State := s.setRegN (aClsTcamStgOp 0) (tcamCode 0x80000005 k &&& 0x70003FFF)
/-- Entry `q3` of the queue table, staged and named by a write. -/
def atTacc : State :=
  ((up0.setRegN (aQshTaccData 0 0) 0x2800).setRegN (aQshTaccData 0 1) 1).setRegN (aQshTaccCtl 0)
    ((putBits (putBits q3 31 1 1) 30 1 1) &&& 0x40FFFFFF)
def tdata (w : Nat) : Nat := atTacc.regN (aQshTaccData 0 w)

theorem wit_RulesAndTableEntriesAreWritten : up0.mayAct (.host 0) = true ∧ masterIs (.host 0) 0 = true ∧
    ((tcode atTcam 1).tcamOp 0 1 5).1 ≠ stOk ∧
    ((tcode atTcam 0).tcamOp 0 0 5).1 = stOk ∧ (bitOf 0x00030800 17 = true ∧ bitOf 0x00030800 18 = false) ∧
    (q3 < tabSize 0 ∧ up0.ownsEntry 0 0 q3 = true ∧ q3 / 2 ^ 20 % 16 = 0) ∧
    (atTacc.formatOk 0 q3 tdata = true ∧ atTacc.namesOwn 0 0 tdata = true ∧ atTacc.tableBusy 0 q3 tdata = false) := by
  decide +kernel

/-- A word of partition 0's staged settings: TSK_DLY_CFG of race 15. -/
def plainAt : Nat := aTskDlyCfg 15

/-- A session at USER level is open. -/
def up1 : State := { up0 with dbg := { up0.dbg with level := 1 } }

theorem wit_WritesFollowTheAccessType : up1.mayAct .eosta = true ∧ up1.globalAddr .eosta plainAt = some plainAt ∧ plainAt % 4 = 0 ∧
    progPlace plainAt = none ∧ inEmView plainAt = false ∧ inDbg plainAt = false ∧
    ((busReg plainAt).any fun e => up1.mayWrite .eosta e.1 e.2.1 && !up1.protects e.1 e.2.1 && (e.1.words[e.2.2]?).isSome &&
      up1.valueOk e.1 e.2.2 5 && decide (e.1.base = aTskDlyCfg 0)) = true ∧ commitWriter plainAt = none ∧
    (inDbg (aDbgApCtl) = true ∧ up1.globalAddr .eosta aDbgApCtl = some aDbgApCtl) ∧
    (progPlace 0x02000000).isSome = true ∧ up1.globalAddr .eosta 0x02000000 = some 0x02000000 := by decide +kernel

/-! ### Hypotheses that are met: writes and reads that act, network time -/

def subs (a b : Nat) : State := (up0.setRegN (aHstDsub 0) a).setRegN (aHstDsub 1) (b &&& 0x0FFF0FFF)
def subRange (s : State) (q k : Nat) : Nat × Nat := (bitsOf (s.regN (aHstDsub q + 4 * k)) 0 12, bitsOf (s.regN (aHstDsub q + 4 * k)) 16 12)

theorem wit_WritesActAtOnce : masterIs (.host 0) 0 = true ∧ up0.mayAct (.host 0) = true ∧
    (∀ q ∈ [0, 2, 3], ∀ k, k < 2 → ∀ l, l < 2 → rangesMeet (subRange (subs 0 0x00100001) 1 k) (subRange (subs 0 0x00100001) q l) = false) ∧
    rangesMeet (subRange (subs 0x0FFF0000 0x00100001) 1 0) (subRange (subs 0x0FFF0000 0x00100001) 0 0) = true ∧
    (4 < unitCounters 106 ∧ selOk 106 0xA1000000 = true ∧ selOk 106 0x90100000 = false) ∧
    (up0.clk.gtc < up0.regN aCntWin + 1 * 2 ^ 32) ∧ up0.userMay 1 (up0.stream 1 1).cfg.pages = false ∧
    (up0.mayWrite (.host 0) rowPortLanemap [3] = true ∧ up0.portEn 200 = false ∧ up0.regN (aPortLanemap 3) = 0xFAC688 % 2 ^ 24) ∧
    (inRange (lbRange up0.committed 0) (bitsOf (up0.regN (aMstLbWaddr 0)) 14 10) = true ∧
      bitOf (up0.regN (aMstLbSvc (bitsOf (up0.regN (aMstLbWaddr 0)) 14 10))) 31 = false) ∧
    inRange (lbRange up0.committed 0) 0 = true := by decide +kernel

def ent : TsqEntry := { id := 5, port := 3, secs := 77, ns := 88 }
/-- A timestamp waits, and the time pins have had a message. -/
def atPtp : State := { up0 with ptp := { up0.ptp with tsq := [(0, [ent])], todRx := some (exactly 18 [], 1000) } }

theorem wit_ReadsReturnAndLatch : up0.reaches (.host 0) = true ∧
    (∀ w ∈ [0, 1], up0.globalAddr (.host 0) (aPortCnt 3 0 + 4 * w) = some (aPortCnt 3 0 + 4 * w) ∧ (aPortCnt 3 0 + 4 * w) % 4 = 0 ∧
      progPlace (aPortCnt 3 0 + 4 * w) = none ∧ inEmView (aPortCnt 3 0 + 4 * w) = false ∧ inDbg (aPortCnt 3 0 + 4 * w) = false ∧
      ((busReg (aPortCnt 3 0 + 4 * w)).any fun e => up0.mayRead (.host 0) e.1 (e.2.1.headD 0) && !hidesSeed (.host 0) e.1 && e.1.wide &&
        !effectReads.contains e.1.base && e.2.2 = w) = true) ∧
    (up0.mayRead (.host 0) rowPtpCapture 0 = true ∧ up0.mayRead (.host 0) rowPtpTsq 0 = true ∧ up0.mayRead (.host 0) rowHstDeny 0 = true ∧
      up0.mayRead (.host 0) rowPtpPpsin 0 = true ∧ up0.mayRead (.host 0) rowPtpTodRx 0 = true ∧
      up0.mayRead (.host 0) rowRaceRobStatus 15 = true ∧ up0.mayRead (.host 0) rowPortStatus 511 = true) ∧
    (mget (fun _ => ([] : List TsqEntry)) atPtp.ptp.tsq 0 = [ent] ∧ mget (fun _ => ([] : List TsqEntry)) up0.ptp.tsq 0 = [] ∧
      up0.ptp.todRx = none ∧ atPtp.ptp.todRx.isSome = true) := by decide +kernel

/-- The PPS output and the time of day on, at a second of network time that has not been shown yet. -/
def atPps : State :=
  let s := ((up0.setRegN aPtpPpsout 0x80000000).setRegN aPtpTodTx 0x80000000)
  { s with ptp := { s.ptp with total := 7 * secUnit, at_ := s.clk.gtc } }
def tod : List Byte := [0x54, 0x43, 0x01, 0x0C] ++ exactly 12 []
def todMsg : List Byte := tod ++ beBytes 2 (crc16 ((tod.drop 2).take 14)).toNat
def atPend (c : PtpChange) : State := { up0 with ptp := { up0.ptp with pend := [(999990000, c)] } }

theorem wit_NetworkTimeIsSetAndShown : up0.mayAct (.host 0) = true ∧ masterIs (.host 0) 0 = true ∧
    (up0.ptp.pend.any (fun e => clashes e.1 up0.clk.gtc e.2 (.rate 0)) = false ∧
      up0.ptp.pend.any (fun e => clashes e.1 up0.clk.gtc e.2 (.step 0)) = false) ∧
    (∀ c ∈ [PtpChange.rate 5, .step (-9), .set 3 4], (999990000 / 4096 + 1) * 4096 ≤ (atPend c).clk.gtc ∧ (atPend c).ptp.pend = [(999990000, c)]) ∧
    (up0.clk.run = true ∧ up0.ptp.ppsGtc = 0) ∧
    ((atPps.reg aPtpPpsout).getLsbD 31 = true ∧ atPps.ppsTime % secUnit * 2 < 5 * nsUnit ∧ atPps.ptp.ppsSec = 0) ∧
    (let s : State := { atPps with ptp := { atPps.ptp with todDue := true, ppsOutGtc := 996000000 } };
      s.ptp.todDue = true ∧ (s.reg aPtpTodTx).getLsbD 31 = true ∧ s.ptp.ppsOutGtc + 4000000 ≤ s.clk.gtc) ∧
    (todOk todMsg = true ∧ todOk tod = false) ∧ (∀ e ∈ [1, 2], { up0.ptp with eec := e }.eec = e) := by decide +kernel

/-! ### Hypotheses that are met: firmware, safety, the debug port -/

def atFw (o : Option FwOp) (m : Mode) : State := { up0 with top := { up0.top with fw := o, mode := m } }

theorem wit_FirmwareSlotsAreLoaded : (up0.mayAct (.host 0) = true ∧ masterIs (.host 0) 0 = true ∧ up0.top.fw = none ∧ modeB up0.top.mode = true ∧
      1 ≠ up0.top.fwm.run ∧ up0.regN aTopFwAddr % 4096 = 0 ∧ up0.regN aTopFwLen ≤ 0x03000000) ∧
    (atFw none .recovery).top.mode = .recovery ∧
    (∀ j, j < 2 → (atFw (some { op := 1, slot := j }) .service).top.fw = some { op := 1, slot := j }) ∧
    (atFw (some { op := 3, slot := 1 }) .service).top.fw = some { op := 3, slot := 1 } := by decide +kernel

/-- Rule 16383 of race 15 in error, a frame on port 3's line, a reaction due. -/
def atSaf : State :=
  let s := ((atPort { link := true, tx := some tx0 }).setFld aSafCfg 0 8 0).setRule 15 16383 { valid := true, err := true }
  { s with saf := { s.saf with due := [{ blockReaction := true, code := 5, kind := 0, index := 15 }] } }

theorem wit_DiagnosticsDetectAndReact : (atSaf.runs = true ∧ atSaf.hbTakes 191 15 = true ∧
      max atSaf.saf.hbAt atSaf.top.resumeGtc + 1000000 ≤ atSaf.clk.gtc) ∧
    (atSaf.clk.run = true ∧ (atSaf.rule 15 16383).err = true ∧ atSaf.top.mode ≠ .halt ∧ atSaf.top.mode ≠ .commit) ∧
    ((atSaf.thr (thrNum t0)).ctx.isSome = true ∧ (atSaf.portS 3).tx.isSome = true ∧ atSaf.fld aSafCfg 0 8 = 0) ∧
    atSaf.saf.due ≠ [] ∧ up0.saf.due = [] := by decide +kernel

theorem wit_WindshaftKeepsItsTimes : up0.clk.run = true ∧ up0.top.mode ≠ .halt ∧ up0.top.mode ≠ .commit ∧
    up0.saf.aliveAt + 400000 ≤ up0.clk.gtc ∧ (atGtc second up0).saf.optAt + second ≤ (atGtc second up0).clk.gtc ∧
    up0.saf.powerAt + 4000000 ≤ up0.clk.gtc ∧ modeB up0.top.mode = true ∧ up0.saf.ageAt = 0 := by decide +kernel

theorem wit_SmbusAnswersAndAlerts : up0.top.mode ≠ .commit ∧ up0.top.vinUp = true ∧ up0.smb.alert = false ∧
    { up0.smb with alert := true }.alert = true ∧
    ((1 : Half).getLsbD 0 = true ∧ bitOf 0xFE 0 = false ∧ bitOf 1 0 = true) := by decide +kernel

def lv (n : Nat) (s : State) : State := { s with dbg := { s.dbg with level := n } }
/-- `up0` at session level `n` in READY. -/
def rdy (n : Nat) : State := lv n { up0 with top := { up0.top with mode := .ready } }

theorem wit_TheTapSelectsAndAccesses : (1 ≤ (rdy 1).dbg.level ∧ (rdy 1).top.mode = .ready) ∧ (rdy 0).dbg.level = 0 ∧
    (rdy 0).top.mode ≠ .cold ∧ (rdy 0).top.mode ≠ .commit ∧
    (∀ o ∈ [0, 4, 0x20C, 0x400], ((dbgReg o).any fun e => (e.1.words[e.2.2]?).isSome) = true) ∧
    (observeReads 0 = true ∧ observeReads 0x20C = false ∧ observeWrites 4 = true ∧ observeWrites 0 = false ∧ dbgReg 0xFFFFFFFC = none) := by
  decide +kernel

theorem wit_SessionsAreUnlockedAndLocked : (rdy 1).top.mode ≠ .cold ∧ (rdy 1).top.mode ≠ .commit ∧ 1 ≤ (rdy 1).dbg.level ∧
    (rdy 1).dbg.user = none ∧ (rdy 0).dbg.level = 0 ∧
    (let s : State := { rdy 0 with dbg := { fails := 4, lockEnd := some 5 } }; s.lockedOut = true ∧ s.evr.optime < 5) ∧
    (let s : State := atGtc (60 * second) { rdy 0 with dbg := { chal := some ([], 0), lockEnd := some 0 } };
      s.dbg.chal = some ([], 0) ∧ 0 + 60 * second ≤ s.clk.gtc ∧ s.dbg.lockEnd = some 0 ∧ 0 ≤ s.evr.optime) ∧
    (atGtc (60 * second - 1) up0).clk.gtc < 0 + 60 * second := by decide +kernel

theorem wit_DebugAccessesAndThreads : (∀ sp ∈ [0, 1, 3, 4], (rdy 0).dbg.level < spaceLevel sp true 0) ∧
    (let s := (((rdy 1).setRegN aDbgApCtl (2 * 256 + 2 ^ 29)).setRegN aDbgApAddr 0x7FFFFFF8).setRegN (aDbgApAddr + 4) 0xF;
      bitsOf (s.regN aDbgApCtl) 8 3 = 2 ∧ (s.regN aDbgApAddr + s.regN (aDbgApAddr + 4) * 2 ^ 32) / 8 * 8 + 8 ≤ 0xF80000000) ∧
    ((rdy 1).selThread = some 0 ∧ ((rdy 1).thr 0).ctx.isSome = true ∧ ((rdy 1).thr 0).halted = none) ∧
    (let s := (rdy 2).setThr 0 { (rdy 2).thr 0 with halted := some .request, haltAt := 5 };
      (s.thr 0).halted.isSome = true ∧ s.dbg.level = 2 ∧ s.selThread = some 0) ∧
    (let s := (rdy 1).setRegN aDbgThrSel 1; s.selThread = some 1 ∧ (s.thr 1).ctx = none ∧ (s.thr 1).svc = none) := by decide +kernel

theorem wit_TheDebugPortHaltsAndResets : (1 ≤ (lv 1 up0).dbg.level ∧ (lv 1 up0).regN aDbgHaltAt + (lv 1 up0).regN (aDbgHaltAt + 4) * 2 ^ 32 = 0 ∧
      modeB (lv 1 up0).top.mode = true ∧ (lv 1 up0).top.mode ≠ .cold ∧ (lv 1 up0).top.mode ≠ .commit ∧ (lv 1 up0).top.mode ≠ .test) ∧
    (let s := (lv 1 up0).setRegN aDbgHaltAt 5; s.regN aDbgHaltAt + s.regN (aDbgHaltAt + 4) * 2 ^ 32 < s.clk.gtc + 8000) ∧
    (lv 1 { up0 with top := { up0.top with mode := .halt, preHalt := .service } }).top.mode = .halt ∧
    (∀ e ∈ [true, false], ({ enter := e, at_ := 1000000000 } : HaltReq).at_ ≤ up0.clk.gtc) ∧
    (let s := (lv 1 up0).setRegN aDbgReset 0x033F0000;
      let w := putBits (putBits (s.regN aDbgReset) 29 2 1) 31 1 1;
      blockExists (bitsOf w 24 4) (bitsOf w 16 8) = true ∧ s.top.blk = none) ∧
    ((rdy 2).dbg.level = 2 ∧ (rdy 2).top.mode = .ready ∧ (rdy 1).dbg.level = 1) := by decide +kernel

/-! ### Hypotheses that are met: the waits, refusals and other ends of the engine instructions -/

/-- `at_` with packet 1 as `p`, and with `k` code words in its image. -/
def atPk (w : Word32) (c : Ctx) (p : Packet) : State := { at_ w c with pkts := [(1, p)] }
def atLen (w : Word32) (k : Byte) : State :=
  { at_ w c0 with mems := { (at_ w c0).mems with prog := setBytes (image w) 8 [k] } }

theorem wit_LoadsAndStoresMoveWindowBytes_stops :
    (Goes (encM 0x04 4 1 3 false 0 57) c0 ∧ winSize 1 < memAddr c0 false 0 57 + 8) ∧
    (Issues t0 (encM 0x04 4 0 3 true 3 49) c0 (atPk (encM 0x04 4 0 3 true 3 49) c0 { pk with arrived := 10 }) ∧
      hdrNeed { pk with arrived := 10 } (memAddr c0 true 3 49) 8 ≠ 0) ∧
    Goes (encM 0x05 4 3 0 false 0 0) c0 ∧ (Goes (encM 0x05 4 2 3 false 0 121) c0 ∧ winSize 2 < memAddr c0 false 0 121 + 8) ∧
    (at_ (encM 0x04 4 3 3 false 0 248) c0).poolBad 0 c0 3 (memAddr c0 false 0 248) 8 = none :=
  ⟨⟨goes _ _ rfl rfl rfl, by decide⟩, ⟨(at_issues (encM 0x04 4 0 3 true 3 49) c0 rfl rfl rfl).1, by decide +kernel⟩,
    goes _ _ rfl rfl rfl, ⟨goes _ _ rfl rfl rfl, by decide⟩, by decide +kernel⟩

/-- Branches not taken, at the last word of the code too, and a result that is still pending. -/
theorem wit_BranchesGoToTheirTargets_others :
    (Goes (encB 0x08 1 3) c0 ∧ condHolds 1 c0.z c0.n c0.c c0.v = false) ∧
    (Issues t0 (encB 0x08 1 3) c0 (atLen (encB 0x08 1 3) 1) ∧ (atLen (encB 0x08 1 3) 1).codeLen 0 c0 = 1) ∧
    (Goes (encBC 5 1 true 3) c5 ∧ c5.rcOf 5 = 0) ∧ (Goes (encBC 4 1 false 3) c0 ∧ c0.rcOf 4 = 1) ∧ Goes (encBC 4 1 false 4) c0 :=
  ⟨⟨goes _ _ rfl rfl rfl, by decide⟩, by unfold Issues; decide +kernel, ⟨goes _ _ rfl rfl rfl, by decide⟩,
    ⟨goes _ _ rfl rfl rfl, by decide⟩, goes _ _ rfl rfl rfl⟩

theorem wit_OperationsJoinTheirUnit_pool : (at_ (encHash 0x1A 4 5 3 255 0) c0).poolBad 0 c0 3 0 256 = none := by decide +kernel

theorem wit_WaitsAndDelays_others :
    (Goes (encDelay 0 true 3 0) c0 ∧ badDelay true 3 0 = false ∧ (c0.gr 3).toNat % 65536 = 7) ∧ Goes (encDelay 0 false 0 0) c0 ∧
    (atDly (encDelay 3 false 0 65535)).delayRoom 0 = true ∧
    (Issues t0 encOrdrel c0 (atPk encOrdrel c0 { pk with rob := false }) ∧ MoreCode t0 c0 (atPk encOrdrel c0 { pk with rob := false })) :=
  ⟨⟨goes _ _ rfl rfl rfl, by decide, by decide⟩, goes _ _ rfl rfl rfl, by decide +kernel,
    (at_issues encOrdrel c0 rfl rfl rfl).1, (at_issues encOrdrel c0 rfl rfl rfl).2⟩

/-- The metadata of `c0` with a header 65 bytes shorter than the packet's. -/
def cNeg : Ctx := { c0 with md := setBytes [] 2 [0xBF, 0xFF] }

/-- Endings that wait, that find no frame, a fourth pass, a full Leat, or a stamp beyond the header. -/
theorem wit_EndingsReleaseTheThread_others :
    (Goes (encEmit true true 1) c5 ∧ Goes (encDrop 0) c5 ∧ Goes (encTrap 0 0) c5 ∧ Goes encRecirc c5 ∧ c5.dc ≠ 0) ∧
    (∀ w, Issues t0 w c0 (atPk w c0 { pk with kind := .expiry })) ∧
    ((at_ 0 cNeg).outFrame 0 cNeg = none ∧ cNeg.dc = 0 ∧
      Goes encRecirc cNeg) ∧
    (Issues t0 encRecirc c0 (atPk encRecirc c0 { pk with pass := 3 }) ∧ ({ pk with pass := 3 } : Packet).kind ≠ .expiry) ∧
    (Goes (encEmit false false 0) { c0 with stamps := [(false, 55)] } ∧ stampsFit pk { c0 with stamps := [(false, 55)] } = false) ∧
    (256 ≤ (((at_ encRecirc c0).setRace 0 { leat := List.replicate 256 2 }).race 0).leat.length ∧
      Issues t0 encRecirc c0 ((at_ encRecirc c0).setRace 0 { leat := List.replicate 256 2 })) :=
  ⟨⟨goes _ _ rfl rfl rfl, goes _ _ rfl rfl rfl, goes _ _ rfl rfl rfl, goes _ _ rfl rfl rfl, by decide⟩,
    fun w => (at_issues w c0 rfl rfl rfl).1, ⟨by decide +kernel, by decide, goes _ _ rfl rfl rfl⟩,
    ⟨(at_issues encRecirc c0 rfl rfl rfl).1, by decide⟩, ⟨goes _ _ rfl rfl rfl, by decide +kernel⟩,
    by decide +kernel, by unfold Issues; decide +kernel⟩

/-! ### Hypotheses that are met: other cases of threads, units and queues -/

/-- A service routine that stands on thread 4. -/
def tok : Token := { routine := 1, segment := 1, addr := 0, ver := 0 }
def atSvc (i : Ints) : State := { at_ 0 c0 with threads := [(4, { svc := some tok, ints := i })] }
def t4 : ThreadId := { race := 0, cluster := 0, engine := 1, thread := 0 }

theorem wit_InterruptsAndExceptionsEndTasks_others :
    (∀ i ∈ ([{}, { halt := true }] : List Ints), ((atInts i).thr 0).atSafe = true) ∧ thrNum t4 = 4 ∧
    (∀ i ∈ ([{}, { ecc := true }, { abort := true, halt := true }, { drain := true }] : List Ints), (atSvc i).runs = true ∧
      ((atSvc i).thr 4).mstep = false ∧ ((atSvc i).thr 4).atSafe = true ∧ ((atSvc i).thr 4).halted = none ∧
      ((atSvc i).thr 4).ctx = none ∧ ((atSvc i).thr 4).svc = some tok ∧ (atSvc i).badService 4 = none) := by decide +kernel

theorem wit_GatesOpenAndCompletionsArrive_others : atGate.arrivesNext k0 = true ∧
    (let s := { atGate with threads := [(0, { ctx := some c5, gate := some (.dcLe 1), halted := some .request })] };
      (s.thr 0).halted ≠ none ∧ gateHolds s c5 (.dcLe 1) = true) ∧
    (let s := { atGate with comps := [{ k0 with task := 8 }] };
      (s.comps.find? (fun k => decide (k.thread = 0 ∧ k.tag = 5))) = some { k0 with task := 8 } ∧ s.arrivesNext { k0 with task := 8 } = true) ∧
    ({ k0 with ecc := true }.ecc = true ∧ { k0 with ecc := true }.task = c5.task) ∧ NoWatch t0 atGate := by
  refine ⟨by decide +kernel, by decide +kernel, by decide +kernel, by decide +kernel, fun i write space off len hi => ?_⟩
  have h : ∀ i, i < 4 → bitOf (up.regN (aDbgWp 0 i)) 31 = false := by decide +kernel
  have h1 : bitOf (atGate.regN (aDbgWp t0.race.val i)) 31 = false := h i hi
  simp [State.wpMatch, h1]

theorem wit_UnitsApplyTheirOperations_others :
    ((atSlice [] [fo] []).alive { fo with src := .thread 0 8 5 4 }.src = false ∧ (atSlice [] [fo] []).alive fo.src = true) ∧
    ((atSlice [] [] [fh]).stands fh = true ∧ (atSlice [] [] [fo]).stands { fo with src := .thread 0 8 5 4 } = false) ∧
    (asksLearn { eo with learn := some 7 } none = true ∧ { atUnits with committed := [(aEmtQuota 0, 0)] }.emQuota 0 ≤ atUnits.emHeld 0 0) ∧
    (256 ≤ ((atUnits.setRace 0 { learnq := List.replicate 256 { ekey := 0, key := 5, type := 1, data := 9, part := 0, dom := 0, port := 3 } }).race
      0).learnq.length) ∧
    (4096 ≤ { lo with table := 4096 }.table ∧ atUnits.ownsLpm 3 0 = false) ∧
    ({ atUnits with weirq := [{ mo with part := 3 }] }.owns 3 .mtr mo.meter = false) := by decide +kernel

/-! ### Hypotheses that are met: other cases of the Hopper, races and ports -/

theorem wit_TheHopperServesItsRequests_others :
    (∀ w ∈ [ReqFor.alloc cr 2 512 0x2000 0x4000, .hostTx 0 63, .keepalive 0 7],
      lowestReq [q2, { q1 with who := w }] = some { q1 with who := w }) ∧
    (atHop { rel := [(5, 0)] }).hop.rel = [(5, 0)] := by decide +kernel

/-- An entry at the last word of the code, and one beyond it. -/
theorem wit_PassesAreAdmittedAndDealt_entry : ({ c0 with pc := 3 } : Ctx).pc.toNat < ((at_ 0 c0).startOn 4 { c0 with pc := 3 }).codeLen (raceOf 4)
      { c0 with pc := 3 } ∧
    ((at_ 0 c0).startOn 4 { c0 with pc := 4 }).codeLen (raceOf 4) { c0 with pc := 4 } ≤ ({ c0 with pc := 4 } : Ctx).pc.toNat := by decide +kernel

/-- A firing that has noted slot 0 and its PTP time. -/
def dk : Delayed := { kind := .timer 7, list := 0, due := 5, fired := some (0, 7, 8) }
def atFired : State := atDue.setRace 0 { dly := [dk] }

theorem wit_DelaysTimersAndTimeouts_others :
    (let v := atDue.stampFirings 0; (∃ d, (v.race 0).dly.find? (fun d => decide (d.kind = .timer 7)) = some d ∧ (v.dueBare 0 d.list).head? = some d) ∧
      (∃ d, (v.dueBare 0 2).head? = some d ∧ d.kind = .expiry ∧ v.bareRoom 0 d = true) ∧
      v.curSlot 0 = some 0 ∧ (v.classEntry 0 0 0 (v.fld (aMstExp 0) 16 12)).isSome = true) ∧ atEntry.delayRoom 0 = true ∧
    (atFired.bareRoom 0 dk = true ∧ (0 : Nat) ≠ noSlot ∧ (atFired.firing 0 7 dk).map (fun e => (e.1, e.2.1, e.2.2.1)) = some (0, 7, 8) ∧
      (atFired.race 0).dly.find? (fun d => decide (d.kind = .timer 7)) = some dk ∧
      (atFired.grant (4096 + atFired.domOwner dk.firedDom) (some 0) (atFired.domOwner dk.firedDom) false true).isLeft = true) ∧
    ((((at_ 0 c0).setRace 0 { rob := [{ port := 3, pkt := 1, at_ := 0, out := some [] }] }).race 0).rob.find?
      (fun e => decide (e.at_ + (at_ 0 c0).fld (aRaceReorderTmo 0) 0 16 * 4 ≤ (at_ 0 c0).clk.gtc))).map RobSlot.out = some (some []) ∧
    (let s := { atRace { dly := [{ dd with ctx := { c0 with task := 77 } }] } with threads := [] };
      s.threads = [] ∧ (((s.race 0).dly ++ (s.race 0).due).find? (fun d => decide (d.kind = .prog) &&
        decide (d.ctx.task = 77 ∧ d.ctx.start + budget ≤ s.clk.gtc) && (s.pkt d.ctx.pkt).hasFrame)).isSome = true) := by decide +kernel

/-- The last bytes of a frame that has begun; a preemptable frame in reception; a port that has lost its link. -/
theorem wit_FramesEnterTheSluiceOrAreDropped_others :
    (atRx.passing 3 = true ∧ (atRx.portS 3).rxE = some { bytes := frame64, pkt := some 1 }) ∧
    (let s := atRx.setPortS 3 { link := true, rxP := some { bytes := frame64, pkt := some 1 } };
      (s.portS 3).rxE.isSome = false ∧ (s.portS 3).rxP = some { bytes := frame64, pkt := some 1 } ∧ s.rxLive 1 = true) ∧
    ((atV 0 c0).nextPkt ∉ (atV 0 c0).hop.nocell) ∧ ((atNoDom.setPortS 3 { link := true }).passing 3 = true) := by decide +kernel

/-- Frames that cannot be written to pages: bad ones, another owner's, and one for which there is no page. -/
theorem wit_CopiesReachTheirQueues_spills :
    (let s := { atSwitch [] { fifo := [dD], depth := 68 } with pkts := [(1, { pk with bad := true })] };
      (s.queue q3).fifo.find? (fun d => d.toDram && decide (d.pages = [])) = some dD ∧ s.blockOff 2 (s.queuePort q3 / 32) = false ∧
      (s.pkt 1).bad = true) ∧
    (let s := (atSwitch [] { fifo := [dD], depth := 68 }).setCell 5 { ref := 1, head := true, owner := 3, ownp := 2 };
      s.allReadsOk dD = false ∧ (s.pkt 1).ended = true ∧ (s.pkt 1).want = 0) ∧
    (let s := atSwitch [] { fifo := [dD], depth := 68 };
      let u : State := { s with hop := { s.hop with pageRing := [] } };
      u.allReadsOk dD = true ∧ (u.spillPieces q3 3 dD.part 12 (stored dD.frame) []).2.1 = false) ∧
    (dG.mirror = false ∧ dG.group = some 0x3FFF ∧ { dM with queue := 0 }.group = none) := by decide +kernel

def txp : Tx := { tx0 with express := false, until_ := 2000000000 }

theorem wit_PortsSendTheirFrames_others :
    ({ atPort { link := true } with top := { up.top with mode := .halt } }.tailRuns 3 = false) ∧
    (let s := { atPort { link := true, pre := 2, tx := some txp } with hop := { pauseTx := [(3, 2, 255)] } };
      let z := settled s;
      s.tailRuns 3 = true ∧ (z.portS 3).tx = some txp ∧ (z.portS 3).preempts = true ∧ txp.express = false ∧ z.passing 3 = true ∧ z.pausesDue 3 = [(2, 255)]) ∧
    (let z := settled (atPort { link := true, tx := some txp });
      (z.portS 3).tx = some txp ∧ (z.portS 3).preempts = false) ∧
    (let z := settled { atPort { link := true } with hop := { pauseTx := [(3, 2, 255)] } };
      (z.portS 3).tx = none ∧ (z.portS 3).busy ≤ z.clk.gtc ∧ z.passing 3 = true ∧ z.pausesDue 3 ≠ []) ∧
    ((settled (atPort { link := true, sel := some q3 })).selGoes 3 q3 = true ∧
      (settled (atPort { link := true, sel := some q3, rxPause := [(0, 2000000000)] })).selGoes 3 q3 = false) ∧
    (let s := atPort { link := true, tx := some { tx0 with crcBad := true, sent := 60, d := { d0 with twoStep := some 5 } } };
      s.tailRuns 3 = true ∧ s.whole { d0 with twoStep := some 5 } = true) := by decide +kernel

theorem wit_GatesAndPausesFollowTheirTimes_others : (let s := atPort { link := true, op := gl };
      let x := s.portS 3;
      x.op.en = true ∧ x.started = false ∧ x.runAt + 0 * x.op.cycle + x.op.offset 0 ≤ s.ptpNs) ∧
    (∀ l ∈ [gl, {}], l.en = true ∨ l.en = false) := by decide +kernel

theorem wit_LinksAndModulesChange_others : (atPort { link := true }).portOn 3 = true ∧
    (up.modS 63).since + 200000000 < up.clk.gtc ∧ ((up.setModS 63 { run := true, since := 1000000000 }).modS 63).run = true ∧
    ((up.setModS 63 { int := true }).modS 63).int = true := by decide +kernel

theorem wit_TimedTableWork_others :
    (let s := atGtc (second - 1) ((at_ 0 c0).setSlice 31 { (at_ 0 c0).slice 31 with pass := 1, next := 4194303 });
      s.blkOn 1 3 = false ∧ (s.slice 31).next + 1 = 4194304 ∧ (s.slice 31).next * second ≤ (s.sliceGtc 31 - ((s.slice 31).pass - 1)) * 4194304) ∧
    mget zeroN up.refreshed 0xFFFFF ≤ up.islGtc 88 / second ∧ 5 ≤ ({ type := 5 } : JEntry).type ∧
    (let s : State := { up with mst := { up.mst with jnl := { up.mst.jnl with tail := [{ type := 1 }] } } };
      s.mst.jnl.tail = [{ type := 1 }] ∧ s.mst.jnl.ring.length < 2097152) ∧
    (lowestLearn [{ lq with ekey := 65 * 4096 }, lq] = some lq) := by decide +kernel

/-! ### Hypotheses that are met: other cases of the host commands -/

/-- ABORT of each kind at the last number it may name (R480). -/
def abortOps : List (List (Nat × Nat)) :=
  [[(0, 1), (1, 3), (4, 9)], [(0, 2), (1, 63)], [(0, 3), (1, 63)], [(0, 4), (1, 16)], [(0, 5), (2, 12)], [(0, 6), (1, 15), (2, 2 ^ 11 - 1 - 15 * 16 - 4)]]

theorem wit_GeneralCommandsStartAndComplete_others :
    (∀ o ∈ abortOps, Begins (cmd o) .ahead up0 ∧ ((cmd o).op 0 1 = 1 ∨ (cmd o).op 4 4 = 0) ∧ (5 ≤ (cmd o).op 0 1 ∨ (cmd o).op 2 2 = 0)) ∧
    ((started (cmd [(0, 4), (1, 16)]) up0).walk 0 16 = none ∧ modeC up0.top.mode 0 = true) ∧
    (let o := [(0, 6), (1, 15), (2, 11 + 16 * 16 + 512)];
      (cmd o).op 2 2 % 16 ≤ 11 ∧ bitsOf ((cmd o).op 2 2) 4 5 ≤ 16 ∧ (cmd o).op 2 2 < 2 ^ 11) ∧
    (Begins (cmd opCommit) .foreground (up0.setRegN (aTskDlyCfg 0) 0xFFFFFFFF) ∧
      ((started (cmd opCommit) (up0.setRegN (aTskDlyCfg 0) 0xFFFFFFFF)).commitGo 3145856 0).1 ≠ stOk) ∧
    (({ cr with epoch := 9 } : CmdRef).epoch ≠ up0.epoch 0) := by
  simp only [← begins_iff]; decide +kernel

/-- A prefix held, a prefix not owned, and a quota that is used up. -/
def atLpm (l : List Prefix) (q : Word32) : State := { up0 with cls := { up0.cls with lpm := l }, committed := (aClsLpmQuota 0, q) :: up0.committed }
def pfx : Prefix := { v6 := false, table := 4095, len := 32, addr := 0x0A000001, data := 0, part := 0 }

theorem wit_TableCommandsComplete_prefixes :
    (Begins (cmd opLpm) .foreground (atLpm [pfx] 0) ∧
      (started (cmd opLpm) (atLpm [pfx] 0)).cls.lpm.any (fun x => x.v6 = false && x.table = 4095 && x.len = 32 && x.addr = 0x0A000001) = true) ∧
    (Begins (cmd opLpm) .foreground (atLpm [] 0) ∧ (started (cmd opLpm) (atLpm [] 0)).cls.lpm = [] ∧
      ¬ (started (cmd opLpm) (atLpm [] 0)).lpmHeld 0 false < 64 * (started (cmd opLpm) (atLpm [] 0)).cfld (aClsLpmQuota 0) 16 16) ∧
    (Begins (cmd ((0, 1) :: opLpm)) .foreground up0 ∧ (cmd ((0, 1) :: opLpm)).op 0 1 = 1) ∧
    (let s : State := { up0 with committed := (aClsPartRange 0 + 12, 5 * 65536) :: up0.committed };
      Begins (cmd opLpm) .foreground s ∧ (started (cmd opLpm) s).ownsLpm 0 4095 = false) ∧
    (Begins (cmd [(1, 1), (2, 128)]) .foreground up0 ∧ (cmd [(1, 1), (2, 128)]).op 2 1 = 128) ∧
    (Begins (cmd [(0, 16)]) .foreground upW ∧ ((started (cmd [(0, 16)]) upW).walk 0 16).isSome = true) ∧
    ((upEm.setEm 15 131073 { valid := true, key := 5, type := 1, port := 511 }).em.length = 2) := by
  simp only [← begins_iff]; decide +kernel

theorem wit_FlowCommandsReachTheirSlice_denied :
    (let s : State := { up0 with committed := (aClsDomOwner, 0xFFFFFFFF) :: up0.committed };
      Begins (cmd [(0, 2), (1, 15), (8, 0x1000)]) .foreground s ∧
      (started (cmd [(0, 2), (1, 15), (8, 0x1000)]) s).domOwner ((cmd [(0, 2), (1, 15), (8, 0x1000)]).op 1 1) ≠ 0) := by
  simp only [← begins_iff]; decide +kernel

theorem wit_VersionsAreCommittedAndActivated_others :
    ((atVc (vc false 1000007999)).commitOf 0 0 1 = some (vc false 1000007999) ∧ 1000007999 < (atVc (vc false 1000007999)).clk.gtc + 8000) ∧
    (let s : State := { atVc (vc false 0) with regs := up0.regs }; s.commitOf 0 0 1 = some (vc false 0) ∧ s.versionOk 0 1 = false) ∧
    (let s : State := { atVc (vc true 5) with cls := { vers := [(1, { state := 1 })], commits := [vc true 5] } };
      s.oldSlot 0 = none ∧ s.commitOf 0 0 1 = some (vc true 5)) := by decide +kernel

/-- DUMP_CFG of stream 0 in host memory with one page, of queues 0 to 31, at the shortest period. -/
def opDump : List (Nat × Nat) := [(1, 3), (4, 1000), (8, 0x10000), (16, 2 * bufBytes 1), (20, 1), (24, 0x8000)]

theorem wit_SnapshotsAndDumpsRun_others :
    (let s := atStream 0 { en := true, cfg := dcfg };
      let o := [(8, 1000008000), (24, bufBytes 1)];
      Begins (cmd o) .background s ∧ (cmd o).op 0 1 = 0 ∧ (s.stream 0 0).en = true ∧ bufBytes (s.stream 0 0).cfg.pages.length ≤ (cmd o).op 24 4 ∧
      s.clk.gtc + 8000 ≤ (cmd o).op 8 8 ∧ (cmd o).op 8 8 ≤ s.clk.gtc + 10 * second) ∧
    (let s : State := { up0 with clk := { up0.clk with frozen := true } };
      Begins (cmd [(0, 2)]) .background s ∧ (cmd [(0, 2)]).op 0 1 = 2 ∧ s.coll.snap = none) ∧
    (let s : State := { up0 with coll := { up0.coll with snap := some { snap 0 with ref := { cr with epoch := 9 } } } };
      (s.snapDue 0).isSome = true ∧ ({ cr with epoch := 9 } : CmdRef).epoch ≠ s.epoch 0) ∧
    (let s : State := { up0 with mems := { up0.mems with host := setBytes [] (hostKey 0 0x8000) (leBytes 4 (2 ^ 31)) } };
      let h := cmd opDump;
      let t := started h s;
      let pages := (upTo 1).map fun i => t.hostLe 0 (h.op 24 8 + 4 * i) 4;
      Begins h .foreground s ∧ bitOf (h.op 1 1) 0 = true ∧ h.op 1 1 < 8 ∧ h.op 4 4 = 1000 ∧ h.op 20 2 = 1 ∧ h.op 8 8 % 4096 = 0 ∧
      2 * bufBytes 1 ≤ h.op 16 4 ∧ bitOf (h.op 1 1) 1 = true ∧
      (pages.all (fun id => pageValid id && t.pageReadable 0 id) && ascending pages) = true) := by
  simp only [← begins_iff]; decide +kernel

theorem wit_EventsAreRecordedFrozenAndRead_others :
    (let s := atEvr { up0.evr with freeze := [(1, 5)], frozenSince := 990000000 };
      Begins (cmd []) .foreground s ∧ s.clk.gtc < s.evr.frozenSince - 1 + 5 * second ∧ (started (cmd []) s).freezeOf 0 = 0) ∧
    (let s := atGtc (10 * second) (atEvr { up0.evr with freeze := [(0, 5)], frozenSince := 5 });
      s.evr.frozenSince - 1 + 5 * second ≤ s.clk.gtc ∧ s.holders = [0] ∧ Begins (cmd []) .foreground s) ∧
    (let o := [(0, 1), (8, 3), (16, 4096), (24, 0x8000)];
      Begins (cmd o) .foreground up0 ∧ (cmd o).op 0 1 = 1 ∧ (cmd o).op 18 6 = 0 ∧ (cmd o).op 1 7 = 0) := by
  simp only [← begins_iff]; decide +kernel

/-- `atMnt 7`, started by Windshaft, with cluster 0's test due. -/
def atSwap : State :=
  let s := (up0.setFld (aUcsStest 0) 29 3 2)
  { s with saf := { s.saf with swapDue := [(0, 3)] } }

theorem wit_MaintenanceStartsAndEnds_others :
    (let o := [(0, 6), (8, 3 * 256)]; Begins (cmd o) .foreground up0 ∧ mntArgOk 6 ((cmd o).op 8 8) = true ∧
      ((started (cmd o) up0).spareOf ((cmd o).op 8 8 % 256)).isSome = true ∧
      (started (cmd o) up0).engActive ((cmd o).op 8 8 % 256) ((cmd o).op 8 8 / 256) = true) ∧
    (Begins (cmd [(0, 1)]) .foreground (atMnt 1 0) ∧ ((started (cmd [(0, 1)]) (atMnt 1 0)).mntConflict 1).isSome = true) ∧
    (modeA atSwap.top.mode = true ∧ atSwap.mntOn 6 = false ∧ atSwap.autoDue 6 = true ∧ atSwap.autoArg 6 = 3 * 256 ∧ atSwap.mntConflict 6 = none) ∧
    ((atMnt 4 0).autoDue 3 = true ∧ (atMnt 3 0).mntConflict 3 ≠ none) ∧
    ((atMnt 8 0).mntOn 8 = true ∧ (atMnt 3 0).mntOn 3 = true) ∧
    (up0.stestDue 191 = true ∧ up0.mntOn 7 = false ∧ up0.mntConflict 7 = none ∧ (atMnt 7 byWindshaft).stestDue 191 = true ∧
      (atMnt 10 0).stestDue 191 = true ∧ (atMnt 10 0).mntConflict 7 ≠ none) := by
  simp only [← begins_iff]; decide +kernel

theorem wit_PatchesAreStagedAndActivated_others :
    (let a := { act [(0, (1, false))] with failing := some 3, done := [(1, 5, {})] };
      let s : State := { up0 with ucs := { up0.ucs with act := some a } };
      s.actRuns = some a ∧ a.draining 0 = some 1 ∧ s.cluEmpty 1 = true ∧ a.failing ≠ none) ∧
    (let a := { act [(0, (1, true))] with failing := some 3 };
      let s : State := { up0 with ucs := { up0.ucs with act := some a } };
      s.actRuns = some a ∧ a.phase 0 = (1, true)) ∧ (atAct [(0, (1, true))]).actRuns = some (act [(0, (1, true))]) := by decide +kernel

theorem wit_BuffersModesAndRestartsAreCommanded_others :
    (let s : State := { up0 with hop := { up0.hop with ring := [], caches := [] } };
      Begins (cmd opCells) .foreground s ∧ ((started (cmd opCells) s).grantAll 4096 0 true 2 false).isRight = true) ∧
    (let s : State := { up0 with hop := { up0.hop with pageRing := [] } };
      Begins (cmd opPages) .foreground s ∧ (started (cmd opPages) s).pagesAll 4096 0 64 = none) ∧
    (let s : State := { atBufs with hop := { atBufs.hop with cells := [] } };
      Begins (cmd opFree) .foreground s ∧ (started (cmd opFree) s).holdsBuf 0 6 = false ∧ handleOk 6 = true) ∧
    (∀ e ∈ [(5, Mode.service), (8, .safe), (4, .ready)], Begins (cmd [(0, e.1)]) .foreground up0 ∧
      (started (cmd [(0, e.1)]) up0).modeTarget ((cmd [(0, e.1)]).op 0 1) = some e.2) ∧ up0.top.mode = .service := by
  simp only [← begins_iff]; decide +kernel

theorem wit_PowerAndPinsResetTheBlock_others : (atTop { up0.top with vinUp := false, vinLow := false }).top.vinLow = false ∧
    up0.top.rstHeld = false ∧ (10000 : Nat) ≤ 99999999 ∧ ((2000 : Nat) ≤ 9999) ∧ (1999 : Nat) < 2000 := by decide +kernel

theorem wit_ClockFailuresAndSynchronisation_others : (atTop { up0.top with resFail1 := true }).top.resFail0 = false ∧
    (atGtc 4096 up0).clk.gtc % 4096 = 0 ∧ (atGtc 4096 up0).clk.run = true := by decide +kernel

/-! ### Hypotheses that are met: other cases of rings, registers, time and the debug port -/

/-- A descriptor of an injected frame, one of host buffer 6, and one whose queue another partition owns. -/
def txInj : List Byte := leBytes 8 0x4000 ++ leBytes 2 64 ++ [4] ++ exactly 5 [] ++ leBytes 4 3
def txBuf : List Byte := leBytes 8 0x4000 ++ leBytes 2 64 ++ [1, 1] ++ exactly 4 [] ++ leBytes 4 q3
def atBufRing : State :=
  let s := atRing txBuf
  { s with
    hop := { s.hop with cells := [(6, { ref := 1, host := true, ownp := 0 })] }
    mems := { s.mems with host := setBytes s.mems.host (hostKey 0 0x4000) (leBytes 4 6) } }

theorem wit_RingsAreServedInOrder_others :
    ((atRing txShort).txHeld 0 63 = false ∧ (atRing txGood).txHeld 0 63 = false) ∧
    ((atRing txInj).txRefused 0 (nextTx (atRing txInj) 0 63) = none ∧ (nextTx (atRing txInj) 0 63).inject = true) ∧
    (atBufRing.doorOk 0 = true ∧ atBufRing.txRefused 0 (nextTx atBufRing 0 63) = none ∧ (nextTx atBufRing 0 63).hb = true ∧
      (nextTx atBufRing 0 63).inject = false ∧ atBufRing.txHeld 0 63 = false) ∧
    (let x : TxSlot := { pos := 3, status := none, irq := true };
      let s := (atRing txShort).setTxs 63 [x];
      let t : State := { s with host := { s.host with txDone := [(63, 3)] } };
      t.txs 63 = [x] ∧ (t.host.txDone.contains (63, 3) && !t.liveDescs.any (fun d => decide (d.hostTx = some (63, 3)))) = true) ∧
    (((atRing txShort).setTxs 63 [{ pos := 3, status := some stReject, irq := false }]).txs 63 = [{ pos := 3, status := some stReject, irq := false }]) := by
  decide +kernel

/-- Frames for a host that are bad, find no descriptor, a descriptor that is no buffer, or one that is too small. -/
theorem wit_RingsAreServedInOrder_rxs :
    ({ atRxq with pkts := [(1, { pk with bad := true })] }.pkt 1).bad = true ∧
    (let s := atRxq.setRegN (aHstRxq 0 63 + 12) 0; s.dmaTail (aHstRxq 0 63) = s.dmaHead (aHstRxq 0 63)) ∧
    (let s : State := { atRxq with mems := { atRxq.mems with host := setBytes [] (hostKey 0 0x3000) (leBytes 8 0x8001 ++ leBytes 2 64) } };
      s.hostLe 0 (s.dmaAddr (aHstRxq 0 63) (s.dmaHead (aHstRxq 0 63))) 8 % 64 ≠ 0) ∧
    (let y := { rxItem with frame := exactly 65 [] };
      let s : State := { atRxq with rx := [y] };
      (s.rx.find? (fun z => z.part = 0 && z.ring = 63)) = some y ∧ (s.pkt y.pkt).want = 0 ∧
      s.hostLe 0 (s.dmaAddr (aHstRxq 0 63) (s.dmaHead (aHstRxq 0 63)) + 8) 2 < y.frame.length) := by decide +kernel

theorem wit_StagedSettingsAreCommitted_others : bitOf 0x40000000 31 = false ∧ bitOf 0x40000000 30 = true ∧
    commitWriter (aPortCommit 0) = some 0 ∧ blockOf (aPortCommit 0) = 0x00B := by decide +kernel

theorem wit_RulesAndTableEntriesAreWritten_others :
    ((tcode atTcam 3).tcamOp 0 3 5).1 = 4 ∧
    (∀ k ∈ [1, 2, 3], ((((tcode atTcam 0).tcamOp 0 0 5).2.setRegN (aClsTcamStgOp 0) k).tcamOp 0 k 5).1 = stOk) ∧
    (tabSize 0 < 2 ^ 20 ∧ up0.ownsEntry 3 0 q3 = false) ∧
    (atTacc.formatOk 0 q3 (fun _ => 0xFFFFFFFF) = false ∧
      (let d := fun w => if w = 1 then 2 else tdata w; atTacc.formatOk 0 q3 d = true)) := by decide +kernel

/-- A window of BAR2 on partition 0's private area, and the one of reset, on the flow records. -/
def upWin : State := up0.setRegN (aHstBar2Win 0) 800

theorem wit_WritesFollowTheAccessType_apertures : up0.mayAct (.host 0) = true ∧
    (upWin.bar2Addr 0 (bar2 + 8) = some 0xC80000008 ∧ upWin.bar2Ok 0 true 0xC80000008 = true) ∧
    (up0.bar2Addr 0 bar2 = some 0 ∧ up0.bar2Ok 0 true 0 = false) ∧ (doorOffset (bar4 + 4092) = some 4092 ∧ doorOffset bar4 = some 0) := by
  decide +kernel

theorem wit_WritesFollowTheAccessType_others :
    (let s : State := { up1 with top := { up1.top with fw := some { op := 1, slot := 1 } } };
      s.mayAct .eosta = true ∧ s.globalAddr .eosta aTopFwAddr = some aTopFwAddr ∧
      ((busReg aTopFwAddr).any fun e => decide (e.1.base = aTopFwAddr) && !s.protects e.1 e.2.1 && (e.1.words[e.2.2]?).isSome) = true) ∧
    ((busReg aRstQuiesceTmo).any fun e => up1.mayWrite .eosta e.1 e.2.1 && !up1.valueOk e.1 e.2.2 9 && up1.valueOk e.1 e.2.2 10 &&
      !up1.protects e.1 e.2.1) = true ∧
    ((busReg (aClsVd 0 0 + 4)).any fun e => up1.mayWrite .eosta e.1 e.2.1 && up1.protects e.1 e.2.1) = true ∧
    (let s : State := { up0 with committed := (aHstProgRange 0, 127 * 65536) :: up0.committed };
      inRange (progRange s.committed 0) 0 = true ∧ (progPlace 0x02000000).map (fun e => e.2.2 / 4096) = some 0 ∧
      inRange (progRange { s with committed := [(aHstProgRange 0, 1)] }.committed 0) 0 = false) := by decide +kernel

theorem wit_WritesActAtOnce_others :
    ((up0.setRegN aCntWin 5).regN aCntWin + 0 * 2 ^ 32 ≤ up0.clk.gtc) ∧
    (up0.mayWrite (.host 0) rowPortLanemap [3] = true ∧ up0.portEn 3 = true ∧ up0.regN (aPortLanemap 3) ≠ 5 % 2 ^ 24) ∧
    (let s := up0.setRegN (aMstLbSvc 0) 0x80000000;
      bitOf (s.regN (aMstLbSvc 0)) 31 = true ∧ bitsOf (s.regN (aMstLbSvc 0)) 0 1 = bitsOf (s.regN (aMstLbWaddr 0)) 24 1 ∧
      bitsOf (s.regN (aMstLbWaddr 0)) 14 10 = 0) ∧
    (let s : State := { up0 with committed := (aMstLbRange 0, 1) :: up0.committed }; inRange (lbRange s.committed 0) 0 = false) ∧
    inRange (lbRange up0.committed 0) 1023 = true := by decide +kernel

theorem wit_ReadsReturnAndLatch_apertures : up0.reaches (.host 0) = true ∧ (up0.bar2Addr 0 bar2 = some 0 ∧ up0.bar2Ok 0 false 0 = true) ∧
    (upWin.bar2Addr 0 (bar2 + 2 ^ 30 - 4) = some (0xC80000000 + 2 ^ 30 - 4) ∧ upWin.bar2Ok 0 false (0xC80000000 + 2 ^ 30 - 4) = true) ∧
    (let s := up0.setRegN (aHstBar2Win 0) 799; s.bar2Addr 0 bar2 = some (799 * 2 ^ 26) ∧ s.bar2Ok 0 false (799 * 2 ^ 26) = false) ∧
    (doorOffset bar4).isSome = true ∧ ¬ (upWin.top.mode = .service ∧ 0xC80000000 < 0x400000000) := by decide +kernel

theorem wit_NetworkTimeIsSetAndShown_others :
    (let s := atGtc 999999999 (atPend (.rate 5));
      let t : State := { up0 with ptp := { up0.ptp with pend := [(1000000001, .step 5)] } };
      { s.ptp with pend := [(999999998, .rate 5)] }.pend.any (fun e => clashes e.1 s.clk.gtc e.2 (.step 0)) = true ∧ t.ptp.pend.any (fun e => clashes e.1 t.clk.gtc e.2 (.rate 0)) = true) ∧
    (let s : State := { up0 with ptp := { up0.ptp with ppsGtc := 1 } }; (atGtc 2000000000 s).ptp.ppsGtc - 1 + 2000000000 ≤ 2000000000) ∧
    (let s : State := { atPps with ptp := { atPps.ptp with ppsSec := 7, ppsOutGtc := 600000000 } };
      s.ptp.ppsSec ≠ 0 ∧ s.ptp.ppsOutGtc + 400000000 ≤ s.clk.gtc ∧ s.ppsTime % secUnit * 2 < 5 * nsUnit) := by decide +kernel

theorem wit_SessionsAreUnlockedAndLocked_others : (let s : State := { rdy 1 with dbg := { (rdy 1).dbg with user := some [] } }; s.dbg.user ≠ none) ∧
    (let s : State := { rdy 0 with dbg := { lockEnd := some 5 } }; s.dbg.lockEnd = some 5 ∧ s.evr.optime < 5) := by decide +kernel

theorem wit_DebugAccessesAndThreads_others :
    (let s := (rdy 2).setThr 4 { svc := some { tok with ver := 9 }, halted := some .request };
      let t := s.setRegN aDbgThrSel 4;
      t.selThread = some 4 ∧ (t.thr 4).halted.isSome = true ∧ t.stale 4 = true) ∧
    (((rdy 2).setThr 0 { (rdy 2).thr 0 with halted := some .request }).stale 0 = false) ∧
    ((rdy 1).dbg.level < 2 ∧ ((rdy 2).thr 0).halted = none ∧ (rdy 2).dbg.level = 2) := by decide +kernel

end Sys2Proof.Tests
end

/-! PROOF. The scope of registers: counters, writes by access type, and reads that latch or clear (R10, R12). -/

namespace Sys2Proof.Proofs

open Sys2Proof Sys2Proof.Machine Sys2Proof.Laws

/-! ### Counters (R524, R537) -/

/-- A programmable counter adds to no counter but itself. -/
theorem count_progAdd_ne {a u i : Nat} (s : State) (n : Nat) (ha : a ≠ aCntVal u i) :
    (s.progAdd u i n).count a = s.count a := by
  have hset (x : Nat) : mget zeroN (mset zeroN s.cnt (aCntVal u i) x) a = s.count a := mget_mset_ne _ _ _ ha
  unfold State.progAdd
  dsimp only
  split
  · rfl
  · split <;> exact hset _

/-- The enabled programmable counters of a unit are among its 16. -/
theorem selected_index_lt {s : State} {u : Nat} {e : Nat × Nat} (he : e ∈ s.selected u) : e.1 < 16 := by
  obtain ⟨x, hx, rfl⟩ := List.mem_map.1 he
  have hr := of_decide_eq_true (List.mem_filter.1 hx).2
  simp only [aCntSel] at hr ⊢
  omega

/-- An event adds to programmable counters of its unit only. -/
theorem count_occur_ne {a u : Nat} (s : State) (ev n : Nat) (ha : ∀ i < 16, a ≠ aCntVal u i) :
    (s.occur u ev n).count a = s.count a := by
  unfold State.occur
  refine List.foldlRecOn (motive := fun t : State => t.count a = s.count a) _ _ rfl fun t ht e he => ?_
  split
  · exact (count_progAdd_ne t n (ha _ (selected_index_lt he))).trans ht
  · exact ht

theorem bump_of_frozen {s : State} (a n : Nat) (h : s.clk.frozen = true) : s.bump a n = s := by
  unfold State.bump
  rw [if_pos h]

/-- A counter that no event adds to besides grows by what is counted, up to 2^48 - 1. -/
theorem count_bump_self {s : State} {a : Nat} (n : Nat) (h : s.clk.frozen = false)
    (ha : ∀ u i, u < 107 → i < 16 → a ≠ aCntVal u i) : (s.bump a n).count a = min (2 ^ 48 - 1) (s.count a + n) := by
  have hset (x : Nat) : ({ s with cnt := mset zeroN s.cnt a x } : State).count a = x := mget_mset_self _ _ _ _
  unfold State.bump
  rw [if_neg (by simp [h])]
  dsimp only
  split
  · rename_i u ev he
    rw [count_occur_ne _ _ _ (ha u · (eventOf_unit he))]
    exact hset _
  · exact hset _

/-- Settles O36: the counter's own write saturates, and the events counted with it move programmable counters only. -/
theorem countersFreezeAndSaturate : Obligations.CountersFreezeAndSaturate :=
  fun a n s ha => ⟨bump_of_frozen a n, fun h => count_bump_self n h ha, bump_only s a n⟩

/-! ### Bits and bytes -/

theorem bitOf_eq_testBit (v k : Nat) : bitOf v k = v.testBit k := by
  rw [Nat.testBit_eq_decide_div_mod_eq]
  rfl

theorem regN_lt (s : State) (a : Nat) : s.regN a < 2 ^ 32 := (s.reg a).isLt

@[simp] theorem length_leBytes (n v : Nat) : (leBytes n v).length = n := by
  induction n generalizing v with
  | zero => rfl
  | succ n ih => simp [leBytes, ih]

theorem leNat_leBytes (n v : Nat) : leNat (leBytes n v) = v % 256 ^ n := by
  induction n generalizing v with
  | zero => simp [leBytes, leNat, Nat.mod_one]
  | succ n ih => rw [leBytes, leNat, ih, Nat.pow_succ', Nat.mod_mul, BitVec.toNat_ofNat]

/-- Only the bytes from `a` on that are read count. -/
theorem getBytes_congr {m m' : Mem} {n : Nat} : ∀ {a : Nat}, (∀ k, a ≤ k → k < a + n → getByte m k = getByte m' k) →
    getBytes m a n = getBytes m' a n := by
  induction n with
  | zero => intro a _; rfl
  | succ n ih =>
    intro a h
    rw [getBytes, getBytes, h a le_rfl (by omega), ih fun k hk hlt => h k (by omega) (by omega)]

/-- A word read back where it was stored. -/
theorem memLe_setBytes_word (m : Mem) (a : Nat) (v : Word32) : memLe (setBytes m a (leBytes 4 v.toNat)) a 4 = v.toNat := by
  have h := getBytes_setBytes (leBytes 4 v.toNat) m a
  rw [length_leBytes] at h
  rw [memLe, h, leNat_leBytes]
  exact Nat.mod_eq_of_lt v.isLt

theorem getByte_setBytes_word_ne {m : Mem} {a k : Nat} (v : Nat) (h : k < a ∨ a + 4 ≤ k) :
    getByte (setBytes m a (leBytes 4 v)) k = getByte m k := by
  rw [getByte_setBytes, length_leBytes, if_neg (by omega)]

/-! ### What an access reaches (R453, R454) -/

theorem beyond_of_bar2 {s : State} {q : Part} {x a : Nat} (h : s.bar2Addr q.val x = some a) :
    s.beyond (.host q) x = some (.dram q.val a) := by
  simp [State.beyond, h]

/-- BAR4 lies above BAR2. -/
theorem beyond_of_door {s : State} {q : Part} {x off : Nat} (h : doorOffset x = some off) :
    s.beyond (.host q) x = some (.door q.val off) := by
  have hx : s.bar2Addr q.val x = none := by
    unfold doorOffset at h
    unfold State.bar2Addr
    split at h
    · rw [if_neg (by unfold bar4 at *; unfold bar2; omega)]
    · cases h
  simp [State.beyond, hx, h]

/-- BAR0 lies below BAR2. -/
theorem beyond_of_global {s : State} {m : Master} {x a : Nat} (h : s.globalAddr m x = some a) : s.beyond m x = none := by
  cases m with
  | eosta => rfl
  | host q =>
    have hx : x < bar2 := by
      unfold bar2
      simp only [State.globalAddr] at h
      split at h
      · omega
      · split at h
        · omega
        · cases h
    have h2 : s.bar2Addr q.val x = none := if_neg (by omega)
    have h4 : doorOffset x = none := if_neg (by unfold bar2 at hx; unfold bar4; omega)
    simp [State.beyond, h2, h4]

section
variable {s : State} {m : Master} {q : Part} {x a v : Nat}

theorem writeAt_dram (h : s.mayAct (.host q) = true) (ha : s.bar2Addr q.val x = some a) :
    s.writeAt (.host q) x v = .next (s.bar2Write q.val a v) := by
  simp [State.writeAt, State.atBus, h, beyond_of_bar2 ha]

theorem writeAt_door (h : s.mayAct (.host q) = true) (ha : doorOffset x = some a) :
    s.writeAt (.host q) x v = .next (s.bar4Write q.val a v) := by
  simp [State.writeAt, State.atBus, h, beyond_of_door ha]

theorem writeAt_bus (h : s.mayAct m = true) (ha : s.globalAddr m x = some a) :
    s.writeAt m x v = .next (s.busWrite m a v).2 := by
  simp [State.writeAt, State.atBus, h, beyond_of_global ha, ha]

theorem readAt_dram (h : s.reaches (.host q) = true) (ha : s.bar2Addr q.val x = some a) :
    s.readAt (.host q) x = .next ((s.bar2Read q.val a).2.returned (.host q) (s.bar2Read q.val a).1) := by
  simp [State.readAt, h, beyond_of_bar2 ha]

theorem readAt_door (h : s.reaches (.host q) = true) (ha : doorOffset x = some a) :
    s.readAt (.host q) x = .next (s.returned (.host q) 0) := by
  simp [State.readAt, h, beyond_of_door ha]

theorem readAt_bus (h : s.reaches m = true) (ha : s.globalAddr m x = some a) :
    s.readAt m x = .next ((s.busRead m a).2.2.returned m (s.busRead m a).2.1) := by
  simp [State.readAt, h, beyond_of_global ha, ha]

end

/-! ### The register table (R652) -/

/-- A register that is found is a row of the table. -/
theorem findReg_mem {a w : Nat} {r : RegRow} {is : List Nat} (h : findReg a = some (r, is, w)) : r ∈ allRows := by
  obtain ⟨t, ht, hl⟩ := List.exists_of_findSome?_eq_some h
  split at hl
  · simp only [Option.some.injEq, Prod.mk.injEq] at hl
    exact hl.1 ▸ ht
  · cases hl

theorem findReg_of_busReg {a w : Nat} {r : RegRow} {is : List Nat} (h : busReg a = some (r, is, w)) :
    findReg a = some (r, is, w) := by
  unfold busReg at h
  split at h
  · split at h
    · cases h
    · rename_i hf _
      rw [hf, h]
  · cases h

/-- The bits that a write sets lie in the word. -/
theorem masks_lt : ∀ r ∈ allRows, ∀ x ∈ r.words, x.rw ||| x.rws < 2 ^ 32 := by
  decide +kernel

theorem masks_lt_of_busReg {a w : Nat} {r : RegRow} {is : List Nat} {x : RegWord} (h : busReg a = some (r, is, w))
    (hx : r.words[w]? = some x) : x.rw ||| x.rws < 2 ^ 32 :=
  masks_lt r (findReg_mem (findReg_of_busReg h)) x (List.mem_of_getElem? hx)

/-! ### Writes of registers -/

/-- A write changes the registers only. -/
theorem putWord_only (s : State) (x : RegWord) (a v : Nat) :
    s.putWord x a v = { s with regs := (s.putWord x a v).regs } := rfl

theorem reg_putWord_ne {s : State} {x : RegWord} {a b v : Nat} (h : b ≠ a) : (s.putWord x a v).reg b = s.reg b :=
  (reg_setReg _ _ _ _).trans (if_neg h)

/-- Bits of a word complemented in 32 bits. -/
theorem testBit_compl {n k : Nat} (hn : n < 2 ^ 32) (hk : k < 32) : (2 ^ 32 - 1 - n).testBit k = !n.testBit k := by
  rw [show 2 ^ 32 - 1 - n = 2 ^ 32 - (n + 1) by omega, Nat.testBit_two_pow_sub_succ hn]
  simp [hk]

/-- Each bit of a written word follows its access type (R12). -/
theorem bitOf_putWord {s : State} {x : RegWord} {a v k : Nat} (hx : x.rw ||| x.rws < 2 ^ 32) (hv : v < 2 ^ 32) (hk : k < 32) :
    bitOf ((s.putWord x a v).regN a) k =
      if bitOf x.w1c k && v.testBit k then false else if bitOf (x.rw ||| x.rws) k then v.testBit k
      else bitOf (s.regN a) k := by
  have hc : v &&& x.w1c < 2 ^ 32 := lt_of_le_of_lt Nat.and_le_left hv
  simp only [State.putWord, regN_setRegN, if_true, bitOf_eq_testBit, Nat.testBit_mod_two_pow, Nat.testBit_and,
    Nat.testBit_or, testBit_compl hx hk, testBit_compl hc hk, hk, decide_true, Bool.true_and]
  cases hw : v.testBit k && x.w1c.testBit k with
  | true => simp [Bool.and_comm (x.w1c.testBit k), hw]
  | false => cases hm : x.rw.testBit k || x.rws.testBit k <;> simp [Bool.and_comm (x.w1c.testBit k), hw]

/-- A register without an effect of its own takes a value that passes its check; one that a firmware operation holds, or
a value that does not pass, changes nothing. -/
theorem writeReg_plain {s : State} {m : Master} {r : RegRow} {x : RegWord} {is : List Nat} {w a v : Nat} (h : Plain r w a) :
    s.writeReg m r x is w a v =
      if s.top.fw ≠ none ∧ r.base ∈ [aTopFwAddr, aTopFwLen] ∨ s.valueOk r w v = false then s else s.putWord x a v := by
  obtain ⟨hc, hmod, hb⟩ := h
  have hm : ¬(r.base = aPortMod 0 ∧ w = 0) := fun h => hmod h.1 h.2
  simp only [List.mem_cons, List.not_mem_nil, or_false, not_or] at hb
  have hfw : (r.base = aTopFwAddr ∨ r.base = aTopFwLen) ∧ s.top.fw.isSome = true ↔
      s.top.fw ≠ none ∧ r.base ∈ [aTopFwAddr, aTopFwLen] := by
    rw [and_comm, Option.isSome_iff_ne_none]
    simp
  simp only [State.writeReg, hc, hb, hm, hfw, Option.isSome_none, Bool.false_eq_true, if_false]
  by_cases hf : s.top.fw ≠ none ∧ r.base ∈ [aTopFwAddr, aTopFwLen] <;> cases s.valueOk r w v <;> simp [hf]

/-! ### Writes on the bus (R12, R454, R455, R458) -/

section
variable {s : State} {m : Master} {a v w : Nat} {r : RegRow} {x : RegWord} {is : List Nat}

section
variable (ha : a % 4 = 0) (hp : progPlace a = none) (he : inEmView a = false) (hr : busReg a = some (r, is, w))
include ha hp he hr

theorem busWrite_refused (h : inDbg a = true ∨ s.mayWrite m r is = false) :
    (s.busWrite m a v).2 = s.denyMaster m 2 a := by
  simp [State.busWrite, ha, hp, he, hr, h]

theorem busWrite_protected (hd : inDbg a = false) (hm : s.mayWrite m r is = true) (h : s.protects r is = true) :
    (s.busWrite m a v).2 = s.bump (aClsWprotCnt (readerOf m % 4)) 1 := by
  simp [State.busWrite, ha, hp, he, hr, hd, hm, h]

theorem busWrite_word (hd : inDbg a = false) (hm : s.mayWrite m r is = true) (h : s.protects r is = false)
    (hx : r.words[w]? = some x) : (s.busWrite m a v).2 = s.writeReg m r x is w a v := by
  simp [State.busWrite, ha, hp, he, hr, hd, hm, h, hx]

end

theorem busWrite_prog {banks : List Nat} {bank off : Nat} (ha : a % 4 = 0) (hp : progPlace a = some (banks, bank, off)) :
    (s.busWrite m a v).2 = (s.progWrite m banks off v a).2 := by
  simp [State.busWrite, ha, hp]

end

/-! ### The program store (R455) -/

/-- An aligned word of the store lies inside its bank. -/
theorem progPlace_off_lt {a bank off : Nat} {banks : List Nat} (ha : a % 4 = 0)
    (h : progPlace a = some (banks, bank, off)) : off + 4 ≤ 0x80000 := by
  unfold progPlace at h
  split at h
  · simp only [Option.some.injEq, Prod.mk.injEq] at h
    omega
  · split at h
    · simp only [Option.some.injEq, Prod.mk.injEq] at h
      omega
    · cases h

/-- The program store with a word written at places `l`. -/
def putWords (m : Mem) (l : List Nat) (v : Nat) : Mem := l.foldl (fun q b => setBytes q b (leBytes 4 v)) m

theorem progWrite_accepted {s : State} {m : Master} {banks : List Nat} {off v a : Nat}
    (h : ∀ p, m = .host p → inRange (progRange s.committed p.val) (off / 4096) = true) :
    (s.progWrite m banks off v a).2 = { s with mems := { s.mems with
      prog := putWords s.mems.prog (banks.map fun r => bankBase r + off) v
      progBad := s.mems.progBad.filter fun b => !(banks.map fun r => bankBase r + off).contains b } } := by
  cases m with
  | eosta => rfl
  | host p => simp [State.progWrite, h p rfl, putWords]

theorem progWrite_refused {s : State} {p : Part} {banks : List Nat} {off v a : Nat}
    (h : inRange (progRange s.committed p.val) (off / 4096) = false) :
    (s.progWrite (.host p) banks off v a).2 = s.deny p.val 2 a := by
  simp [State.progWrite, h, State.denyMaster]

theorem getByte_putWords_ne {k v : Nat} {l : List Nat} : ∀ {m : Mem}, (∀ b ∈ l, k < b ∨ b + 4 ≤ k) →
    getByte (putWords m l v) k = getByte m k := by
  induction l with
  | nil => intro m _; rfl
  | cons b l ih =>
    intro m h
    rw [putWords, List.foldl_cons]
    exact (ih fun c hc => h c (List.mem_cons_of_mem _ hc)).trans (getByte_setBytes_word_ne v (h b List.mem_cons_self))

/-- Where places of the list are equal or apart, each of them holds the word. -/
theorem memLe_putWords {l : List Nat} {v : Word32} : ∀ {m : Mem} {a : Nat}, a ∈ l →
    (∀ b ∈ l, b = a ∨ b + 4 ≤ a ∨ a + 4 ≤ b) → memLe (putWords m l v.toNat) a 4 = v.toNat := by
  induction l with
  | nil => intro m a ha; cases ha
  | cons b l ih =>
    intro m a ha hl
    rw [putWords, List.foldl_cons]
    by_cases hal : a ∈ l
    · exact ih hal fun c hc => hl c (List.mem_cons_of_mem _ hc)
    · obtain rfl : a = b := (List.mem_cons.1 ha).resolve_right hal
      refine Eq.trans ?_ (memLe_setBytes_word m a v)
      refine congrArg leNat (getBytes_congr fun k hk hlt => getByte_putWords_ne fun c hc => ?_)
      have hne : c ≠ a := fun h => hal (h ▸ hc)
      have := hl c (List.mem_cons_of_mem _ hc)
      omega

/-! ### Refusals (R458, R492) -/

theorem irq_mems (s : State) (p src : Nat) : (s.irq p src).mems = s.mems := by
  unfold State.irq
  dsimp only
  split <;> rfl

theorem irq_committed (s : State) (p src : Nat) : (s.irq p src).committed = s.committed := by
  unfold State.irq
  dsimp only
  split <;> rfl

/-- Raising a source moves its pending word only. -/
theorem regN_irq_ne {s : State} {p src b : Nat} (h : b ≠ aHstIpend p (src / 32)) : (s.irq p src).regN b = s.regN b := by
  have h1 (v : Nat) : (s.setRegN (aHstIpend p (src / 32)) v).regN b = s.regN b := (regN_setRegN _ _ _ _).trans (if_neg h)
  unfold State.irq
  dsimp only
  split <;> exact h1 _

theorem bump_mems (s : State) (a n : Nat) : (s.bump a n).mems = s.mems := by rw [(bump_only s a n).1]

theorem bump_committed (s : State) (a n : Nat) : (s.bump a n).committed = s.committed := by rw [(bump_only s a n).1]

/-- The words of HST_DENY are no overflow words and no pending words. -/
theorem regN_deny_tail {s : State} {p w : Nat} (hw : w < 4) :
    ((s.bump (aHstPcnt p 6) 1).irq p 132).regN (aHstDeny p + 4 * w) = s.regN (aHstDeny p + 4 * w) := by
  have hovf : NotOvf (aHstDeny p + 4 * w) := fun u hu => by unfold aHstDeny aCntOvf; omega
  rw [regN_irq_ne (by unfold aHstDeny aHstIpend; omega), State.regN, (bump_only _ _ _).2 _ hovf]
  rfl

theorem deny_mems (s : State) (p kind a : Nat) : (s.deny p kind a).mems = s.mems :=
  (irq_mems _ _ _).trans (bump_mems _ _ _)

theorem deny_committed (s : State) (p kind a : Nat) : (s.deny p kind a).committed = s.committed :=
  (irq_committed _ _ _).trans (bump_committed _ _ _)

/-- HST_DENY holds the low word of the refused address. -/
theorem regN_deny_addr (s : State) (p kind a : Nat) : (s.deny p kind a).regN (aHstDeny p + 4) = a % 2 ^ 32 := by
  refine (regN_deny_tail (w := 1) (by omega)).trans ?_
  simp [regN_setRegN]

/-- HST_DENY holds the kind of the refusal. -/
theorem regN_deny_kind (s : State) (p kind a : Nat) : (s.deny p kind a).regN (aHstDeny p + 12) = kind % 2 ^ 32 := by
  refine (regN_deny_tail (w := 3) (by omega)).trans ?_
  simp [regN_setRegN]

/-! ### BAR2 and BAR4 (R456, R457) -/

theorem bar2Ok_byte {s : State} {p a i : Nat} {wr : Bool} (h : s.bar2Ok p wr a = true) (hi : i < 4) :
    s.bar2May p wr (a + i) = true :=
  List.all_eq_true.1 h i (List.mem_range.2 hi)

/-- A partition writes only the area of DRAM that is its own (R649). -/
theorem bar2May_write {s : State} {p a : Nat} (h : s.bar2May p true a = true) :
    0xC80000000 + p * 0x60000000 ≤ a ∧ a < 0xC80000000 + (p + 1) * 0x60000000 := by
  unfold State.bar2May at h
  split at h
  · simp at h
  · split at h
    · cases h
    · split at h
      · have := beq_iff_eq.1 h
        omega
      · split at h <;> simp at h

theorem apertureWrites (m : Master) (addr : Nat) (v : Word32) (s : State) (h : s.mayAct m = true) :
    ApertureWrites m addr v s := by
  rintro q a rfl
  refine ⟨fun ha hok => ?_, fun ha hok => ?_, fun off ho => writeAt_door h ho⟩
  · have hw : s.bar2Write q.val a v.toNat = s.dramWrite a (leBytes 4 v.toNat) := if_pos hok
    exact ⟨_, (writeAt_dram h ha).trans (congrArg _ hw), rfl, memLe_setBytes_word _ a v,
      fun k hk => getByte_setBytes_word_ne _ hk, fun i hi => bar2May_write (bar2Ok_byte hok hi)⟩
  · have hw : s.bar2Write q.val a v.toNat = s.deny q.val 3 a := if_neg (by simp [hok])
    exact (writeAt_dram h ha).trans (congrArg _ hw)

/-! ### The statement on writes -/

/-- Settles O49: the access type decides each bit, and the checks before it decide whether the word is reached. -/
theorem writesFollowTheAccessType : Obligations.WritesFollowTheAccessType := by
  intro m addr a w v r x is s hact
  refine ⟨apertureWrites m addr v s hact, fun hg ha => ?_⟩
  have hexec : exec (.registerWrite m addr v) s = .next (s.busWrite m a v.toNat).2 := writeAt_bus hact hg
  refine ⟨fun hp he hr => ⟨fun hd hm hpr hx hplain hfw hok => ?_, fun h => ?_, fun hd hm hpr hx hplain h => ?_,
    fun hd hm hpr => ?_⟩, fun banks bank off hp hin => ?_, fun banks bank off p hp hm hin => ?_, fun p => ?_⟩
  · have hno : ¬((s.top.fw ≠ none ∧ r.base ∈ [aTopFwAddr, aTopFwLen]) ∨ s.valueOk r w v.toNat = false) := by
      rintro (⟨h1, h2⟩ | h)
      · exact hfw.elim h1 fun h => h h2
      · rw [hok] at h; cases h
    rw [hexec, busWrite_word ha hp he hr hd hm hpr hx, writeReg_plain hplain, if_neg hno]
    exact ⟨_, rfl, putWord_only _ _ _ _, fun b hb => reg_putWord_ne hb,
      fun k hk => bitOf_putWord (masks_lt_of_busReg hr hx) v.isLt hk⟩
  · rw [hexec, busWrite_refused ha hp he hr h]
  · rw [hexec, busWrite_word ha hp he hr hd hm hpr hx, writeReg_plain hplain, if_pos h]
  · rw [hexec, busWrite_protected ha hp he hr hd hm hpr]
  · have hoff := progPlace_off_lt ha hp
    rw [hexec, busWrite_prog ha hp, progWrite_accepted hin]
    refine ⟨_, rfl, rfl, fun b hb => ⟨memLe_putWords (List.mem_map_of_mem hb) ?_, ?_⟩, fun k hk => getByte_putWords_ne ?_⟩
    · simp only [List.forall_mem_map, bankBase]
      omega
    · simpa [List.mem_filter] using fun _ => ⟨b, hb, rfl⟩
    · simpa only [List.forall_mem_map] using hk
  · subst hm
    rw [hexec, busWrite_prog ha hp, progWrite_refused hin]
  · exact ⟨_, rfl, regN_deny_addr _ _ _ _, regN_deny_kind _ _ _ _, deny_mems _ _ _ _, deny_committed _ _ _ _⟩

/-! ### Where registers lie (R652) -/

/-- A row that has no word at the addresses from `lo` to `hi - 1`: it begins behind them, or ends before them. -/
def misses (lo hi : Nat) (r : RegRow) : Bool :=
  decide (hi ≤ r.base) ||
    match r.dims with
    | [] => decide (r.base + 4 * r.words.length ≤ lo)
    | (n, st) :: _ => decide (0 < st ∧ r.base + n * st ≤ lo)

theorem locate_of_misses {lo hi a : Nat} {r : RegRow} (h : misses lo hi r = true) (h1 : lo ≤ a) (h2 : a < hi) :
    r.locate a = none := by
  unfold RegRow.locate
  by_cases hb : a < r.base
  · rw [if_pos hb]
  rw [if_neg hb]
  have hi : ¬hi ≤ r.base := by omega
  unfold misses at h
  split at h
  · rename_i hd
    have : ¬(a - r.base) / 4 < r.words.length := by
      simp [hi] at h
      omega
    simp [hd, peelDims, this]
  · rename_i n st ds hd
    simp only [hi, decide_false, Bool.false_or, decide_eq_true_eq] at h
    have : ¬(a - r.base) / st < n := by
      rw [Nat.div_lt_iff_lt_mul h.1]
      omega
    simp [hd, peelDims, this]

/-- A register is found at an address of its row that all other rows miss. -/
theorem findReg_of_locate {lo hi a w : Nat} {t : RegRow} {is : List Nat} (ht : t ∈ allRows)
    (hm : ∀ r ∈ allRows, r = t ∨ misses lo hi r = true) (h1 : lo ≤ a) (h2 : a < hi) (hl : t.locate a = some (is, w)) :
    findReg a = some (t, is, w) := by
  have hf : ∀ l : List RegRow, t ∈ l → (∀ r ∈ l, r = t ∨ misses lo hi r = true) →
      (l.findSome? fun r => match r.locate a with | some (is, w) => some (r, is, w) | none => none) = some (t, is, w) := by
    intro l
    induction l with
    | nil => intro h; cases h
    | cons r l ih =>
      intro ht hm
      rw [List.findSome?_cons]
      rcases hm r List.mem_cons_self with rfl | hr
      · simp [hl]
      · have hn := locate_of_misses hr h1 h2
        have hrt : t ≠ r := by rintro rfl; rw [hl] at hn; cases hn
        simp only [hn]
        exact ih ((List.mem_cons.1 ht).resolve_left hrt) fun r hr => hm r (List.mem_cons_of_mem _ hr)
  exact hf allRows ht hm

theorem findReg_portStatus (n : PortId) : findReg (aPortStatus n.val) = some (rowPortStatus, [n.val], 0) := by
  have hn := n.isLt
  have h1 : 0x00B0A000 ≤ aPortStatus n.val := Nat.le_add_right _ _
  have h2 : aPortStatus n.val < 0x00B0A800 := by unfold aPortStatus; omega
  have hoff : aPortStatus n.val - rowPortStatus.base = 4 * n.val := Nat.add_sub_cancel_left ..
  have hl : rowPortStatus.locate (aPortStatus n.val) = some ([n.val], 0) := by
    rw [RegRow.locate, if_neg (show ¬aPortStatus n.val < rowPortStatus.base from Nat.not_lt.2 h1), hoff]
    simp [rowPortStatus, peelDims, hn]
  exact findReg_of_locate (lo := 0x00B0A000) (hi := 0x00B0A800) (by decide +kernel) (by decide +kernel) h1 h2 hl

/-- The word at an address of the register space below the program store, outside the debug block. -/
def Placed (a : Nat) (r : RegRow) (is : List Nat) (w : Nat) : Prop :=
  a % 4 = 0 ∧ a < 0x02000000 ∧ inDbg a = false ∧ busReg a = some (r, is, w)

theorem placed_ptpCapture : Placed aPtpCapture rowPtpCapture [] 0 := by unfold Placed; decide +kernel

theorem placed_ptpPpsin : Placed aPtpPpsin rowPtpPpsin [] 0 := by unfold Placed; decide +kernel

theorem placed_ptpTodRx : Placed aPtpTodRx rowPtpTodRx [] 0 := by unfold Placed; decide +kernel

theorem placed_ptpTsq : ∀ p : Part, Placed (aPtpTsq p.val) rowPtpTsq [p.val] 0 := by unfold Placed; decide +kernel

theorem placed_hstDeny : ∀ p : Part, Placed (aHstDeny p.val) rowHstDeny [p.val] 0 := by unfold Placed; decide +kernel

theorem placed_robStatus : ∀ r : RaceId, Placed (aRaceRobStatus r.val) rowRaceRobStatus [r.val] 0 := by
  unfold Placed; decide +kernel

theorem placed_portStatus (n : PortId) : Placed (aPortStatus n.val) rowPortStatus [n.val] 0 := by
  have hn := n.isLt
  refine ⟨by unfold aPortStatus; omega, by unfold aPortStatus; omega, decide_eq_false (by unfold aPortStatus; omega), ?_⟩
  rw [busReg, findReg_portStatus]
  exact if_neg fun h => absurd h.1 (by decide)

/-! ### What a read returns and latches (R10) -/

theorem got_returned (t : State) (m : Master) (v : Nat) : got (t.returned m v) m = v % 2 ^ 32 := by
  simp [got, State.returned, mget_mset_self]

@[simp] theorem latched_returned (t : State) (m : Master) (v a : Nat) : (t.returned m v).latched m a = t.latched m a := rfl

@[simp] theorem race_returned (t : State) (m : Master) (v r : Nat) : (t.returned m v).race r = t.race r := rfl

@[simp] theorem portS_returned (t : State) (m : Master) (v n : Nat) : (t.returned m v).portS n = t.portS n := rfl

theorem latched_lt (s : State) (m : Master) (a : Nat) : s.latched m a < 2 ^ 32 := BitVec.isLt _

theorem latched_setLatch (s : State) (m : Master) (a b v : Nat) :
    (s.setLatch m a v).latched m b = if b = a then v % 2 ^ 32 else s.latched m b := by
  simp only [State.latched, State.setLatch, mget_mset, Nat.add_left_cancel_iff]
  split
  · simp
  · rfl

/-- Words latched from an address on leave the latches below it. -/
theorem latched_latchAll_below {m : Master} {b : Nat} {l : List Nat} : ∀ {s : State} {a : Nat}, b < a →
    (s.latchAll m a l).latched m b = s.latched m b := by
  induction l with
  | nil => intro s a _; rfl
  | cons v l ih =>
    intro s a h
    rw [State.latchAll, ih (by omega), latched_setLatch, if_neg (by omega)]

/-- The words latched together stand at consecutive addresses. -/
theorem latched_latchAll {m : Master} {l : List Nat} {b v : Nat} : ∀ {s : State} {a : Nat} (i : Nat), l[i]? = some v →
    b = a + 4 * i → (s.latchAll m a l).latched m b = v % 2 ^ 32 := by
  induction l with
  | nil => intro s a i hi; cases hi
  | cons x l ih =>
    intro s a i hi hb
    cases i with
    | zero =>
      obtain rfl : x = v := Option.some.inj hi
      rw [State.latchAll, latched_latchAll_below (by omega), latched_setLatch, if_pos (by omega)]
    | succ i => exact ih i hi (by omega)

theorem latched_returned_latchAll {s : State} {m : Master} {l : List Nat} {a b v x : Nat} (i : Nat) (h : l[i]? = some v)
    (hb : b = a + 4 * i) : ((s.latchAll m a l).returned m x).latched m b = v % 2 ^ 32 :=
  latched_latchAll i h hb

theorem latchAll_only {m : Master} {l : List Nat} : ∀ (s : State) (a : Nat),
    s.latchAll m a l = { s with latch := (s.latchAll m a l).latch } := by
  induction l with
  | nil => intro s a; rfl
  | cons v l ih => intro s a; exact ih (s.setLatch m a v) (a + 4)

/-- From `s` to `u` only latches and what readers were given change. -/
def OnlyLatches (s u : State) : Prop := u = { s with latch := u.latch, rdata := u.rdata }

theorem onlyLatches_returned {s t : State} (m : Master) (v : Nat) (h : t = { s with latch := t.latch }) :
    OnlyLatches s (t.returned m v) := by
  generalize t.latch = x at h
  subst h
  rfl

/-! ### Reads on the bus -/

theorem busRead_register {s : State} {m : Master} {a w : Nat} {r : RegRow} {is : List Nat} (ha : a % 4 = 0)
    (hp : progPlace a = none) (he : inEmView a = false) (hd : inDbg a = false) (hr : busReg a = some (r, is, w))
    (hm : s.mayRead m r (is.headD 0) = true) : s.busRead m a = (stOk, s.readReg m r is w a) := by
  simp only [State.busRead, ha, hp, he, hd, hr, hm, ne_eq, not_true_eq_false, if_false, Bool.false_eq_true, Bool.not_true,
    or_self]

theorem globalAddr_of_lt (s : State) (m : Master) {a : Nat} (h : a < 0x02000000) : s.globalAddr m a = some a := by
  cases m with
  | eosta => exact if_pos (by omega)
  | host p => exact if_pos (by omega)

/-- A permitted read of a register gives its reader the register's value, and has the register's effect. -/
theorem readAt_register {s : State} {m : Master} {a w : Nat} {r : RegRow} {is : List Nat} (h : s.reaches m = true)
    (hr : Placed a r is w) (hm : s.mayRead m r (is.headD 0) = true) :
    s.readAt m a = .next ((s.readReg m r is w a).2.returned m (s.readReg m r is w a).1) := by
  obtain ⟨ha, hlt, hd, hb⟩ := hr
  have hp : progPlace a = none := by
    rw [progPlace, if_neg (by omega), if_neg (by omega)]
  have he : inEmView a = false := decide_eq_false (by omega)
  rw [readAt_bus h (globalAddr_of_lt s m hlt), busRead_register ha hp he hd hb hm]

/-! ### What each register's read does -/

/-- A row of a register that is no seed. -/
theorem hidesSeed_eq_false {r : RegRow} (m : Master) (h : r.rp ≠ .r_seed) : hidesSeed m r = false := by
  cases m with
  | eosta => rfl
  | host p => simp [hidesSeed, h]

section
variable (s : State) (m : Master) (is : List Nat) (a : Nat)

theorem readReg_ptpCapture : s.readReg m rowPtpCapture is 0 a = s.readCapture m := by
  rw [State.readReg, hidesSeed_eq_false m (by decide)]
  rfl

theorem readReg_ptpPpsin : s.readReg m rowPtpPpsin is 0 a = s.readPpsin m := by
  rw [State.readReg, hidesSeed_eq_false m (by decide)]
  rfl

theorem readReg_ptpTodRx : s.readReg m rowPtpTodRx is 0 a = s.readTodRx m := by
  rw [State.readReg, hidesSeed_eq_false m (by decide)]
  rfl

theorem readReg_ptpTsq : s.readReg m rowPtpTsq is 0 a = s.popTsq (is.headD 0) := by
  rw [State.readReg, hidesSeed_eq_false m (by decide)]
  rfl

theorem readReg_hstDeny : s.readReg m rowHstDeny is 0 a = s.readDeny m (is.headD 0) := by
  rw [State.readReg, hidesSeed_eq_false m (by decide)]
  rfl

theorem readReg_robStatus : s.readReg m rowRaceRobStatus is 0 a = s.readRob (is.headD 0) := by
  rw [State.readReg, hidesSeed_eq_false m (by decide)]
  rfl

theorem readReg_portStatus : s.readReg m rowPortStatus is 0 a = s.readPortStatus (is.headD 0) := by
  rw [State.readReg, hidesSeed_eq_false m (by decide)]
  rfl

end

/-- A pop takes the oldest entry and shows its time in the words behind (R429). -/
theorem popTsq_cons {s : State} {p : Nat} {e : TsqEntry} {l : List TsqEntry}
    (h : mget (fun _ => ([] : List TsqEntry)) s.ptp.tsq p = e :: l) :
    s.popTsq p = (e.word, { s with ptp := { s.ptp with
      tsq := mset (fun _ => []) s.ptp.tsq p l, tsqLast := mset (fun _ => (0, 0)) s.ptp.tsqLast p (e.secs, e.ns) } }) := by
  simp only [State.popTsq, h]

theorem popTsq_nil {s : State} {p : Nat} (h : mget (fun _ => ([] : List TsqEntry)) s.ptp.tsq p = []) :
    s.popTsq p = (0, s) := by
  simp only [State.popTsq, h]

theorem readTodRx_none {s : State} (m : Master) (h : s.ptp.todRx = none) :
    s.readTodRx m = (0, s.latchAll m (aPtpTodRx + 4) [0, 0, 0, 0, s.ptp.todBad % 2 ^ 32]) := by
  simp only [State.readTodRx, h]

theorem readTodRx_message {s : State} (m : Master) {b : List Byte} {g : Nat} (h : s.ptp.todRx = some (b, g)) :
    s.readTodRx m = (2 ^ 31 + beNat ((b.drop 12).take 1) * 65536 + beNat ((b.drop 10).take 2),
      s.latchAll m (aPtpTodRx + 4) [beNat ((b.drop 4).take 6) % 2 ^ 32,
        beNat ((b.drop 4).take 6) / 2 ^ 32 + beNat ((b.drop 13).take 1) * 2 ^ 16 + beNat ((b.drop 14).take 1) * 2 ^ 24,
        g % 2 ^ 32, g / 2 ^ 32, s.ptp.todBad % 2 ^ 32]) := by
  simp only [State.readTodRx, h]

/-- The read takes MAX back to the slots in use (R176). -/
theorem race_readRob (s : State) (r : Nat) :
    (s.readRob r).2.race r = { s.race r with robMax := (s.race r).rob.length } :=
  race_setRace_self _ _ _

/-- The read clears LINKDN (R444). -/
theorem portS_readPortStatus (s : State) (n : Nat) : (s.readPortStatus n).2.portS n = { s.portS n with linkDn := 0 } :=
  mget_mset_self _ _ _ _

/-- A word of a 64-bit register: a low word latches its high word, a high word reads the latch (R10). -/
theorem readReg_wide {s : State} {m : Master} {r : RegRow} {is : List Nat} {w a : Nat} (hs : hidesSeed m r = false)
    (hw : r.wide = true) (he : r.base ∉ effectReads) :
    s.readReg m r is w a =
      if w % 2 = 0 then (s.regValue m r is w a, s.setLatch m (a + 4) (s.regValue m r is (w + 1) (a + 4)))
      else (s.latched m a, s) := by
  simp only [effectReads, List.mem_cons, List.not_mem_nil, or_false, not_or] at he
  simp [State.readReg, hs, hw, he]

/-! ### Each read that acts -/

section
variable {s : State} {m : Master}

/-- A read of BAR2 gives 4 B of DRAM, or a free value for a flow record in SERVICE, or is refused (R456, R484 case 2). -/
theorem bar2_reads {q : Part} {addr a : Nat} (h : s.reaches (.host q) = true) (ha : s.bar2Addr q.val addr = some a) :
    (s.bar2Ok q.val false a = true →
      ∃ u, exec (.lowWordReadLatch (.host q) addr) s = .next u ∧ got u (.host q) = (s.bar2Read q.val a).1 % 2 ^ 32 ∧
        (¬(s.top.mode = .service ∧ a < 0x400000000) → got u (.host q) = s.dramWord4 a ∧ OnlyLatches s u) ∧
        u.mems = s.mems) ∧
    (s.bar2Ok q.val false a = false →
      ∃ u, exec (.lowWordReadLatch (.host q) addr) s = .next u ∧ got u (.host q) = 0 ∧
        u = { s.deny q.val 3 a with rdata := u.rdata }) := by
  refine ⟨fun hok => ⟨_, readAt_dram h ha, got_returned _ _ _, fun hs => ?_, ?_⟩,
    fun hok => ⟨_, readAt_dram h ha, ?_⟩⟩
  · have hr : s.bar2Read q.val a = (s.dramWord4 a, s) := by simp [State.bar2Read, hok, hs]
    rw [hr, got_returned]
    exact ⟨Nat.mod_eq_of_lt (Nat.mod_lt _ (by decide)), onlyLatches_returned _ _ rfl⟩
  · by_cases hs : s.top.mode = .service ∧ a < 0x400000000 <;> simp [State.bar2Read, State.returned, hok, hs]
  · have hr : s.bar2Read q.val a = (0, s.deny q.val 3 a) := by simp [State.bar2Read, hok]
    rw [hr]
    exact ⟨got_returned _ _ _, rfl⟩

variable (h : s.reaches m = true)
include h

/-- A 64-bit register is read through its low word, whose read latches the other for the same reader (R10). -/
theorem wide_reads {addr a w : Nat} {r : RegRow} {is : List Nat} (hg : s.globalAddr m addr = some a) (ha : a % 4 = 0)
    (hp : progPlace a = none) (he : inEmView a = false) (hd : inDbg a = false) (hr : busReg a = some (r, is, w))
    (hm : s.mayRead m r (is.headD 0) = true) (hs : hidesSeed m r = false) (hw : r.wide = true) (hb : r.base ∉ effectReads) :
    (w % 2 = 0 → ∃ u, exec (.lowWordReadLatch m addr) s = .next u ∧ got u m = s.regValue m r is w a % 2 ^ 32 ∧
      u.latched m (a + 4) = s.regValue m r is (w + 1) (a + 4) % 2 ^ 32 ∧ OnlyLatches s u) ∧
    (w % 2 = 1 → ∃ u, exec (.lowWordReadLatch m addr) s = .next u ∧ got u m = s.latched m a ∧ OnlyLatches s u) := by
  have hexec : exec (.lowWordReadLatch m addr) s = .next ((s.readReg m r is w a).2.returned m (s.readReg m r is w a).1) := by
    refine (readAt_bus h hg).trans ?_
    rw [busRead_register ha hp he hd hr hm]
  rw [readReg_wide hs hw hb] at hexec
  refine ⟨fun h0 => ?_, fun h1 => ?_⟩
  · rw [if_pos h0] at hexec
    refine ⟨_, hexec, got_returned _ _ _, ?_, onlyLatches_returned _ _ rfl⟩
    rw [latched_returned, latched_setLatch, if_pos rfl]
  · rw [if_neg (by omega)] at hexec
    exact ⟨_, hexec, (got_returned _ _ _).trans (Nat.mod_eq_of_lt (latched_lt _ _ _)), onlyLatches_returned _ _ rfl⟩

/-- The words of a capture show one instant: that of the read of word 0 (R425). -/
theorem ptpCapture_reads (hm : s.mayRead m rowPtpCapture 0 = true) :
    let now := ptpSplit s.ptpNow
    ∃ u, exec (.ptpCaptureRead m) s = .next u ∧ got u m = ptpFrac s.ptpNow % 2 ^ 32 ∧
      u.latched m (aPtpCapture + 4) = now.2 % 2 ^ 32 ∧ u.latched m (aPtpCapture + 8) = now.1 % 2 ^ 32 ∧
      u.latched m (aPtpCapture + 12) = now.1 / 2 ^ 32 % 2 ^ 32 ∧
      u.latched m (aPtpCapture + 16) = s.clk.gtc % 2 ^ 32 ∧
      u.latched m (aPtpCapture + 20) = s.clk.gtc / 2 ^ 32 % 2 ^ 32 ∧ OnlyLatches s u := by
  have hexec := readAt_register h placed_ptpCapture hm
  rw [readReg_ptpCapture] at hexec
  refine ⟨_, hexec, got_returned _ _ _, ?_, ?_, ?_, ?_, ?_, onlyLatches_returned _ _ (latchAll_only _ _)⟩
  · exact latched_returned_latchAll 0 rfl rfl
  · exact (latched_returned_latchAll 1 rfl rfl).trans (Nat.mod_mod _ _)
  · exact latched_returned_latchAll 2 rfl rfl
  · exact (latched_returned_latchAll 3 rfl rfl).trans (Nat.mod_mod _ _)
  · exact latched_returned_latchAll 4 rfl rfl

theorem ptpPpsin_reads (hm : s.mayRead m rowPtpPpsin 0 = true) :
    let pps := ptpSplit s.ptp.ppsTotal
    ∃ u, exec (.ptpPpsinRead m) s = .next u ∧ got u m = pps.2 % 2 ^ 32 ∧ u.latched m (aPtpPpsin + 4) = pps.1 % 2 ^ 32 ∧
      u.latched m (aPtpPpsin + 8) = (pps.1 / 2 ^ 32 + s.ptp.ppsCnt % 65536 * 65536) % 2 ^ 32 ∧
      u.latched m (aPtpPpsin + 12) = (s.ptp.ppsGtc - 1) % 2 ^ 32 ∧ OnlyLatches s u := by
  have hexec := readAt_register h placed_ptpPpsin hm
  rw [readReg_ptpPpsin] at hexec
  refine ⟨_, hexec, got_returned _ _ _, ?_, ?_, ?_, onlyLatches_returned _ _ (latchAll_only _ _)⟩
  · exact (latched_returned_latchAll 0 rfl rfl).trans (Nat.mod_mod _ _)
  · exact latched_returned_latchAll 1 rfl rfl
  · exact (latched_returned_latchAll 2 rfl rfl).trans (Nat.mod_mod _ _)

theorem hstDeny_reads (part : Part) (hm : s.mayRead m rowHstDeny part.val = true) :
    ∃ u, exec (.hstDenyRead m part) s = .next u ∧ got u m = s.regN (aHstDeny part.val) ∧
      u.latched m (aHstDeny part.val + 4) = s.regN (aHstDeny part.val + 4) ∧
      u.latched m (aHstDeny part.val + 8) = s.regN (aHstDeny part.val + 8) ∧
      u.latched m (aHstDeny part.val + 12) = s.regN (aHstDeny part.val + 12) ∧ OnlyLatches s u := by
  have hexec := readAt_register h (placed_hstDeny part) hm
  rw [readReg_hstDeny] at hexec
  have hreg (a : Nat) : s.regN a % 2 ^ 32 = s.regN a := Nat.mod_eq_of_lt (regN_lt s a)
  refine ⟨_, hexec, (got_returned _ _ _).trans (hreg _), ?_, ?_, ?_, onlyLatches_returned _ _ (latchAll_only _ _)⟩
  · exact (latched_returned_latchAll 0 rfl rfl).trans (hreg _)
  · exact (latched_returned_latchAll 1 rfl rfl).trans (hreg _)
  · exact (latched_returned_latchAll 2 rfl rfl).trans (hreg _)

theorem ptpTodRx_reads_none (hm : s.mayRead m rowPtpTodRx 0 = true) (hn : s.ptp.todRx = none) :
    ∃ u, exec (.ptpTodRxRead m) s = .next u ∧ got u m = 0 ∧ u.latched m (aPtpTodRx + 20) = s.ptp.todBad % 2 ^ 32 ∧
      OnlyLatches s u := by
  have hexec := readAt_register h placed_ptpTodRx hm
  simp only [readReg_ptpTodRx, readTodRx_none m hn] at hexec
  refine ⟨_, hexec, got_returned _ _ _, ?_, onlyLatches_returned _ _ (latchAll_only _ _)⟩
  exact (latched_returned_latchAll 4 rfl rfl).trans (Nat.mod_mod _ _)

theorem ptpTodRx_reads_message {b : List Byte} {g : Nat} (hm : s.mayRead m rowPtpTodRx 0 = true)
    (hn : s.ptp.todRx = some (b, g)) :
    ∃ u, exec (.ptpTodRxRead m) s = .next u ∧
      got u m = (2 ^ 31 + beNat ((b.drop 12).take 1) * 65536 + beNat ((b.drop 10).take 2)) % 2 ^ 32 ∧
      u.latched m (aPtpTodRx + 4) = beNat ((b.drop 4).take 6) % 2 ^ 32 ∧
      u.latched m (aPtpTodRx + 12) = g % 2 ^ 32 ∧ OnlyLatches s u := by
  have hexec := readAt_register h placed_ptpTodRx hm
  simp only [readReg_ptpTodRx, readTodRx_message m hn] at hexec
  refine ⟨_, hexec, got_returned _ _ _, ?_, ?_, onlyLatches_returned _ _ (latchAll_only _ _)⟩
  · exact (latched_returned_latchAll 0 rfl rfl).trans (Nat.mod_mod _ _)
  · exact (latched_returned_latchAll 2 rfl rfl).trans (Nat.mod_mod _ _)

theorem ptpTsq_pops (part : Part) (e : TsqEntry) (l : List TsqEntry) (hm : s.mayRead m rowPtpTsq part.val = true) :
    (mget (fun _ => ([] : List TsqEntry)) s.ptp.tsq part.val = e :: l →
      ∃ u, exec (.ptpTsqPop m part) s = .next u ∧ got u m = e.word % 2 ^ 32 ∧
        mget (fun _ => ([] : List TsqEntry)) u.ptp.tsq part.val = l ∧
        mget (fun _ => ((0, 0) : Nat × Nat)) u.ptp.tsqLast part.val = (e.secs, e.ns) ∧
        u = { s with ptp := u.ptp, rdata := u.rdata }) ∧
    (mget (fun _ => ([] : List TsqEntry)) s.ptp.tsq part.val = [] →
      ∃ u, exec (.ptpTsqPop m part) s = .next u ∧ got u m = 0 ∧ OnlyLatches s u) := by
  have hexec := readAt_register h (placed_ptpTsq part) hm
  rw [readReg_ptpTsq, List.headD_cons] at hexec
  refine ⟨fun hq => ?_, fun hq => ?_⟩
  · rw [popTsq_cons hq] at hexec
    exact ⟨_, hexec, got_returned _ _ _, mget_mset_self _ _ _ _, mget_mset_self _ _ _ _, rfl⟩
  · rw [popTsq_nil hq] at hexec
    exact ⟨_, hexec, got_returned _ _ _, onlyLatches_returned _ _ rfl⟩

theorem robStatus_reads (race : RaceId) (hm : s.mayRead m rowRaceRobStatus race.val = true) :
    ∃ u, exec (.robStatusRead m race) s = .next u ∧ (u.race race.val).robMax = (s.race race.val).rob.length ∧
      got u m = (s.race race.val).robMax % 8192 * 65536 + (s.race race.val).rob.length % 8192 ∧
      (u.race race.val).rob = (s.race race.val).rob ∧ u = { s with races := u.races, rdata := u.rdata } := by
  have hexec := readAt_register h (placed_robStatus race) hm
  rw [readReg_robStatus, List.headD_cons] at hexec
  refine ⟨_, hexec, ?_, (got_returned _ _ _).trans (Nat.mod_eq_of_lt ?_), ?_, rfl⟩
  · rw [race_returned, race_readRob]
  · simp only [State.readRob]
    omega
  · rw [race_returned, race_readRob]

theorem portStatus_reads (port : PortId) (hm : s.mayRead m rowPortStatus port.val = true) :
    ∃ u, exec (.portStatusRead m port) s = .next u ∧ (u.portS port.val).linkDn = 0 ∧
      got u m = s.portStatus port.val % 2 ^ 32 ∧ (u.portS port.val).link = (s.portS port.val).link ∧
      u = { s with eg := u.eg, rdata := u.rdata } := by
  have hexec := readAt_register h (placed_portStatus port) hm
  rw [readReg_portStatus, List.headD_cons] at hexec
  refine ⟨_, hexec, ?_, got_returned _ _ _, ?_, rfl⟩ <;> rw [portS_returned, portS_readPortStatus]

end

/-! ### The statement on reads -/

/-- Settles O51: each reader's words are latched by the read that returns the first of them, and what a read clears is all
it changes besides. -/
theorem readsReturnAndLatch : Obligations.ReadsReturnAndLatch := by
  intro m addr a w r is part race port e l s p only now pps h
  refine ⟨?_, fun hg ha hp he hd hr hm hs hw hb => wide_reads h hg ha hp he hd hr hm hs hw hb, ptpCapture_reads h,
    ptpTsq_pops h part e l, hstDeny_reads h part, ptpPpsin_reads h, ptpTodRx_reads_none h,
    fun b g hm hn => ptpTodRx_reads_message h hm hn, robStatus_reads h race, portStatus_reads h port⟩
  rintro q rfl
  refine ⟨fun ha => (bar2_reads h ha).1, fun ha => (bar2_reads h ha).2, fun hdoor => ?_⟩
  obtain ⟨off, ho⟩ := Option.isSome_iff_exists.1 hdoor
  exact ⟨_, readAt_door h ho, got_returned _ _ _, rfl⟩

end Sys2Proof.Proofs

/-! PROOF. Time, completions and clock failures: the idle step (R21), results that reach their threads (R15, R66), and the
failures of clocks and of Windshaft (R22, R498, R560). -/

namespace Sys2Proof.Proofs

open Sys2Proof Sys2Proof.Machine Sys2Proof.Laws

/-! ### What records, interrupts and alerts change (R474, R544, R565, R616) -/

/-- From `s` to `t` nothing has changed but registers, counters, records, sent vectors and the alert. -/
def OnlySignals (s t : State) : Prop :=
  t = { s with evr := t.evr, cnt := t.cnt, regs := t.regs, msix := t.msix, smb := t.smb }

theorem OnlySignals.after {s t u : State} (h2 : OnlySignals t u) (h1 : OnlySignals s t) : OnlySignals s u := by
  unfold OnlySignals at *
  rw [h2, h1]

theorem onlySignals_of_onlyCounters {s t : State} (h : OnlyCounters s t) : OnlySignals s t := by
  unfold OnlySignals
  rw [h.1]

theorem setRegN_signals (s : State) (a v : Nat) : OnlySignals s (s.setRegN a v) := rfl

theorem irq_signals (s : State) (p src : Nat) : OnlySignals s (s.irq p src) := by
  unfold State.irq
  dsimp only
  split <;> rfl

theorem irqAll_signals (s : State) (src : Nat) : OnlySignals s (s.irqAll src) :=
  (irq_signals _ 3 src).after ((irq_signals _ 2 src).after ((irq_signals _ 1 src).after (irq_signals s 0 src)))

theorem bump_signals (s : State) (a n : Nat) : OnlySignals s (s.bump a n) := onlySignals_of_onlyCounters (bump_only s a n)

theorem event_signals (s : State) (src code detail : Nat) : OnlySignals s (s.event src code detail) := by
  unfold State.event
  dsimp only
  split
  · rfl
  · split
    · exact bump_signals _ _ _
    · rfl

theorem deny_signals (s : State) (p kind a : Nat) : OnlySignals s (s.deny p kind a) :=
  (irq_signals _ _ _).after ((bump_signals _ _ _).after rfl)

theorem alertCause_signals (s : State) (b : Nat) : OnlySignals s (s.alertCause b) := rfl

theorem safety_signals (s : State) (src code detail bit : Nat) : OnlySignals s (s.safety src code detail bit) := by
  unfold State.safety
  refine (alertCause_signals _ 2).after ((irqAll_signals _ 137).after ?_)
  refine (setRegN_signals _ _ _).after ((setRegN_signals _ _ _).after ((setRegN_signals _ _ _).after ?_))
  exact (bump_signals _ _ _).after ((setRegN_signals _ _ _).after (event_signals s src code detail))

/-- A record leaves every register that is no overflow word. -/
theorem regN_event {a : Nat} (s : State) (src code detail : Nat) (ha : NotOvf a) :
    (s.event src code detail).regN a = s.regN a := by
  unfold State.event
  dsimp only
  split
  · rfl
  · split
    · exact congrArg BitVec.toNat ((bump_only _ _ _).2 a ha)
    · rfl

theorem regN_irqAll_ne {s : State} {src b : Nat} (h : ∀ p, b ≠ aHstIpend p (src / 32)) :
    (s.irqAll src).regN b = s.regN b := by
  unfold State.irqAll
  rw [regN_irq_ne (h 3), regN_irq_ne (h 2), regN_irq_ne (h 1), regN_irq_ne (h 0)]

/-- A safety event sets its bit of SAF_FAULT (R565). -/
theorem regN_safety_fault (s : State) (src code detail : Nat) {bit : Nat} (hb : bit < 32) :
    (s.safety src code detail bit).regN aSafFault = s.regN aSafFault ||| 2 ^ bit := by
  have hovf : NotOvf aSafFault := fun u hu => by unfold aSafFault aCntOvf; omega
  have hlt : s.regN aSafFault ||| 2 ^ bit < 2 ^ 32 := Nat.or_lt_two_pow (regN_lt _ _) (Nat.pow_lt_pow_right (by omega) hb)
  let t := (s.event src code detail).setRegN aSafFault ((s.event src code detail).regN aSafFault ||| 2 ^ bit)
  have hset : (t.bump (aSafCnt bit) 1).regN aSafFault = s.regN aSafFault ||| 2 ^ bit := by
    rw [State.regN, (bump_only _ _ _).2 _ hovf, ← State.regN, regN_setRegN, if_pos rfl, regN_event _ _ _ _ hovf,
      Nat.mod_eq_of_lt hlt]
  refine (regN_irqAll_ne fun p => by unfold aSafFault aHstIpend; omega).trans ?_
  rw [regN_setRegN, if_neg (by decide), regN_setRegN, if_neg (by decide), regN_setRegN, if_neg (by decide)]
  exact hset

/-! ### What leaves the queue and the GTC as they are (log 2) -/

/-- From `s` to `t` no command has joined or left the queue, and the GTC has not counted. -/
def SameTime (s t : State) : Prop := t.pending = s.pending ∧ t.clk.gtc = s.clk.gtc

theorem sameTime_refl (s : State) : SameTime s s := ⟨rfl, rfl⟩

theorem SameTime.after {s t u : State} (h2 : SameTime t u) (h1 : SameTime s t) : SameTime s u :=
  ⟨h2.1.trans h1.1, h2.2.trans h1.2⟩

theorem sameTime_of_onlySignals {s t : State} (h : OnlySignals s t) : SameTime s t := by
  rw [h]
  exact ⟨rfl, rfl⟩

theorem sameTime_foldl {α : Type} {f : State → α → State} (hf : ∀ s x, SameTime s (f s x)) (l : List α) (s : State) :
    SameTime s (l.foldl f s) :=
  List.foldlRecOn (motive := SameTime s) l f (sameTime_refl s) fun t ht x _ => (hf t x).after ht

theorem sameTime_ite {s t u : State} {p : Prop} [Decidable p] (h1 : SameTime s t) (h2 : SameTime s u) :
    SameTime s (if p then t else u) := by
  split
  · exact h1
  · exact h2

theorem occur_host_sameTime (s : State) (ev n : Nat) : SameTime s (s.occur 105 ev n) :=
  sameTime_of_onlySignals (onlySignals_of_onlyCounters (occur_only s 105 ev n (by decide)))

theorem hostWrite_sameTime (s : State) (p a : Nat) (l : List Byte) : SameTime s (s.hostWrite p a l) :=
  (occur_host_sameTime _ _ _).after ⟨rfl, rfl⟩

theorem progAdd_sameTime (s : State) (u i n : Nat) : SameTime s (s.progAdd u i n) := by
  unfold State.progAdd
  dsimp only
  exact sameTime_ite (sameTime_refl s) (sameTime_ite ⟨rfl, rfl⟩ ⟨rfl, rfl⟩)

/-- The end of a command writes its completion, counts and signals. -/
theorem cmdDone_sameTime (s : State) (c : CmdRef) (status detail : Nat) : SameTime s (s.cmdDone c status detail) := by
  have hforget : SameTime s (s.cmdForget c) := ⟨rfl, rfl⟩
  unfold State.cmdDone
  refine sameTime_ite hforget (SameTime.after ?_ hforget)
  generalize s.cmdForget c = u
  dsimp only
  have signals {v w : State} (h : OnlySignals v w) : SameTime v w := sameTime_of_onlySignals h
  have hcompl {v : State} (a : Nat) (l : List Byte) (r : CmdRing) (h : v = (u.hostWrite c.part a l).setCmdRing c.part c.ring r) :
      SameTime u v := h ▸ hostWrite_sameTime u c.part a l
  refine (sameTime_ite (signals (irq_signals _ _ _)) (sameTime_refl _)).after ?_
  refine (sameTime_ite (signals (deny_signals _ _ _ _)) (sameTime_refl _)).after ?_
  exact (signals (bump_signals _ _ _)).after (hcompl _ _ _ rfl)

theorem badHeads_sameTime (p i f : Nat) : ∀ s : State, SameTime s (s.badHeads p i f) := by
  induction f with
  | zero => exact sameTime_refl
  | succ f ih =>
    intro s
    unfold State.badHeads
    refine sameTime_ite ((ih _).after ((cmdDone_sameTime _ _ _ _).after ?_)) (sameTime_refl s)
    exact (occur_host_sameTime _ _ _).after ((occur_host_sameTime _ _ _).after ⟨rfl, rfl⟩)

theorem badRings_sameTime (s : State) : SameTime s s.badRings :=
  sameTime_foldl (fun t _ => sameTime_ite (badHeads_sameTime _ _ _ t) (sameTime_refl t)) _ s

/-- The cycle of one counter moves it, what it has noted of its occupancy, and free values. -/
theorem countCycle_sameTime (s : State) (u i v : Nat) : SameTime s (s.countCycle u i v) := by
  have add (p : Prop) [Decidable p] (t : State) (n : Nat) (h : SameTime s t) : SameTime s (if p then t.progAdd u i n else t) :=
    sameTime_ite ((progAdd_sameTime t u i n).after h) h
  unfold State.countCycle
  dsimp only
  split
  · split
    · exact add _ _ _ (sameTime_refl s)
    · exact add _ _ _ ⟨rfl, rfl⟩
  · cases s.occupancy u (bitsOf v 16 10) with
    | some o => exact sameTime_ite (add _ _ _ ⟨rfl, rfl⟩) ⟨rfl, rfl⟩
    | none => exact sameTime_ite (add _ _ _ ⟨rfl, rfl⟩) ⟨rfl, rfl⟩

theorem islandCycles_sameTime (s : State) : SameTime s s.islandCycles :=
  sameTime_ite (sameTime_refl s)
    (sameTime_foldl (fun t _ => sameTime_ite (countCycle_sameTime t _ _ _) (sameTime_refl t)) _ s)

theorem stampOne_sameTime (s : State) (r : Nat) (d : Delayed) : SameTime s (s.stampOne r d) := by
  unfold State.stampOne
  split
  · exact sameTime_ite ⟨rfl, rfl⟩ ⟨rfl, rfl⟩
  · exact sameTime_refl s

theorem firingsDue_sameTime (s : State) : SameTime s s.firingsDue :=
  sameTime_ite (sameTime_foldl (fun t _ => sameTime_foldl (fun u _ => stampOne_sameTime u _ _) _ t) _ s) (sameTime_refl s)

/-! ### The idle step (R21) -/

theorem tick_of_stopped {s : State} (h : s.clk.run = false) : tick s = s := by
  unfold tick
  rw [if_neg (by simp [h])]

/-- Everything else that an idle step does leaves the queue and the GTC to its one count. -/
theorem tick_of_running {s : State} (h : s.clk.run = true) :
    (tick s).pending = s.pending ∧ (tick s).clk.gtc = s.clk.gtc + 1 := by
  have hcycles := (islandCycles_sameTime s.badRings).after (badRings_sameTime s)
  unfold tick
  rw [if_pos h]
  obtain ⟨hpend, hgtc⟩ := firingsDue_sameTime
    { s.badRings.islandCycles with clk := { s.badRings.islandCycles.clk with gtc := s.badRings.islandCycles.clk.gtc + 1 } }
  exact ⟨hpend.trans hcycles.1, hgtc.trans (congrArg (· + 1) hcycles.2)⟩

/-- Settles O2: of what an idle step does, only the tick's own count moves the GTC, and nothing reaches the queue. -/
theorem emptyQueueCountsTime : Obligations.EmptyQueueCountsTime := by
  intro s hs
  refine ⟨tick s, by rw [step, hs], ?_⟩
  cases h : s.clk.run with
  | false => simp [tick_of_stopped h, hs]
  | true => simp [tick_of_running h, hs]

/-! ### Watchpoints that an access meets (R634) -/

/-- A hit is counted in registers. -/
theorem hit_only (s : State) (r a : Nat) : (s.hit r a).2 = { s with regs := (s.hit r a).2.regs } := by
  unfold State.hit
  dsimp only
  split
  · rfl
  · split <;> rfl

/-- Watchpoints note what thread `n` accesses in that thread and in registers. -/
theorem watchAll_only (s : State) (n : Nat) (write : Bool) (space : Nat) (spans : List (Nat × Nat)) :
    let u := s.watchAll n write space spans
    u = { s with regs := u.regs, threads := u.threads } ∧ ∀ m, m ≠ n → u.thr m = s.thr m := by
  refine List.foldlRecOn
    (motive := fun u : State => u = { s with regs := u.regs, threads := u.threads } ∧ ∀ m, m ≠ n → u.thr m = s.thr m)
    _ _ ⟨rfl, fun _ _ => rfl⟩ fun t ⟨hframe, hothers⟩ i _ => ?_
  have hhit := hit_only t (raceOf n) (aDbgWp (raceOf n) i)
  have hthr (m : Nat) : (t.hit (raceOf n) (aDbgWp (raceOf n) i)).2.thr m = t.thr m := by rw [hhit]; rfl
  dsimp only
  split
  · split
    · refine ⟨by rw [hhit, hframe]; rfl, fun m hm => ?_⟩
      rw [thr_setThr, if_neg hm, hthr, hothers m hm]
    · exact ⟨by rw [hhit, hframe], fun m hm => (hthr m).trans (hothers m hm)⟩
  · exact ⟨hframe, hothers⟩

theorem watchAll_of_noWatch {t : ThreadId} {s : State} (h : NoWatch t s) (write : Bool) (space : Nat)
    (spans : List (Nat × Nat)) : s.watchAll (thrNum t) write space spans = s := by
  refine List.foldlRecOn (motive := fun u => u = s) _ _ rfl fun u hu i hi => ?_
  subst hu
  have hmiss : (spans.any fun e => u.wpMatch (raceOf (thrNum t)) i write space e.1 e.2) = false := by
    rw [raceOf_thrNum]
    exact List.any_eq_false.2 fun e _ => by simp [h i write space e.1 e.2 (List.mem_range.1 hi)]
  rw [hmiss]
  rfl

/-! ### Gates (R104, R147) -/

theorem gateConditionTrue_holds {t : ThreadId} {g : Gate} {c : Ctx} {s : State} (hr : s.runs = true)
    (hc : (s.thr (thrNum t)).ctx = some c) (hg : (s.thr (thrNum t)).gate = some g) (h : gateHolds s c g = true) :
    exec (.gateConditionTrue t) s =
      let u := s.setThr (thrNum t) { s.thr (thrNum t) with gate := none }
      if (s.thr (thrNum t)).halted.isSome then .next u else .next (u.join (thrNum t) c.prio) := by
  change execGateConditionTrue t s = _
  simp only [execGateConditionTrue, hc, hg, hr, h, and_self, if_true]

/-! ### Completions (R15, R66, R82) -/

/-- The thread's state once a completion has written its result, code and field values (R66). -/
def Ctx.completed (c : Ctx) (k : Completion) (res : Word64) (code : BitVec 4) : Ctx :=
  k.fv.foldl (fun c e => { c with fv := mset zero64 c.fv e.1 e.2 })
    { (c.setGr (Fin.ofNat 16 k.rd) res).setRc k.tag code with dc := c.dc - 1 }

theorem dc_setGr (c : Ctx) (r : GReg) (v : Word64) : (c.setGr r v).dc = c.dc := by
  unfold Ctx.setGr
  split <;> rfl

theorem wrongAnswer_right {s : State} {c : Ctx} (k : Completion) (h : c.wrong = false) :
    s.wrongAnswer c k = (k.res, k.code, s) := by
  simp [State.wrongAnswer, h]

/-- What a thread sees of an answer depends on free values only. -/
theorem wrongAnswer_comps (s : State) (c : Ctx) (k : Completion) (l : List Completion) :
    ({ s with comps := l } : State).wrongAnswer c k =
      ((s.wrongAnswer c k).1, (s.wrongAnswer c k).2.1, { (s.wrongAnswer c k).2.2 with comps := l }) := by
  unfold State.wrongAnswer
  split <;> rfl

theorem wrongAnswer_only (s : State) (c : Ctx) (k : Completion) :
    (s.wrongAnswer c k).2.2 = { s with clk := (s.wrongAnswer c k).2.2.clk } := by
  unfold State.wrongAnswer
  split <;> rfl

section
variable {t : ThreadId} {tag : GReg} {k : Completion} {c : Ctx} {s : State} (hr : s.runs = true)
  (hc : (s.thr (thrNum t)).ctx = some c)
  (hf : s.comps.find? (fun k => decide (k.thread = thrNum t ∧ k.tag = tag.val)) = some k) (ha : s.arrivesNext k = true)
include hr hc hf ha

/-- A completion of a task that has ended is discarded (R82). -/
theorem asyncComplete_stale (e : Bool) (hk : k.task ≠ c.task) :
    exec (.asyncComplete t tag e) s = .next { s with comps := s.comps.erase k } := by
  change execAsyncComplete t tag e s = _
  have hthr : ({ s with comps := s.comps.erase k } : State).thr (thrNum t) = s.thr (thrNum t) := rfl
  simp only [execAsyncComplete, hf, hr, ha, and_self, if_true, hthr, hc, ne_eq, hk.symm, not_false_eq_true]

/-- An error in its data raises the interrupt instead (R108). -/
theorem asyncComplete_ecc (e : Bool) (hk : k.task = c.task) (he : (e || k.ecc) = true) :
    exec (.asyncComplete t tag e) s = .next ({ s with comps := s.comps.erase k }.setThr (thrNum t)
      { s.thr (thrNum t) with ints := { (s.thr (thrNum t)).ints with ecc := true } }) := by
  change execAsyncComplete t tag e s = _
  have hthr : ({ s with comps := s.comps.erase k } : State).thr (thrNum t) = s.thr (thrNum t) := rfl
  simp only [execAsyncComplete, hf, hr, ha, and_self, if_true, hthr, hc, ne_eq, hk, not_true_eq_false, if_false, he]

/-- Any other writes the thread's state, its field values under watch. -/
theorem asyncComplete_writes (hk : k.task = c.task) (he : k.ecc = false) :
    let a := s.wrongAnswer c k
    let u := { a.2.2 with comps := s.comps.erase k }.watchAll (thrNum t) true 2 (k.fv.map fun e : Nat × Word64 => (8 * e.1, 8))
    exec (.asyncComplete t tag false) s =
      .next (u.setThr (thrNum t) { u.thr (thrNum t) with ctx := some (Ctx.completed c k a.1 a.2.1) }) := by
  change execAsyncComplete t tag false s = _
  have hthr : ({ s with comps := s.comps.erase k } : State).thr (thrNum t) = s.thr (thrNum t) := rfl
  simp only [execAsyncComplete, hf, hr, ha, and_self, if_true, hthr, hc, ne_eq, hk, not_true_eq_false, if_false, he,
    Bool.or_self, Bool.false_eq_true, wrongAnswer_comps, dc_setGr, Ctx.completed]

/-- It changes no thread but its own (R66). -/
theorem asyncComplete_frame (hk : k.task = c.task) (he : k.ecc = false) :
    let a := s.wrongAnswer c k
    ∃ u, exec (.asyncComplete t tag false) s = .next u ∧ u.comps = s.comps.erase k ∧
      (u.thr (thrNum t)).ctx = some (Ctx.completed c k a.1 a.2.1) ∧
      (∀ m, m ≠ thrNum t → u.thr m = s.thr m) ∧ u.pkts = s.pkts ∧ u.mems = s.mems := by
  refine ⟨_, asyncComplete_writes hr hc hf ha hk he, ?_⟩
  have hwrong := wrongAnswer_only s c k
  obtain ⟨hframe, hothers⟩ := watchAll_only { (s.wrongAnswer c k).2.2 with comps := s.comps.erase k } (thrNum t) true 2
    (k.fv.map fun e : Nat × Word64 => (8 * e.1, 8))
  refine ⟨?_, by rw [thr_setThr_self], fun m hm => ?_, ?_, ?_⟩
  · rw [setThr_comps, hframe]
  · rw [thr_setThr, if_neg hm, hothers m hm, hwrong]
    rfl
  · rw [setThr_pkts, hframe, hwrong]
  · rw [setThr_mems, hframe, hwrong]

/-- With fewer than 16 operations outstanding and no watchpoint met, it writes the operation's own result, and nothing else
moves. -/
theorem asyncComplete_unwatched (hk : k.task = c.task) (he : k.ecc = false) (hw : c.wrong = false) (hn : NoWatch t s) :
    ∃ u, exec (.asyncComplete t tag false) s = .next u ∧ u.comps = s.comps.erase k ∧
      (u.thr (thrNum t)).ctx = some (Ctx.completed c k k.res k.code) ∧
      u = { s with comps := u.comps, threads := u.threads } ∧ ∀ m, m ≠ thrNum t → u.thr m = s.thr m := by
  have hexec := asyncComplete_writes hr hc hf ha hk he
  have hn' : NoWatch t { s with comps := s.comps.erase k } := hn
  simp only [wrongAnswer_right k hw, watchAll_of_noWatch hn'] at hexec
  refine ⟨_, hexec, rfl, by rw [thr_setThr_self], rfl, fun m hm => ?_⟩
  rw [thr_setThr, if_neg hm]
  rfl

end

/-- Settles O18: a gate that holds is cleared and its thread joins; a completion that arrives is discarded, raises the
interrupt, or writes its thread, with free values once the task has had 16 operations outstanding (log 19 case 7). -/
theorem gatesOpenAndCompletionsArrive : Obligations.GatesOpenAndCompletionsArrive := by
  intro t tag g k e c s hr n x hc
  refine ⟨fun hg h => ⟨fun hh => ?_, fun hh => ?_⟩, fun hf ha hk => asyncComplete_stale hr hc hf ha e hk, fun hf ha hk =>
    ⟨asyncComplete_ecc hr hc hf ha e hk, asyncComplete_frame hr hc hf ha hk, asyncComplete_unwatched hr hc hf ha hk,
      _, asyncComplete_ecc hr hc hf ha true hk rfl, rfl, ?_, ?_⟩⟩
  · exact (gateConditionTrue_holds hr hc hg h).trans (if_neg (by rw [show (s.thr (thrNum t)).halted = none from hh]; decide))
  · exact (gateConditionTrue_holds hr hc hg h).trans (if_pos (Option.isSome_iff_ne_none.2 hh))
  · rw [thr_setThr_self]
    exact hc
  · rw [thr_setThr_self]

/-! ### Failures of Windshaft and of the clocks (R498, R502, R514, R560) -/

theorem windshaftWatchdog_resets {s : State} (pair : Fin 4) (hcold : s.top.mode ≠ .cold) (hcommit : s.top.mode ≠ .commit)
    (hhalt : s.top.mode ≠ .halt) :
    exec (.windshaftWatchdog pair) s =
      .next (((s.safety (0x380 + pair.val) 0x0241 pair.val 4).reacted 5).warmReset rstWdt none false) := by
  change execWindshaftWatchdog pair s = _
  unfold execWindshaftWatchdog
  split
  · exact absurd ‹_› hcold
  · exact absurd ‹_› hcommit
  · exact absurd ‹_› hhalt
  · rfl

theorem lockstepMismatch_resets {s : State} (pair : Fin 4) (hcold : s.top.mode ≠ .cold) (hcommit : s.top.mode ≠ .commit) :
    exec (.lockstepMismatch pair) s =
      .next (((s.safety (0x380 + pair.val) 0x0240 pair.val 3).reacted 5).warmReset rstLock none false) := by
  change execLockstepMismatch pair s = _
  unfold execLockstepMismatch
  split
  · exact absurd ‹_› hcold
  · exact absurd ‹_› hcommit
  · rfl

section
variable {s : State} (hcommit : s.top.mode ≠ .commit)
include hcommit

/-- The first resonator to fail leaves the clocks to the other one (R498). -/
theorem resonatorFail_first (h0 : s.top.resFail0 = false) (h1 : s.top.resFail1 = false) :
    exec (.resonatorFail 0) s =
        .next ((State.safety { s with top := { s.top with resFail0 := true } } srcWindshaft 0x0100 0 7).degrade 30) ∧
      exec (.resonatorFail 1) s =
        .next ((State.safety { s with top := { s.top with resFail1 := true } } srcWindshaft 0x0100 1 7).degrade 30) := by
  refine ⟨?_, ?_⟩
  · change execResonatorFail 0 s = _
    simp [execResonatorFail, hcommit, h0, h1, State.setTop]
  · change execResonatorFail 1 s = _
    simp [execResonatorFail, hcommit, h0, h1, State.setTop]

theorem bothResonatorsFail_loses (h : s.top.resFail0 = false ∨ s.top.resFail1 = false) :
    exec .bothResonatorsFail s = .next s.clocksLost := by
  refine if_neg ?_
  rintro (hm | ⟨h0, h1⟩)
  · exact hcommit hm
  · simp [h0, h1] at h

/-- The second to fail is the failure of both. -/
theorem resonatorFail_second (h0 : s.top.resFail0 = false) (h1 : s.top.resFail1 = true) :
    exec (.resonatorFail 0) s = exec .bothResonatorsFail s := by
  rw [bothResonatorsFail_loses hcommit (.inl h0)]
  change execResonatorFail 0 s = _
  simp [execResonatorFail, hcommit, h0, h1]

end

/-- The safety monitor notes the event, and one reaction that is to be decided (R560, R564). -/
theorem islandPllLostLock_decides {s : State} (i : Fin 107) (hcold : s.top.mode ≠ .cold) (hcommit : s.top.mode ≠ .commit) :
    ∃ d, exec (.islandPllLostLock i) s =
      let u := s.safety srcWindshaft 0x0102 i.val 7
      .next { u with saf := { u.saf with due := u.saf.due ++ [d] } } := by
  change ∃ d, execIslandPllLostLock i s = _
  unfold execIslandPllLostLock
  split
  · exact absurd ‹_› hcold
  · exact absurd ‹_› hcommit
  · dsimp only
    split
    · exact ⟨_, rfl⟩
    · split
      · exact ⟨_, rfl⟩
      · split
        · exact ⟨_, rfl⟩
        · exact ⟨_, rfl⟩

theorem islandPllLostLock_signals {s : State} (i : Fin 107) (hcold : s.top.mode ≠ .cold) (hcommit : s.top.mode ≠ .commit) :
    ∃ u, exec (.islandPllLostLock i) s = .next u ∧ u.regN aSafFault = (s.regN aSafFault ||| 2 ^ 7) ∧
      u.saf.due.length = s.saf.due.length + 1 ∧ u.clk = s.clk ∧ u.top = s.top := by
  obtain ⟨d, hexec⟩ := islandPllLostLock_decides i hcold hcommit
  have hsig := safety_signals s srcWindshaft 0x0102 i.val 7
  refine ⟨_, hexec, regN_safety_fault s _ _ _ (by decide), ?_, ?_, ?_⟩
  · rw [hsig]
    exact List.length_append
  · rw [hsig]
  · rw [hsig]

/-! ### Copies of the GTC (R22) -/

/-- The clocks once a sync code has reached island `i`, whose copy stands `drift` counts from the master (log 17). -/
def syncedClk (s : State) (i : Nat) (drift : Int) : Clk :=
  { s.clk with
    isl := mset (fun _ => (0 : Int)) s.clk.isl i (if drift = -1 then drift else 0)
    hold := mset zeroN s.clk.hold i (max (s.islGtc i) (if 0 < drift then s.clk.gtc + 1 else 0)) }

theorem gtcSync_syncs {s : State} (i : Fin 107) (drift : Int) (hr : s.clk.run = true) (hg : s.clk.gtc % 4096 = 0) :
    exec (.gtcSync i drift) s =
      let u := { s with clk := syncedClk s i.val drift }
      .next (if drift < -1 then u.event srcWindshaft 0x0103 i.val else u) :=
  if_pos ⟨hr, hg⟩

/-- A copy is set to the master's value, less a drift of 1, but not back. -/
theorem islGtc_synced {s u : State} {i : Nat} {drift : Int} (h : u.clk = syncedClk s i drift) :
    u.islGtc i = max (s.clk.gtc - (if drift = -1 then 1 else 0)) (max (s.islGtc i) (if 0 < drift then s.clk.gtc + 1 else 0)) := by
  unfold State.islGtc
  rw [h]
  simp only [syncedClk, mget_mset_self]
  congr 1
  split <;> omega

theorem gtcSync_follows {s : State} (i : Fin 107) (drift : Int) (hr : s.clk.run = true) (hg : s.clk.gtc % 4096 = 0) :
    ∃ u, exec (.gtcSync i drift) s = .next u ∧ u.clk.gtc = s.clk.gtc ∧ s.islGtc i.val ≤ u.islGtc i.val ∧
      u.islGtc i.val = max (s.clk.gtc - (if drift = -1 then 1 else 0))
        (max (s.islGtc i.val) (if 0 < drift then s.clk.gtc + 1 else 0)) ∧
      (-1 ≤ drift → u = { s with clk := u.clk }) ∧
      (drift < -1 → u = State.event { s with clk := u.clk } srcWindshaft 0x0103 i.val) := by
  refine ⟨_, gtcSync_syncs i drift hr hg, ?_⟩
  generalize hu : ite (drift < -1) _ _ = u
  have hclk : u.clk = syncedClk s i.val drift := by
    rw [← hu]
    split
    · rw [event_signals]
    · rfl
  have hcopy := islGtc_synced hclk
  refine ⟨by rw [hclk, syncedClk], ?_, hcopy, fun h => ?_, fun h => ?_⟩
  · rw [hcopy]
    exact (le_max_left _ _).trans (le_max_right _ _)
  · rw [hclk, ← hu, if_neg (by omega)]
  · rw [hclk, ← hu, if_pos h]

/-- Settles O44: each failure is its safety event and the reaction that follows; a sync code moves a copy forward only. -/
theorem clockFailuresAndSynchronisation : Obligations.ClockFailuresAndSynchronisation := fun pair i drift _ =>
  ⟨windshaftWatchdog_resets pair, lockstepMismatch_resets pair,
    fun hcommit => ⟨resonatorFail_first hcommit, resonatorFail_second hcommit, bothResonatorsFail_loses hcommit⟩,
    islandPllLostLock_signals i, gtcSync_follows i drift⟩

end Sys2Proof.Proofs

/-! PROOF. The engines: what an instruction and the end of a task change beside their thread, and the statements about registers,
windows and branches (R44 to R82). -/

namespace Sys2Proof.Proofs

open Sys2Proof Sys2Proof.Machine Sys2Proof.Laws

/-! ### Every command answers a next state (R52, R484; log 19) -/

/-- Executing a command has come out at a next state: it was neither refused nor a fault. -/
def Answers (o : Host.Outcome State Fault Refusal) : Prop := ∃ t, o = .next t

theorem answers_next (t : State) : Answers (.next t) := ⟨t, rfl⟩

theorem answers_ite {p : Prop} [Decidable p] {a b : Host.Outcome State Fault Refusal} (ha : Answers a) (hb : Answers b) :
    Answers (if p then a else b) := by
  split
  · exact ha
  · exact hb

theorem answers_issue (t : ThreadId) (w : Word32) (bad : Bool) (s : State) (body : Nat → Ctx → State → State) :
    Answers (issue t w bad s body) := by
  unfold issue
  dsimp only
  repeat' (first | exact answers_next _ | split)

theorem answers_readAt (s : State) (m : Master) (a : Nat) : Answers (s.readAt m a) := by
  unfold State.readAt
  dsimp only
  repeat' (first | exact answers_next _ | split)

/-- Settles O3. An instruction issues (`answers_issue`), a read answers (`answers_readAt`), and every branch of the other
commands gives a state. That a reserved encoding has one of the effects open to it, and no fault, is log 19. -/
theorem everyCommandHasANextState : Obligations.EveryCommandHasANextState := by
  intro c s
  change Answers (exec c s)
  cases c
  case aluImm | aluLi | aluLih | aluReg | br | brLink | brRc | brReg | csumAdj | csumSum | delay | drop | emit | ext |
      flowAdd | flowCas | flowDel | flowGet | flowIns | hashCrc32 | hashCrc32c | hashH0 | ins | ld | lkpEm | lkpLpm |
      meter | ordrel | recirc | st | trap | tstamp | wait | yield =>
    exact answers_issue ..
  case hstDenyRead | lowWordReadLatch | portStatusRead | ptpCaptureRead | ptpPpsinRead | ptpTodRxRead | ptpTsqPop |
      robStatusRead =>
    exact answers_readAt ..
  case asyncComplete | attestDone | bootComplete | brownOut | budgetWatchdog | cellRequest | counterFreeze |
      counterUnfreeze | delayEntryObtained | deviceHaltEnter | deviceHaltResume | dueTaskEnqueue | dueTaskTake |
      dumpComplete | dumpDue | emLookupApply | eventRecord | flowOpApply | frameReceive | frameTxDone |
      fwOperationDone | gateConditionTrue | gateEntryAdvance | gateListSwitch | hashApply | headerBytesArrive |
      heartbeatRun | heldPassEnqueue | hostTxRetry | interruptTaken | islandPllLostLock | islandQuiesced |
      islandResumed | journalRoom | keepaliveFire | learnApply | leatAdmit | lockstepMismatch | lpmLookupApply |
      maintAutoStart | maintEnd | meterApply | missQueueRoom | multicastReplicate | noCellDrop | parserAdmit |
      patchClusterDrained | patchDrainTimeout | patchHeartbeatResult | portSelect | powerFailWarning | ptpChangeApply |
      quiesceTimeout | refRelease | reorderTimeout | resonatorFail | rstNRelease | rxPacketWrite | safetyReaction |
      selftestStart | smbusLatch | smbusMask | smbusTalert | snapshotLatch | spillWrite | tailraceEnqueue | taskDeal |
      txWriteback | verifyTimeout | versionActivate | versionChecksDone | windshaftWatchdog =>
    dsimp only [exec, execAsyncComplete, execAttestDone, execBootComplete, execBrownOut, execBudgetWatchdog, execCellRequest,
      execCounterFreeze, execCounterUnfreeze, execDelayEntryObtained, execDeviceHaltEnter, execDeviceHaltResume,
      execDueTaskEnqueue, execDueTaskTake, execDumpComplete, execDumpDue, execEmLookupApply, execEventRecord,
      execFlowOpApply, execFrameReceive, execFrameTxDone, execFwOperationDone, execGateConditionTrue,
      execGateEntryAdvance, execGateListSwitch, execHashApply, execHeaderBytesArrive, execHeartbeatRun,
      execHeldPassEnqueue, execHostTxRetry, execInterruptTaken, execIslandPllLostLock, execIslandQuiesced,
      execIslandResumed, execJournalRoom, execKeepaliveFire, execLearnApply, execLeatAdmit, execLockstepMismatch,
      execLpmLookupApply, execMaintAutoStart, execMaintEnd, execMeterApply, execMissQueueRoom, execMulticastReplicate,
      execNoCellDrop, execParserAdmit, execPatchClusterDrained, execPatchDrainTimeout, execPatchHeartbeatResult,
      execPortSelect, execPowerFailWarning, execPtpChangeApply, execQuiesceTimeout, execRefRelease, execReorderTimeout,
      execResonatorFail, execRstNRelease, execRxPacketWrite, execSafetyReaction, execSelftestStart, execSmbusLatch,
      execSmbusMask, execSmbusTalert, execSnapshotLatch, execSpillWrite, execTailraceEnqueue, execTaskDeal,
      execTxWriteback, execVerifyTimeout, execVersionActivate, execVersionChecksDone, execWindshaftWatchdog]
    repeat' (first | exact answers_next _ | split)
  case abort | apRead | apWrite | attest | blockReset | bufAlloc | bufFree | bypass | cmdChDoorbell | cmdPiDoorbell |
      commit | debugBlockReset | debugTestEntry | debugWarmReset | delete | deviceHaltRequest | deviceResumeRequest |
      dumpCfg | eaccRead | eaccWrite | evrClearSec | evrFreeze | evrFreezeExpire | evrRead | evrThaw | flowDelete |
      flowFlushPort | flowInsert | flowNext | flowSearch | flushPort | holddownExpire | idcode | insert | linkDown |
      lock | lpmUpdate | maintStart | maintStatus | maintStop | modeReq | next | nop | partitionReset | patchActivate |
      patchLoad | perstNRelease | programUserDigest | restampDone | rxTailDoorbell | samplePreload | search |
      smbusIin | smbusMode | smbusOphours | smbusPart | smbusPcyc | smbusPin | smbusTjmax | smbusVin | snapshot |
      threadAbort | threadHalt | threadMstep | threadResume | threadStep | trstNLow | txTailDoorbell | unlock |
      unlockChallenge | versionCommit | versionStatus | walkStart | walkTimeout | warmReset =>
    exact answers_next _
  all_goals exact answers_ite (answers_next _) (answers_next _)

/-! ### What the ends of packets change (R80, R163, R200, R338) -/

/-- From `s` to `t` nothing has changed but races, receive items and counters. -/
def OnlyRaces (s t : State) : Prop := t = { s with races := t.races, rx := t.rx, cnt := t.cnt, regs := t.regs }

/-- From `s` to `t` nothing has changed but races, packets, version counts, released references and counters. -/
def OnlyPackets (s t : State) : Prop :=
  t = { s with races := t.races, rx := t.rx, cnt := t.cnt, regs := t.regs, pkts := t.pkts, cls := t.cls, hop := t.hop }

theorem OnlyRaces.after {s t u : State} (h2 : OnlyRaces t u) (h1 : OnlyRaces s t) : OnlyRaces s u := by
  unfold OnlyRaces at *
  rw [h2, h1]

theorem OnlyPackets.after {s t u : State} (h2 : OnlyPackets t u) (h1 : OnlyPackets s t) : OnlyPackets s u := by
  unfold OnlyPackets at *
  rw [h2, h1]

theorem OnlyRaces.onlyPackets {s t : State} (h : OnlyRaces s t) : OnlyPackets s t := by
  unfold OnlyRaces at h
  unfold OnlyPackets
  rw [h]

theorem OnlyPackets.thr {s t : State} (h : OnlyPackets s t) (m : Nat) : t.thr m = s.thr m := by
  rw [h]
  rfl

theorem bump_races (s : State) (a n : Nat) : OnlyRaces s (s.bump a n) := by
  unfold OnlyRaces
  rw [(bump_only s a n).1]

theorem pauses_races (s : State) (r : Nat) : OnlyRaces s (s.pauses r) := by
  have count (p : Bool) (t : State) (a : Nat) : OnlyRaces t (if p then t.bump a 1 else t) := by
    split
    · exact bump_races t a 1
    · rfl
  unfold State.pauses
  exact (count _ _ _).after ((count _ _ _).after ((count _ _ _).after rfl))

theorem leave_races (s : State) (r : Nat) (x : Leaving) : OnlyRaces s (s.leave r x) := by
  cases x <;> rfl

theorem leaveAll_races (s : State) (r : Nat) (l : List Leaving) : OnlyRaces s (s.leaveAll r l) :=
  List.foldlRecOn (motive := OnlyRaces s) l _ rfl fun t ht x _ => (leave_races t r x).after ht

theorem robRun_races (s : State) (r : Nat) : OnlyRaces s (s.robRun r) :=
  (pauses_races _ _).after ((leaveAll_races _ _ _).after rfl)

theorem robDrop_packets (s : State) (r k : Nat) : OnlyPackets s (s.robDrop r k) :=
  (robRun_races _ r).onlyPackets.after rfl

theorem robEnd_packets (s : State) (r k : Nat) (l : List Leaving) : OnlyPackets s (s.robEnd r k l) := by
  unfold State.robEnd
  split
  · exact (robRun_races _ r).onlyPackets.after rfl
  · exact (leaveAll_races s r l).onlyPackets

theorem verOut_packets (s : State) (d v : Nat) : OnlyPackets s (s.verOut d v) := by
  unfold State.verOut
  dsimp only
  split <;> rfl

theorem releasePkt_packets (s : State) (k : Nat) : OnlyPackets s (s.releasePkt k) := by
  unfold State.releasePkt
  dsimp only
  split <;> rfl

theorem dropPkt_packets (s : State) (k : Nat) : OnlyPackets s (s.dropPkt k) := by
  unfold State.dropPkt
  exact (releasePkt_packets _ k).after ((verOut_packets _ _ _).after (robDrop_packets s _ k))

theorem trapNow_packets (s : State) (k ring code kind : Nat) : OnlyPackets s (s.trapNow k ring code kind) := by
  unfold State.trapNow
  exact (leave_races _ _ _).onlyPackets.after ((verOut_packets _ _ _).after (robDrop_packets s _ k))

theorem excEnd_packets (s : State) (k code : Nat) : OnlyPackets s (s.excEnd k code) := by
  unfold State.excEnd
  dsimp only
  split
  · exact (trapNow_packets _ _ _ _ _).after (bump_races _ _ _).onlyPackets
  · exact (dropPkt_packets _ _).after (bump_races _ _ _).onlyPackets

/-! ### What an instruction changes beside its thread -/

/-- From `s` to `t` nothing has changed but thread `n`, ready lists, completions, and what `OnlySignals` names. -/
def OnlyThread (n : Nat) (s t : State) : Prop :=
  t = { s with threads := t.threads, clusters := t.clusters, comps := t.comps, evr := t.evr, cnt := t.cnt, regs := t.regs,
               msix := t.msix, smb := t.smb } ∧ ∀ m, m ≠ n → t.thr m = s.thr m

theorem OnlyThread.after {n : Nat} {s t u : State} (h2 : OnlyThread n t u) (h1 : OnlyThread n s t) : OnlyThread n s u := by
  obtain ⟨hu, hthr2⟩ := h2
  obtain ⟨ht, hthr1⟩ := h1
  exact ⟨by rw [hu, ht], fun m hm => (hthr2 m hm).trans (hthr1 m hm)⟩

theorem onlyThread_of_onlySignals {n : Nat} {s t : State} (h : OnlySignals s t) : OnlyThread n s t := by
  unfold OnlySignals at h
  exact ⟨by rw [h], fun m _ => by rw [h]; rfl⟩

theorem onlyThread_of_onlyCounters {n : Nat} {s t : State} (h : OnlyCounters s t) : OnlyThread n s t :=
  onlyThread_of_onlySignals (onlySignals_of_onlyCounters h)

theorem setThr_onlyThread (s : State) (n : Nat) (x : Thread) : OnlyThread n s (s.setThr n x) :=
  ⟨rfl, fun m hm => by rw [thr_setThr, if_neg hm]⟩

theorem unready_onlyThread (s : State) (n : Nat) : OnlyThread n s (s.unready n) := ⟨rfl, fun _ _ => rfl⟩

theorem turn_onlyThread (s : State) (n p : Nat) : OnlyThread n s (s.turn n p) :=
  ⟨by rw [turn_only], fun m _ => thr_turn s n p m⟩

theorem coverage_signals (s : State) (cause : Nat) : OnlySignals s (s.coverage cause) := by
  unfold State.coverage
  dsimp only
  split
  · exact setRegN_signals _ _ _
  · exact (event_signals _ _ _ _).after (setRegN_signals _ _ _)

theorem haltCover_signals (s : State) : OnlySignals s s.haltCover := by
  unfold State.haltCover
  split
  · rfl
  · exact setRegN_signals _ _ _

/-- Halting a thread notes the cause, and leaves what it runs (R568, R632). -/
theorem haltThread_only (s : State) (n : Nat) (h : HaltCause) :
    OnlyThread n s (s.haltThread n h) ∧ (s.haltThread n h).thr n =
      { s.thr n with halted := some h, haltAt := s.clk.gtc, stepping := false, mstep := false, wpHit := none, svc := s.tokenNow n } := by
  generalize hx : ({ s.thr n with halted := some h, haltAt := s.clk.gtc, stepping := false, mstep := false, wpHit := none,
                                  svc := s.tokenNow n } : Thread) = x
  have hcover {t : State} (ht : OnlyThread n s t ∧ t.thr n = x) : OnlyThread n s (t.coverage 1) ∧ (t.coverage 1).thr n = x :=
    ⟨(onlyThread_of_onlySignals (coverage_signals t 1)).after ht.1, by rw [coverage_signals t 1]; exact ht.2⟩
  exact hcover ⟨(setThr_onlyThread _ n _).after (unready_onlyThread s n), hx ▸ thr_setThr_self _ _ _⟩

/-- So does its instruction boundary. -/
theorem boundary_only (s : State) (n task : Nat) :
    OnlyThread n s (s.boundary n task) ∧ ((s.boundary n task).thr n).ctx = (s.thr n).ctx := by
  have stays : OnlyThread n s s ∧ (s.thr n).ctx = (s.thr n).ctx := ⟨⟨rfl, fun _ _ => rfl⟩, rfl⟩
  unfold State.boundary
  dsimp only
  split
  · exact stays
  next c hc =>
    split
    · exact stays
    · generalize ht : (s.setThr n { s.thr n with bpPass := false, micro := {} }).turn n c.prio = t
      have hturn : OnlyThread n s t ∧ (t.thr n).ctx = (s.thr n).ctx :=
        ht ▸ ⟨(turn_onlyThread _ n _).after (setThr_onlyThread s n _), by rw [thr_turn, thr_setThr_self]⟩
      have halts (h : HaltCause) : OnlyThread n s (t.haltThread n h) ∧ ((t.haltThread n h).thr n).ctx = (s.thr n).ctx :=
        ⟨(haltThread_only t n h).1.after hturn.1, (congrArg Thread.ctx (haltThread_only t n h).2).trans hturn.2⟩
      split
      · exact halts _
      · split
        · exact halts _
        · exact hturn

/-- A thread that has ended has no boundary. -/
theorem boundary_of_free {s : State} {n : Nat} (task : Nat) (h : (s.thr n).ctx = none) : s.boundary n task = s := by
  simp only [State.boundary, h]

/-! ### A free thread (R80, R142) -/

theorem freeThread_only (s : State) (n : Nat) :
    OnlyThread n s (s.freeThread n) ∧ (s.freeThread n).thr n = {} ∧
      (s.freeThread n).comps = s.comps.filter (fun c => c.thread ≠ n) := by
  have hcover {t : State} (ht : OnlyThread n s t ∧ t.thr n = {} ∧ t.comps = s.comps.filter (fun c => c.thread ≠ n)) :
      OnlyThread n s t.haltCover ∧ t.haltCover.thr n = {} ∧ t.haltCover.comps = s.comps.filter (fun c => c.thread ≠ n) := by
    obtain ⟨hfreed, hthr, hcomps⟩ := ht
    have hsig := haltCover_signals t
    exact ⟨(onlyThread_of_onlySignals hsig).after hfreed, by rw [hsig]; exact hthr, by rw [hsig]; exact hcomps⟩
  exact hcover ⟨⟨rfl, (setThr_onlyThread (s.unready n) n {}).2⟩, thr_setThr_self (s.unready n) n {}, rfl⟩

/-! ### A thread's own state -/

theorem setGr_only (c : Ctx) (r : GReg) (v : Word64) : c.setGr r v = { c with g := (c.setGr r v).g } := by
  unfold Ctx.setGr
  split <;> rfl

/-- From `c` to `d` nothing has changed but what the windows hold. -/
def OnlyWindows (c d : Ctx) : Prop := d = { c with hdr := d.hdr, md := d.md, fv := d.fv }

theorem setWinByte_only (c : Ctx) (sp i : Nat) (b : Byte) : OnlyWindows c (setWinByte c sp i b) := by
  unfold setWinByte
  split <;> rfl

theorem setWinBytes_only (sp : Nat) (l : List Byte) : ∀ (c : Ctx) (i : Nat), OnlyWindows c (setWinBytes c sp i l) := by
  induction l with
  | nil => exact fun _ _ => rfl
  | cons b l ih =>
    intro c i
    have hone := setWinByte_only c sp i b
    have hrest := ih (setWinByte c sp i b) (i + 1)
    unfold OnlyWindows at *
    rw [hone] at hrest
    rw [setWinBytes, hone, hrest]

/-! ### Reserved encodings (R52, R484 case 10) -/

/-- The words of `wordOf` are those with which the instructions issue, and a reserved one issues as such. -/
theorem exec_of_wordOf {i : Instr} {t : ThreadId} {w : Word32} (s : State) (hw : wordOf i = some (t, w)) :
    ∃ body, exec i s = issue t w i.reserved s body := by
  cases i <;> cases hw <;> exact ⟨_, rfl⟩

/-- A thread in a free state still runs its task, for its packet, from its image. -/
theorem havoc_keeps (s : State) (r : Nat) (c : Ctx) :
    (s.havoc r c).task = c.task ∧ (s.havoc r c).pkt = c.pkt ∧ (s.havoc r c).img = c.img := by
  have hregs : ∀ l : List Nat, let d := l.foldl (fun c i => c.setGr (Fin.ofNat 16 i) (s.freeAt (2 + i))) c
      d = { c with g := d.g } := fun l =>
    List.foldlRecOn (motive := fun d : Ctx => d = { c with g := d.g }) l _ rfl fun d hd i _ => by
      rw [setGr_only, hd]
  unfold State.havoc
  dsimp only
  rw [setWinBytes_only, hregs]
  exact ⟨rfl, rfl, rfl⟩

/-- What may become of thread `n` and what it leaves: others, the memories and committed settings as they are. -/
def Within (n : Nat) (s t : State) : Prop := (∀ m, m ≠ n → t.thr m = s.thr m) ∧ t.mems = s.mems ∧ t.committed = s.committed

theorem Within.after {n : Nat} {s t u : State} (h2 : Within n t u) (h1 : Within n s t) : Within n s u :=
  ⟨fun m hm => (h2.1 m hm).trans (h1.1 m hm), h2.2.1.trans h1.2.1, h2.2.2.trans h1.2.2⟩

theorem OnlyThread.within {n : Nat} {s t : State} (h : OnlyThread n s t) : Within n s t :=
  ⟨h.2, by rw [h.1], by rw [h.1]⟩

theorem OnlyPackets.within {n : Nat} {s t : State} (h : OnlyPackets s t) : Within n s t :=
  ⟨fun m _ => h.thr m, by rw [h], by rw [h]⟩

/-- Each effect of a reserved encoding stays with its thread. -/
theorem anything_within {s : State} {n : Nat} {c : Ctx} (hc : (s.thr n).ctx = some c) :
    Within n s (s.anything n c) ∧
      (((s.anything n c).thr n).ctx = none ∨
        ∃ d, ((s.anything n c).thr n).ctx = some d ∧ d.task = c.task ∧ d.pkt = c.pkt ∧ d.img = c.img) := by
  unfold State.anything
  generalize ht : ({ s with clk := { s.clk with free := s.clk.free + 74 } } : State) = t
  have hused : Within n s t := ht ▸ ⟨fun _ _ => rfl, rfl, rfl⟩
  have stands : Within n s t ∧ ((t.thr n).ctx = none ∨
      ∃ d, (t.thr n).ctx = some d ∧ d.task = c.task ∧ d.pkt = c.pkt ∧ d.img = c.img) :=
    ⟨hused, .inr ⟨c, ht ▸ hc, rfl, rfl, rfl⟩⟩
  dsimp only
  split
  · exact stands
  · split
    · exact stands
    · obtain ⟨hfree, hthr, -⟩ := freeThread_only t n
      have hend : OnlyPackets (t.freeThread n) (((t.freeThread n).bump (aRaceExcCnt (raceOf n) 0) 1).dropPkt c.pkt) :=
        (dropPkt_packets _ _).after (bump_races _ _ _).onlyPackets
      exact ⟨hend.within.after (hfree.within.after hused), .inl (by rw [hend.thr, hthr])⟩
  · refine ⟨(setThr_onlyThread t n _).within.after hused, .inr ⟨s.havoc (raceOf n) c, ?_, havoc_keeps s _ c⟩⟩
    rw [thr_setThr_self]

/-- Settles O7: each effect that log 19 chooses for a reserved encoding stays with its thread (`anything_within`), and so do
its counts and its boundary. -/
theorem reservedEncodingsStayWithTheirThread : Obligations.ReservedEncodingsStayWithTheirThread := by
  intro i t w c s hbad hw hi n
  obtain ⟨body, hexec⟩ := exec_of_wordOf s hw
  rw [hbad] at hexec
  have hcount := onlyThread_of_onlyCounters (n := n) (issued_only (s.anything n c) t c w)
  obtain ⟨hbound, hctx⟩ := boundary_only ((s.anything n c).issued n c w) n c.task
  obtain ⟨hany, hthr⟩ := anything_within hi.1
  have hwithin : Within n s (((s.anything n c).issued n c w).boundary n c.task) :=
    hbound.within.after (hcount.within.after hany)
  have hissued : (((s.anything n c).issued n c w).thr n).ctx = ((s.anything n c).thr n).ctx := by
    rw [(issued_only (s.anything n c) t c w).1]; rfl
  refine ⟨_, hexec.trans (issue_reserved body hi), rfl, hwithin.1, hwithin.2.1, hwithin.2.2, ?_⟩
  rw [hctx, hissued]
  exact hthr

/-! ### An instruction that issues -/

/-- A thread that stands at no gate and does not halt goes on from its boundary with the state written back. -/
theorem goesOn_boundary {t : ThreadId} {c c' : Ctx} {s : State} (w : Word32) (hg : (s.thr (thrNum t)).gate = none)
    (hn : NoHalt t s) (ht : c'.task = c.task) :
    GoesOn t c' s (.next (((s.putCtx (thrNum t) c').issued (thrNum t) c w).boundary (thrNum t) c.task)) := by
  have hcount := issued_only (s.putCtx (thrNum t) c') t c w
  generalize (s.putCtx (thrNum t) c').issued (thrNum t) c w = u at hcount
  have hthr (m : Nat) : u.thr m = (s.putCtx (thrNum t) c').thr m := by rw [hcount.1]; rfl
  have hself : u.thr (thrNum t) = { s.thr (thrNum t) with ctx := some c' } := (hthr _).trans (thr_setThr_self _ _ _)
  let y : Thread := { s.thr (thrNum t) with ctx := some c', bpPass := false, micro := {} }
  have hbound : u.boundary (thrNum t) c.task = (u.setThr (thrNum t) y).turn (thrNum t) c'.prio := by
    simp [State.boundary, hself, ht, hg, hn.1, hn.2, y]
  have hclu : ((u.setThr (thrNum t) y).turn (thrNum t) c'.prio).clusters = (s.turn (thrNum t) c'.prio).clusters :=
    turn_clusters _ _ _ _ (by rw [setThr_clusters, hcount.1]; rfl)
  refine ⟨_, rfl, ?_, fun m hm => ?_, ?_⟩
  · rw [hbound, thr_turn, thr_setThr_self]
  · rw [hbound, thr_turn, thr_setThr, if_neg hm, hthr]
    exact (thr_setThr _ _ _ _).trans (if_neg hm)
  · rw [hbound, turn_only, hclu]
    exact ⟨by rw [hcount.1]; rfl, hcount.2⟩

/-- From `c` to `d` the task and its place in the image's code are the same. -/
def SamePlace (c d : Ctx) : Prop := d.task = c.task ∧ d.pc = c.pc ∧ d.img = c.img

theorem samePlace_setGr (c : Ctx) (r : GReg) (v : Word64) : SamePlace c (c.setGr r v) := by
  rw [setGr_only]
  exact ⟨rfl, rfl, rfl⟩

theorem codeLen_congr {s u : State} {c d : Ctx} (r : Nat) (hm : u.mems = s.mems) (hi : d.img = c.img) :
    u.codeLen r d = s.codeLen r c := by
  unfold State.codeLen State.img
  rw [hm, hi]

/-- The outcome is a next state in which the thread, with `c`, stands at gate `g`; nothing but this thread, ready lists and
what `OnlySignals` names has changed. -/
def Waits (t : ThreadId) (c : Ctx) (g : Gate) (s : State) (o : Host.Outcome State Fault Refusal) : Prop :=
  ∃ u, o = .next u ∧ (u.thr (thrNum t)).ctx = some c ∧ (u.thr (thrNum t)).gate = some g ∧ OnlyThread (thrNum t) s u

section
variable {t : ThreadId} {w : Word32} {bad : Bool} {c c' : Ctx} {s u : State} {body : Nat → Ctx → State → State}
  (hbad : bad = false) (h : Issues t w c s)

section
variable (hn : NoHalt t s) (hthr : u.threads = s.threads)
include hbad h hn hthr

theorem issue_goesOn_from (hb : body (thrNum t) c s = u.putCtx (thrNum t) c') (ht : c'.task = c.task) :
    GoesOn t c' u (issue t w bad s body) := by
  have hsame (m : Nat) : u.thr m = s.thr m := by unfold State.thr; rw [hthr]
  subst hbad
  rw [issue_next body h, hb]
  exact goesOn_boundary w (by rw [hsame]; exact issues_gate h) (by unfold NoHalt; rw [hsame]; exact hn) ht

/-- An instruction that falls through lets its thread go on at the next one (R62). -/
theorem issue_retires_from (hmems : u.mems = s.mems) (hmore : MoreCode t c s) (hp : SamePlace c c')
    (hb : body (thrNum t) c s = u.retire (thrNum t) c') : GoesOn t (Ctx.next c') u (issue t w bad s body) := by
  obtain ⟨htask, hpc, himg⟩ := hp
  have hmore' : MoreCode t c u := by
    unfold MoreCode
    rw [codeLen_congr _ hmems rfl]
    exact hmore
  exact issue_goesOn_from hbad h hn hthr (hb.trans (retire_eq c' hpc himg hmore')) htask

end

include hbad h

theorem issue_retires (hn : NoHalt t s) (hmore : MoreCode t c s) (hp : SamePlace c c')
    (hb : body (thrNum t) c s = s.retire (thrNum t) c') : GoesOn t (Ctx.next c') s (issue t w bad s body) :=
  issue_retires_from hbad h hn rfl rfl hmore hp hb

/-- An instruction that waits leaves its thread before it (R104, R105). -/
theorem issue_waits {g : Gate} (hb : body (thrNum t) c s = s.waitAt (thrNum t) g) : Waits t c g s (issue t w bad s body) := by
  subst hbad
  have hself : (s.waitAt (thrNum t) g).thr (thrNum t) = { s.thr (thrNum t) with gate := some g } := thr_setThr_self _ _ _
  have hissued : (s.waitAt (thrNum t) g).issued (thrNum t) c w = s.waitAt (thrNum t) g := by
    simp [State.issued, hself, h.1]
  have hbound : (s.waitAt (thrNum t) g).boundary (thrNum t) c.task = s.waitAt (thrNum t) g := by
    simp [State.boundary, hself, h.1]
  refine ⟨_, (issue_next body h).trans (by rw [hb, hissued, hbound]), ?_, ?_, ?_⟩
  · rw [hself]
    exact h.1
  · rw [hself]
  · exact (setThr_onlyThread _ _ _).after (unready_onlyThread s _)

end

/-! ### Arithmetic and moves (R45, R57 to R60, R64, R65) -/

/-- The thread's state after function `fn` on `a` and `b`: result and flags (R57, R58). -/
def Ctx.computed (c : Ctx) (rd : GReg) (f : Bool) (fn : Nat) (a b : Word64) : Ctx :=
  let r := aluResult fn a b
  let c1 := if fn = 0x0D ∨ fn = 0x0E then c else c.setGr rd r
  if f = true ∨ fn = 0x0D ∨ fn = 0x0E then
    { c1 with z := decide (r = 0), n := r.getLsbD 63, c := aluCarry fn a b, v := aluOverflow fn a b }
  else c1

theorem doAlu_eq (rd : GReg) (f : Bool) (fn : Nat) (a b : Word64) (n : Nat) (c : Ctx) (s : State) :
    doAlu rd f fn a b n c s = s.retire n (Ctx.computed c rd f fn a b) := by
  simp [doAlu, Ctx.computed, aluSetsFlags, aluFlagsOnly]

theorem samePlace_computed (c : Ctx) (rd : GReg) (f : Bool) (fn : Nat) (a b : Word64) :
    SamePlace c (Ctx.computed c rd f fn a b) := by
  have hres : SamePlace c (if fn = 0x0D ∨ fn = 0x0E then c else c.setGr rd (aluResult fn a b)) := by
    split
    · exact ⟨rfl, rfl, rfl⟩
    · exact samePlace_setGr c rd _
  unfold Ctx.computed
  dsimp only
  split <;> exact hres

theorem badFn_of_lt {fn : BitVec 5} (h : fn.toNat < 0x16) : badFn fn = false := decide_eq_false (Nat.not_le.2 h)

/-- Settles O8: both formats compute on their operands and fall through. -/
theorem aluComputesResultAndFlags : Obligations.AluComputesResultAndFlags :=
  fun _ rd _ _ f fn _ c _ hfn hn hm =>
    ⟨fun h => issue_retires (badFn_of_lt hfn) h hn hm (samePlace_computed c rd f fn.toNat _ _) (doAlu_eq ..),
      fun h => issue_retires (badFn_of_lt hfn) h hn hm (samePlace_computed c rd f fn.toNat _ _) (doAlu_eq ..)⟩

/-- A write to g0 is discarded (R45). -/
theorem setGr_zero (c : Ctx) (v : Word64) : c.setGr 0 v = c := rfl

/-- Of two zeros, every function of R57 up to `maxu` gives 0. -/
theorem aluResult_zero {fn : Nat} (h : fn < 0x0D) : aluResult fn 0 0 = 0 := by
  interval_cases fn <;> decide

/-- Settles O9: a write to g0 leaves every register as it is (`setGr_zero`), and two zeros give 0 (`aluResult_zero`). -/
theorem g0ReadsZeroAndDiscardsWrites : Obligations.G0ReadsZeroAndDiscardsWrites := by
  refine ⟨fun t imm c s hn hm h => ?_, fun t rd fn c s hfn hn hm h => ?_, fun c v => setGr_zero c v ▸ ⟨rfl, fun _ => rfl⟩⟩
  · exact issue_retires rfl h hn hm ⟨rfl, rfl, rfl⟩ rfl
  · have hcomp : Ctx.computed c rd false fn.toNat 0 0 = c.setGr rd 0 := by
      have hwrites : ¬ (fn.toNat = 0x0D ∨ fn.toNat = 0x0E) := by omega
      simp only [Ctx.computed, aluResult_zero hfn, hwrites, if_false, or_false, Bool.false_eq_true]
    exact issue_retires (badFn_of_lt (by omega)) h hn hm (samePlace_setGr c rd 0) (by rw [← hcomp]; exact doAlu_eq ..)

/-! ### The fields of `ext` and `ins` (R60) -/

theorem getLsbD_extField {pos len i : Nat} (a : Word64) (hi : i < 64) :
    (extField a pos len).getLsbD i = (decide (i < len) && a.getLsbD (pos + i)) := by
  rw [extField, bitsOf, BitVec.getLsbD_ofNat]
  simp [hi, Nat.testBit_mod_two_pow, Nat.testBit_div_two_pow, BitVec.testBit_toNat, Nat.add_comm]

theorem testBit_mask (pos len i : Nat) : ((2 ^ len - 1) * 2 ^ pos).testBit i = decide (pos ≤ i ∧ i < pos + len) := by
  rw [Nat.testBit_mul_two_pow, Nat.testBit_two_pow_sub_one]
  by_cases h : pos ≤ i
  · simp [h]; omega
  · simp [h]

theorem getLsbD_insField {pos len i : Nat} (a b : Word64) (hi : i < 64) :
    (insField b a pos len).getLsbD i = (if pos ≤ i ∧ i < pos + len then a.getLsbD (i - pos) else b.getLsbD i) := by
  have hshift : (a.toNat * 2 ^ pos).testBit i = (decide (pos ≤ i) && a.getLsbD (i - pos)) := Nat.testBit_mul_two_pow ..
  simp only [insField, BitVec.getLsbD_or, BitVec.getLsbD_and, BitVec.getLsbD_not, BitVec.getLsbD_ofNat, testBit_mask, hshift, hi,
    decide_true, Bool.true_and]
  by_cases h : pos ≤ i ∧ i < pos + len
  · simp [h]
  · simp [h]

/-! ### Time stamps (R65) -/

/-- The thread's state after `tstamp`: a stamp in rd, or a request that the frame takes along. -/
def Ctx.stamped (c : Ctx) (s : State) (r : Nat) (rd : GReg) (sel : BitVec 3) (off : Byte) : Ctx :=
  if sel = 0 then c.setGr rd (BitVec.ofNat 64 (s.islGtc (64 + r)))
  else if sel = 1 then c.setGr rd (BitVec.ofNat 64 (s.pkt c.pkt).stamp)
  else if sel = 2 then c.setGr rd (BitVec.ofNat 64 ((s.pkt c.pkt).ptpS % 2 ^ 32 * 2 ^ 32 + (s.pkt c.pkt).ptpNs % 2 ^ 30))
  else { c with stamps := c.stamps.filter (fun e => e.1 ≠ decide (sel = 5)) ++ [(decide (sel = 5), off.toNat)] }

theorem samePlace_stamped (c : Ctx) (s : State) (r : Nat) (rd : GReg) (sel : BitVec 3) (off : Byte) :
    SamePlace c (Ctx.stamped c s r rd sel off) := by
  unfold Ctx.stamped
  split
  · exact samePlace_setGr ..
  · split
    · exact samePlace_setGr ..
    · split
      · exact samePlace_setGr ..
      · exact ⟨rfl, rfl, rfl⟩

theorem issue_tstamp {t : ThreadId} {rd : GReg} {sel : BitVec 3} {off : Byte} {c : Ctx} {s : State} (hs : badStamp sel rd = false)
    (h : Issues t (encT rd sel off) c s) (hn : NoHalt t s) (hm : MoreCode t c s) :
    GoesOn t (Ctx.next (Ctx.stamped c s t.race.val rd sel off)) s (exec (.tstamp t rd sel off) s) := by
  refine issue_retires hs h hn hm (samePlace_stamped ..) ?_
  have hsel (k : Nat) (hk : k < 8) : sel = BitVec.ofNat 3 k ↔ sel.toNat = k := by
    rw [BitVec.toNat_eq, BitVec.toNat_ofNat, Nat.mod_eq_of_lt hk]
  have e0 : sel = 0 ↔ sel.toNat = 0 := hsel 0 (by decide)
  have e1 : sel = 1 ↔ sel.toNat = 1 := hsel 1 (by decide)
  have e2 : sel = 2 ↔ sel.toNat = 2 := hsel 2 (by decide)
  have e5 : sel = 5 ↔ sel.toNat = 5 := hsel 5 (by decide)
  dsimp only
  split
  next h0 => rw [Ctx.stamped, if_pos (e0.2 h0), raceOf_thrNum]; rfl
  next h1 => rw [e1.2 h1]; rfl
  next h2 => rw [e2.2 h2]; rfl
  next h0 h1 h2 => rw [Ctx.stamped, if_neg (h0 ∘ e0.1), if_neg (h1 ∘ e1.1), if_neg (h2 ∘ e2.1), decide_eq_decide.2 e5]

/-- Settles O10: each of them writes its one register and goes on; the fields are read and replaced bit by bit
(`getLsbD_extField`, `getLsbD_insField`). -/
theorem movesAndFieldsWriteTheirRegister : Obligations.MovesAndFieldsWriteTheirRegister := by
  refine ⟨fun t rd ra rb imm pos len1 width sel off c s hn hm => ?_, fun a b pos len i _ _ _ hi =>
    ⟨getLsbD_extField a hi, getLsbD_insField a b hi⟩⟩
  have writes {w : Word32} {bad : Bool} {body : Nat → Ctx → State → State} (v : Word64) (hbad : bad = false)
      (h : Issues t w c s) (hb : body (thrNum t) c s = s.retire (thrNum t) (c.setGr rd v)) :
      GoesOn t (Ctx.next (c.setGr rd v)) s (issue t w bad s body) :=
    issue_retires hbad h hn hm (samePlace_setGr c rd v) hb
  exact ⟨fun h => writes _ rfl h rfl, fun h => writes _ rfl h rfl, fun h => writes _ rfl h rfl, fun h => writes _ rfl h rfl,
    fun h hw => writes _ (decide_eq_false (Nat.not_le.2 hw)) h rfl, fun h hs => issue_tstamp hs h hn hm⟩

/-! ### Numbers by bits -/

theorem testBit_bitsOf (v lo w i : Nat) : (bitsOf v lo w).testBit i = (decide (i < w) && v.testBit (lo + i)) := by
  rw [bitsOf, Nat.testBit_mod_two_pow, Nat.testBit_div_two_pow, Nat.add_comm]

/-- Bits lo to lo + w - 1 are those of `x`, the others those of `v`. -/
theorem testBit_putBits (v lo w x i : Nat) :
    (putBits v lo w x).testBit i = if lo ≤ i ∧ i < lo + w then x.testBit (i - lo) else v.testBit i := by
  have hsplit : putBits v lo w x = 2 ^ lo * (2 ^ w * (v / 2 ^ (lo + w)) + x % 2 ^ w) + v % 2 ^ lo := by
    have hv := Nat.div_add_mod v (2 ^ lo)
    have hw := Nat.div_add_mod (v / 2 ^ lo) (2 ^ w)
    rw [Nat.div_div_eq_div_mul, ← Nat.pow_add] at hw
    unfold putBits bitsOf
    generalize v / 2 ^ (lo + w) = hi at *
    generalize v / 2 ^ lo % 2 ^ w = mid at *
    have : v = 2 ^ lo * (2 ^ w * hi) + mid * 2 ^ lo + v % 2 ^ lo := by
      rw [← hw] at hv
      linarith [hv]
    have hmul : 2 ^ lo * (2 ^ w * hi + x % 2 ^ w) = 2 ^ lo * (2 ^ w * hi) + x % 2 ^ w * 2 ^ lo := by ring
    omega
  rw [hsplit, Nat.testBit_two_pow_mul_add _ (Nat.mod_lt _ (Nat.two_pow_pos lo)),
    Nat.testBit_two_pow_mul_add _ (Nat.mod_lt _ (Nat.two_pow_pos w)), Nat.testBit_mod_two_pow, Nat.testBit_mod_two_pow,
    Nat.testBit_div_two_pow]
  by_cases h1 : i < lo
  · simp [h1, show ¬ lo ≤ i by omega]
  · by_cases h2 : i - lo < w
    · simp [h1, h2, show lo ≤ i ∧ i < lo + w by omega]
    · simp [h1, h2, show ¬ i < lo + w by omega, show i - lo - w + (lo + w) = i by omega]

/-! ### The windows (R46, R47) -/

/-- A byte of the flow view is what was stored there last. -/
theorem fvByte_setFvByte (c : Ctx) (i j : Nat) (b : Byte) :
    fvByte (setFvByte c i b) j = if j = i then b else fvByte c j := by
  unfold fvByte setFvByte
  dsimp only
  rw [mget_mset]
  by_cases hw : j / 8 = i / 8
  · apply BitVec.eq_of_getLsbD_eq
    intro k hk
    have hlt : 8 * (j % 8) + k < 64 := by omega
    rw [if_pos hw, BitVec.getLsbD_ofNat, testBit_bitsOf, BitVec.toNat_ofNat, Nat.testBit_mod_two_pow, testBit_putBits, hw]
    by_cases hji : j = i
    · simp [hji, hk, BitVec.testBit_toNat]
      omega
    · rw [if_neg (by omega), if_neg hji, BitVec.getLsbD_ofNat, testBit_bitsOf]
      simp [hk, hlt]
  · rw [if_neg hw, if_neg (fun h => hw (by rw [h]))]

/-- A byte stored in space 0 to 2 is read back there, and no other byte of any window changes (R46). -/
theorem winByte_setWinByte (s : State) (r : Nat) (c : Ctx) {sp : Nat} (hsp : sp < 3) (a : Nat) (b : Byte) :
    (∀ i, s.winByte r (setWinByte c sp a b) sp i = if i = a then b else s.winByte r c sp i) ∧
      ∀ sp' i, sp' ≠ sp → s.winByte r (setWinByte c sp a b) sp' i = s.winByte r c sp' i := by
  obtain rfl | rfl | rfl : sp = 0 ∨ sp = 1 ∨ sp = 2 := by omega
  · refine ⟨fun i => ?_, fun sp' i h => ?_⟩
    · change hdrByte (s.pkt c.pkt) { c with hdr := mset noByte c.hdr a (some b) } i = if i = a then b else hdrByte (s.pkt c.pkt) c i
      simp only [hdrByte, mget_mset]
      by_cases hi : i = a
      · simp [hi]
      · simp [hi]
    · match sp', h with
      | 1, _ | 2, _ | _ + 3, _ => rfl
  · refine ⟨fun i => getByte_setByte c.md a i b, fun sp' i h => ?_⟩
    match sp', h with
    | 0, _ | 2, _ | _ + 3, _ => rfl
  · refine ⟨fun i => fvByte_setFvByte c a i b, fun sp' i h => ?_⟩
    match sp', h with
    | 0, _ | 1, _ | _ + 3, _ => rfl

/-- So are the bytes of a list (R46). -/
theorem winByte_setWinBytes (s : State) (r : Nat) {sp : Nat} (hsp : sp < 3) (l : List Byte) : ∀ (c : Ctx) (a : Nat),
    (∀ i, s.winByte r (setWinBytes c sp a l) sp i =
      if a ≤ i ∧ i < a + l.length then l.getD (i - a) 0 else s.winByte r c sp i) ∧
      ∀ sp' i, sp' ≠ sp → s.winByte r (setWinBytes c sp a l) sp' i = s.winByte r c sp' i := by
  induction l with
  | nil => exact fun c a => ⟨fun i => (if_neg (by simp only [List.length_nil]; omega)).symm, fun _ _ _ => rfl⟩
  | cons b l ih =>
    intro c a
    obtain ⟨hin, hout⟩ := winByte_setWinByte s r c hsp a b
    obtain ⟨ihin, ihout⟩ := ih (setWinByte c sp a b) (a + 1)
    refine ⟨fun i => ?_, fun sp' i h => (ihout sp' i h).trans (hout sp' i h)⟩
    rw [setWinBytes, ihin, hin, List.length_cons]
    by_cases h0 : i = a
    · simp [h0]
    · by_cases h1 : a + 1 ≤ i ∧ i < a + 1 + l.length
      · rw [if_pos h1, if_pos (by omega), show i - a = i - (a + 1) + 1 by omega, List.getD_cons_succ]
      · rw [if_neg h1, if_neg h0, if_neg (by omega)]

/-! ### Loads and stores -/

section
variable {t : ThreadId} {rd ra : GReg} {space size : BitVec 2} {x : Bool} {off : Byte} {c : Ctx} {s : State}

theorem watch_of_noWatch (h : NoWatch t s) (write : Bool) (sp a k : Nat) : s.watch (thrNum t) write sp a k = s :=
  watchAll_of_noWatch h write sp _

section
variable (h : Issues t (encM 0x04 rd space size x ra off) c s)
include h

theorem ld_outside (ha : winSize space.toNat < memAddr c x ra off + 2 ^ size.toNat) :
    exec (.ld t rd space size x ra off) s = .next (((s.exception (thrNum t) excWindow).issued (thrNum t) c
      (encM 0x04 rd space size x ra off)).boundary (thrNum t) c.task) :=
  (issue_next _ h).trans (by rw [if_pos ha])

variable (ha : memAddr c x ra off + 2 ^ size.toNat ≤ winSize space.toNat)
include ha

theorem ld_waits (hsp : space.toNat = 0) (hneed : hdrNeed (s.pkt c.pkt) (memAddr c x ra off) (2 ^ size.toNat) ≠ 0) :
    Waits t c (.hdr (hdrNeed (s.pkt c.pkt) (memAddr c x ra off) (2 ^ size.toNat))) s (exec (.ld t rd space size x ra off) s) :=
  issue_waits rfl h (by dsimp only; rw [if_neg (Nat.not_lt.2 ha), if_pos hsp, if_pos hneed])

theorem ld_reads (hn : NoHalt t s) (hw : NoWatch t s) (hm : MoreCode t c s)
    (hneed : space.toNat = 0 → hdrNeed (s.pkt c.pkt) (memAddr c x ra off) (2 ^ size.toNat) = 0)
    (hpool : s.poolBad t.race.val c space.toNat (memAddr c x ra off) (2 ^ size.toNat) = none) :
    GoesOn t (Ctx.next (c.setGr rd (BitVec.ofNat 64 (winNat space.toNat
      (s.winBytes t.race.val c space.toNat (memAddr c x ra off) (2 ^ size.toNat)))))) s
      (exec (.ld t rd space size x ra off) s) := by
  refine issue_retires rfl h hn hm (samePlace_setGr ..) ?_
  have hready : ¬ (if space.toNat = 0 then hdrNeed (s.pkt c.pkt) (memAddr c x ra off) (2 ^ size.toNat) else 0) ≠ 0 := by
    split
    next hsp => exact not_not.2 (hneed hsp)
    next => exact fun h => h rfl
  dsimp only
  rw [if_neg (Nat.not_lt.2 ha), if_neg hready, raceOf_thrNum, hpool, watch_of_noWatch hw, ite_self]

end

section
variable (h : Issues t (encM 0x05 rd space size x ra off) c s)
include h

theorem st_outside (ha : space.toNat = 3 ∨ winSize space.toNat < memAddr c x ra off + 2 ^ size.toNat) :
    exec (.st t rd space size x ra off) s = .next (((s.exception (thrNum t) excWindow).issued (thrNum t) c
      (encM 0x05 rd space size x ra off)).boundary (thrNum t) c.task) :=
  (issue_next _ h).trans (by rw [if_pos ha])

theorem st_writes (hn : NoHalt t s) (hw : NoWatch t s) (hm : MoreCode t c s)
    (ha : memAddr c x ra off + 2 ^ size.toNat ≤ winSize space.toNat) (hsp : space.toNat ≠ 3)
    (hdef : ¬ (space.toNat = 0 ∧ (s.pkt c.pkt).hasFrame = true ∧
      (s.pkt c.pkt).frame.length + 64 < memAddr c x ra off + 2 ^ size.toNat)) :
    GoesOn t (Ctx.next (setWinBytes c space.toNat (memAddr c x ra off)
      (if space.toNat = 0 then beBytes (2 ^ size.toNat) (c.gr rd).toNat else leBytes (2 ^ size.toNat) (c.gr rd).toNat))) s
      (exec (.st t rd space size x ra off) s) := by
  have hplace : ∀ l, SamePlace c (setWinBytes c space.toNat (memAddr c x ra off) l) := fun l => by
    rw [setWinBytes_only]
    exact ⟨rfl, rfl, rfl⟩
  have hbytes : storeBytes s c space.toNat (memAddr c x ra off) (2 ^ size.toNat) (c.gr rd) =
      (if space.toNat = 0 then beBytes (2 ^ size.toNat) (c.gr rd).toNat else leBytes (2 ^ size.toNat) (c.gr rd).toNat, s) := by
    unfold storeBytes
    dsimp only
    rw [if_neg hdef]
    split <;> rfl
  refine issue_retires rfl h hn hm (hplace _) ?_
  dsimp only
  rw [if_neg (not_or.2 ⟨hsp, Nat.not_lt.2 ha⟩), hbytes]
  dsimp only
  rw [watch_of_noWatch hw]

end

end

/-- Settles O11: each access by the bounds of its window, and what the bytes of a store leave in every window. -/
theorem loadsAndStoresMoveWindowBytes : Obligations.LoadsAndStoresMoveWindowBytes := by
  refine ⟨fun t rd space size x ra off c s => ?_, fun s r c sp a i l hsp _ => ?_⟩
  · refine ⟨fun h => ⟨ld_outside h, fun ha hsp hneed => ?_⟩, fun h ha => st_outside h ha, fun hn hw hm ha =>
      ⟨fun h hneed hpool => ld_reads h ha hn hw hm hneed hpool, fun h hsp hdef => st_writes h hn hw hm ha hsp hdef⟩⟩
    obtain ⟨u, hexec, hctx, hgate, hu⟩ := ld_waits h ha hsp hneed
    exact ⟨u, hexec, hctx, hgate, by rw [hu.1], by rw [hu.1]⟩
  · obtain ⟨hin, hout⟩ := winByte_setWinBytes s r hsp l c a
    refine ⟨fun j hj => ?_, fun hi => ?_, fun sp' _ hne => hout sp' i hne⟩
    · rw [hin, if_pos (by omega), Nat.add_sub_cancel_left]
    · rw [hin, if_neg (by omega)]

/-! ### Branches (R61 to R63) -/

/-- The outcome of an instruction that ends its task by exception `x` (R80). -/
def raised (t : ThreadId) (c : Ctx) (w : Word32) (x : Nat) (s : State) : Host.Outcome State Fault Refusal :=
  .next (((s.exception (thrNum t) x).issued (thrNum t) c w).boundary (thrNum t) c.task)

section
variable {t : ThreadId} {w : Word32} {bad : Bool} {c c' : Ctx} {s : State} {body : Nat → Ctx → State → State}
  (hbad : bad = false) (h : Issues t w c s)
include hbad h

theorem issue_raises {x : Nat} (hb : body (thrNum t) c s = s.exception (thrNum t) x) :
    issue t w bad s body = raised t c w x s := by
  subst hbad
  rw [issue_next body h, hb, raised]

/-- A jump goes to its target inside the image's code, and raises IMAGE outside it (R62). -/
theorem issue_jumps {a : Int} (ht : c'.task = c.task) (hi : c'.img = c.img) (hb : body (thrNum t) c s = s.goTo (thrNum t) c' a) :
    (0 ≤ a ∧ a < s.codeLen t.race.val c → NoHalt t s →
      GoesOn t { c' with pc := BitVec.ofInt 15 a } s (issue t w bad s body)) ∧
    (¬ (0 ≤ a ∧ a < s.codeLen t.race.val c) → issue t w bad s body = raised t c w excImage s) := by
  have hlen : s.codeLen (raceOf (thrNum t)) c' = s.codeLen t.race.val c := by
    rw [raceOf_thrNum]
    exact codeLen_congr _ rfl hi
  refine ⟨fun ha hn => issue_goesOn_from hbad h hn rfl (hb.trans ?_) ht, fun ha => issue_raises hbad h (hb.trans ?_)⟩
  · rw [State.goTo, hlen, if_pos ha]
  · rw [State.goTo, hlen, if_neg ha]

/-- One that falls through goes on at the next instruction, or raises IMAGE behind the last (R62). -/
theorem issue_falls (hb : body (thrNum t) c s = s.retire (thrNum t) c) :
    (MoreCode t c s → NoHalt t s → GoesOn t (Ctx.next c) s (issue t w bad s body)) ∧
    (¬ MoreCode t c s → issue t w bad s body = raised t c w excImage s) :=
  ⟨fun hm hn => issue_retires hbad h hn hm ⟨rfl, rfl, rfl⟩ hb,
    fun hm => (issue_jumps hbad h rfl rfl hb).2 fun ha => hm (by unfold MoreCode; omega)⟩

end

theorem task_setGr (c : Ctx) (r : GReg) (v : Word64) : (c.setGr r v).task = c.task := (samePlace_setGr c r v).1
theorem img_setGr (c : Ctx) (r : GReg) (v : Word64) : (c.setGr r v).img = c.img := (samePlace_setGr c r v).2.2

theorem badCond_of_lt {cond : BitVec 4} (h : cond.toNat < 0xD) : badCond cond = false := decide_eq_false (Nat.not_le.2 h)

/-- A branch on a result code is taken on `code` where its sense is 0, and on every other where it is 1 (R63). -/
theorem sense_met (v code : BitVec 4) (sense : Bool) : ((v == code) != sense) = true ↔ (v = code ↔ sense = false) := by
  cases sense with
  | false => simp
  | true => simp

theorem sense_unmet (v code : BitVec 4) (sense : Bool) : ¬ ((v == code) != sense) = true ↔ (v = code ↔ sense = true) := by
  cases sense with
  | false => simp
  | true => simp

/-- Settles O12: a branch that is taken jumps (`issue_jumps`), another falls through (`issue_falls`). -/
theorem branchesGoToTheirTargets : Obligations.BranchesGoToTheirTargets := by
  intro t cond code rd ra tag sense off c s n goal inside jump ended wB wL wC
  refine ⟨fun h hcond => ⟨fun htaken => ?_, fun hnot => ?_⟩, fun h => ?_, fun h => ?_, fun h => ⟨fun hpend => ?_, fun hdone hhit => ?_,
    fun hdone hmiss => ?_⟩⟩
  · exact issue_jumps (badCond_of_lt hcond) h rfl rfl (if_pos htaken)
  · exact issue_falls (badCond_of_lt hcond) h (if_neg (by simp [hnot]))
  · exact issue_jumps rfl h (task_setGr ..) (img_setGr ..) rfl
  · have hjump : (_ → _ → GoesOn t (jump c (c.gr ra).toNat) s (exec (.brReg t ra) s)) ∧
        (_ → exec (.brReg t ra) s = ended (encBR ra)) := issue_jumps rfl h rfl rfl rfl
    exact ⟨fun ha => hjump.1 (by omega), fun ha => hjump.2 (by omega)⟩
  · obtain ⟨u, hexec, hctx, hgate, hu⟩ : Waits t c (.reply tag) s (exec (.brRc t tag code sense off) s) :=
      issue_waits rfl h (if_pos hpend)
    exact ⟨u, hexec, hctx, hgate, by rw [hu.1], by rw [hu.1]⟩
  · exact issue_jumps rfl h rfl rfl ((if_neg hdone).trans (if_pos ((sense_met ..).2 hhit)))
  · exact issue_falls rfl h ((if_neg hdone).trans (if_neg ((sense_unmet ..).2 hmiss)))

/-! ### Reorder slots (R163) -/

theorem mem_of_mem_robDrain {e : RobSlot} {l : List RobSlot} : ∀ {blocked : List Nat}, e ∈ (robDrain l blocked).1 → e ∈ l := by
  induction l with
  | nil => exact fun h => h
  | cons x l ih =>
    intro blocked h
    unfold robDrain at h
    split at h
    · split at h
      · exact (List.mem_cons.1 h).elim (fun h => h ▸ List.mem_cons_self) fun h => List.mem_cons_of_mem _ (ih h)
      · exact List.mem_cons_of_mem _ (ih h)
    · exact (List.mem_cons.1 h).elim (fun h => h ▸ List.mem_cons_self) fun h => List.mem_cons_of_mem _ (ih h)

theorem race_bump (s : State) (a n r : Nat) : (s.bump a n).race r = s.race r := by
  rw [(bump_only s a n).1]
  rfl

theorem rob_leaveAll (s : State) (r q : Nat) (l : List Leaving) : ((s.leaveAll r l).race q).rob = (s.race q).rob := by
  refine List.foldlRecOn (motive := fun t : State => (t.race q).rob = (s.race q).rob) l _ rfl fun t ht x _ => ?_
  cases x with
  | toRing i => exact ht
  | toQueue d =>
    rw [State.leave, race_setRace]
    split
    next h => rw [← ht, h]
    next => exact ht

/-- From `x` to `y` nothing of a race has changed but what pauses it. -/
def OnlyPauses (x y : Race) : Prop := y = { x with pauseNtq := y.pauseNtq, pauseRob := y.pauseRob, pauseLeat := y.pauseLeat }

theorem race_pauses (s : State) (r q : Nat) : OnlyPauses (s.race q) ((s.pauses r).race q) := by
  have count (p : Bool) (t : State) (a : Nat) (h : OnlyPauses (s.race q) (t.race q)) :
      OnlyPauses (s.race q) ((if p then t.bump a 1 else t).race q) := by
    split
    · rw [race_bump]
      exact h
    · exact h
  unfold State.pauses
  refine count _ _ _ (count _ _ _ (count _ _ _ ?_))
  rw [race_setRace]
  split
  next h =>
    rw [h]
    rfl
  next => rfl

/-- A packet whose slot is taken away holds none. -/
theorem not_mem_rob_robDrop {s : State} {r k : Nat} {e : RobSlot} (he : e ∈ ((s.robDrop r k).race r).rob) : e.pkt ≠ k := by
  unfold State.robDrop State.robRun at he
  rw [race_pauses, rob_leaveAll, race_setRace_self] at he
  have hmem := mem_of_mem_robDrain he
  rw [show ((s.setRace r { s.race r with rob := (s.race r).rob.filter (fun e => e.pkt ≠ k) }).setPkt k _).race r = _ from
    race_setRace_self s r _] at hmem
  simpa using (List.mem_filter.1 hmem).2

theorem pkt_robRun (s : State) (r k : Nat) : (s.robRun r).pkt k = s.pkt k := by
  rw [robRun_races s r]
  rfl

theorem rob_pkt_robDrop (s : State) (r k : Nat) : ((s.robDrop r k).pkt k).rob = false := by
  unfold State.robDrop
  rw [pkt_robRun, pkt_setPkt_self]

/-! ### Waiting (R76 to R78) -/

theorem badWait_dc {m : BitVec 9} (h : m.toNat ≤ 15) : badWait 0 m = false := by
  simp [badWait]
  omega

theorem badWait_hdr {m : BitVec 9} (h : 1 ≤ m.toNat ∧ m.toNat ≤ 256) : badWait 1 m = false := by
  simp [badWait]
  omega

theorem badWait_rc {m : BitVec 9} (h : m.toNat ≤ 14) : badWait 2 m = false := by
  simp [badWait]
  omega

/-- The first tick at or after `t + n` ticks (R149). -/
theorem dlyDue_bounds (u n t : Nat) :
    dlyTick u ∣ dlyDue u n t ∧ t + n * dlyTick u ≤ dlyDue u n t ∧ dlyDue u n t < t + (n + 1) * dlyTick u := by
  have hpos : 0 < dlyTick u := by
    unfold dlyTick
    split <;> decide
  unfold dlyDue
  generalize dlyTick u = T at *
  have hdiv := Nat.div_add_mod (t + n * T + T - 1) T
  have hmod := Nat.mod_lt (t + n * T + T - 1) hpos
  rw [Nat.mul_comm] at hdiv
  exact ⟨Nat.dvd_mul_left _ _, by dsimp only; omega, by dsimp only; rw [Nat.add_mul]; omega⟩

section
variable {t : ThreadId} {c : Ctx} {s : State}

theorem issue_joins {w : Word32} {bad : Bool} {body : Nat → Ctx → State → State} (hbad : bad = false) (h : Issues t w c s)
    (hn : NoHalt t s) (hm : MoreCode t c s)
    (hb : body (thrNum t) c s = (s.join (thrNum t) c.prio).retire (thrNum t) c) :
    GoesOn t (Ctx.next c) (s.join (thrNum t) c.prio) (issue t w bad s body) :=
  issue_retires_from hbad h hn rfl rfl hm ⟨rfl, rfl, rfl⟩ hb

/-- An instruction after which its thread is free has no boundary. -/
theorem issue_frees {w : Word32} {bad : Bool} {body : Nat → Ctx → State → State} {u : State} (hbad : bad = false)
    (h : Issues t w c s) (hb : body (thrNum t) c s = u) (hu : (u.thr (thrNum t)).ctx = none) :
    issue t w bad s body = .next (u.issued (thrNum t) c w) := by
  subst hbad
  have hfree : ((u.issued (thrNum t) c w).thr (thrNum t)).ctx = none := by
    rw [(issued_only u t c w).1]
    exact hu
  rw [issue_next body h, hb, boundary_of_free c.task hfree]

theorem thr_placeDelay (s : State) (n u count : Nat) (c : Ctx) : ((s.placeDelay n u count c).thr n) = {} :=
  (freeThread_only s n).2.1

theorem delay_places {unit : BitVec 2} {x : Bool} {ra : GReg} {count : Half} (hbad : badDelay x ra count = false)
    (h : Issues t (encDelay unit x ra count) c s) (hm : MoreCode t c s) (hdc : c.dc = 0)
    (hk : (if x then (c.gr ra).toNat % 65536 else count.toNat) ≠ 0) (hroom : s.delayRoom t.race.val = true) :
    exec (.delay t unit x ra count) s =
      .next ((s.placeDelay (thrNum t) unit.toNat (if x then (c.gr ra).toNat % 65536 else count.toNat) (Ctx.next c)).issued
        (thrNum t) c (encDelay unit x ra count)) := by
  refine issue_frees hbad h ?_ (by rw [thr_placeDelay])
  dsimp only
  rw [raceOf_thrNum, if_neg (not_not.2 hdc), if_neg hk, if_neg (Nat.not_le.2 hm), if_pos hroom]
  rfl

theorem delay_yields {unit : BitVec 2} {x : Bool} {ra : GReg} {count : Half} (hbad : badDelay x ra count = false)
    (h : Issues t (encDelay unit x ra count) c s) (hn : NoHalt t s) (hm : MoreCode t c s) (hdc : c.dc = 0)
    (hk : (if x then (c.gr ra).toNat % 65536 else count.toNat) = 0) :
    GoesOn t (Ctx.next c) (s.join (thrNum t) c.prio) (exec (.delay t unit x ra count) s) := by
  refine issue_joins hbad h hn hm ?_
  dsimp only
  rw [if_neg (not_not.2 hdc), if_pos hk]

theorem ordrel_gives {h : Issues t encOrdrel c s} (hn : NoHalt t s) (hm : MoreCode t c s) (hrob : (s.pkt c.pkt).rob = true) :
    ∃ u, exec (.ordrel t) s = .next u ∧ (u.thr (thrNum t)).ctx = some (Ctx.next { c with ordrel := true }) ∧
      (∀ e ∈ (u.race t.race.val).rob, e.pkt ≠ c.pkt) ∧ (u.pkt c.pkt).rob = false ∧ u.mems = s.mems := by
  obtain ⟨v, hdrop⟩ : ∃ v, v = ((s.setPkt c.pkt { s.pkt c.pkt with ordrel := true }).bump (aRaceOrdrelCnt t.race.val) 1).robDrop
    t.race.val c.pkt := ⟨_, rfl⟩
  have hv : OnlyPackets s v := by
    rw [hdrop]
    exact (robDrop_packets _ _ _).after ((bump_races _ _ _).onlyPackets.after rfl)
  obtain ⟨u, hexec, hctx, -, hu⟩ : GoesOn t (Ctx.next { c with ordrel := true }) v (exec (.ordrel t) s) := by
    refine issue_retires_from rfl h hn (by rw [hv]) (by rw [hv]) hm ⟨rfl, rfl, rfl⟩ ?_
    dsimp only
    rw [if_pos hrob, raceOf_thrNum, hdrop]
  have hraces : u.races = v.races := by rw [hu.1]
  have hpkts : u.pkts = v.pkts := by rw [hu.1]
  have hmems : u.mems = v.mems := by rw [hu.1]
  refine ⟨u, hexec, hctx, fun e he => ?_, ?_, by rw [hmems, hv]⟩
  · unfold State.race at he
    rw [hraces, hdrop] at he
    exact not_mem_rob_robDrop he
  · unfold State.pkt
    rw [hpkts, hdrop]
    exact rob_pkt_robDrop _ _ _

end

/-- Settles O14: the waits by their conditions, the delay by its count, and the slot that `ordrel` gives back. -/
theorem waitsAndDelays : Obligations.WaitsAndDelays := by
  refine ⟨fun t m unit count c s hn hm => ⟨fun h hle hdc => ?_, fun h h1 h2 harr => ?_, fun h hle hrc => ?_, fun h hlt => ?_,
    fun x ra hbad h hdc => ⟨fun hk hroom => delay_places hbad h hm hdc hk hroom, fun hk => delay_yields hbad h hn hm hdc hk⟩,
    fun h => issue_joins rfl h hn hm rfl, fun h hrob => ?_, fun h hrob => ordrel_gives (h := h) hn hm hrob⟩, dlyDue_bounds⟩
  · exact issue_retires (badWait_dc hle) h hn hm ⟨rfl, rfl, rfl⟩ (if_pos hdc)
  · exact issue_retires (badWait_hdr ⟨h1, h2⟩) h hn hm ⟨rfl, rfl, rfl⟩ (if_pos harr)
  · exact issue_retires (badWait_rc hle) h hn hm ⟨rfl, rfl, rfl⟩ (if_neg hrc)
  · have hle : m.toNat ≤ 15 := by have := c.dc.isLt; omega
    obtain ⟨u, hexec, hctx, hgate, -⟩ : Waits t c (.dcLe m.toNat) s (exec (.wait t 0 m) s) :=
      issue_waits (badWait_dc hle) h (if_neg (Nat.not_le.2 hlt))
    exact ⟨u, hexec, hctx, hgate⟩
  · refine issue_retires rfl h hn hm ⟨rfl, rfl, rfl⟩ ?_
    dsimp only
    rw [if_neg (by simp [hrob])]

end Sys2Proof.Proofs

/-! PROOF. Threads and tasks: interrupts and exceptions, and how tasks are admitted, dealt and started (R62, R80, R107 to R109, R141 to
R160). -/

namespace Sys2Proof.Proofs

open Sys2Proof Sys2Proof.Machine Sys2Proof.Laws

/-! ### The end of a task by an exception (R80, R82) -/

theorem pkt_freeThread (s : State) (n k : Nat) : (s.freeThread n).pkt k = s.pkt k := by
  rw [(freeThread_only s n).1.1]
  rfl

theorem regN_freeThread_ne {s : State} {a : Nat} (n : Nat) (h : a ≠ aSafStatus) : (s.freeThread n).regN a = s.regN a := by
  have hcover (t : State) : t.haltCover.regN a = t.regN a := by
    unfold State.haltCover State.coverageEnd
    split
    · rfl
    · rw [regN_setRegN, if_neg h]
  exact hcover _

theorem regN_bump {s : State} {a : Nat} (b n : Nat) (h : NotOvf a) : (s.bump b n).regN a = s.regN a :=
  congrArg BitVec.toNat ((bump_only s b n).2 a h)

theorem exception_eq {s : State} {n : Nat} {c : Ctx} (code : Nat) (h : (s.thr n).ctx = some c) :
    s.exception n code = (s.freeThread n).excEnd c.pkt code := by
  unfold State.exception
  rw [h]

/-- TRAP_EN of the packet's race decides between a trap and a drop. -/
theorem excEnd_freeThread (s : State) (n k code : Nat) :
    (s.freeThread n).excEnd k code =
      (if bitOf (s.regN (aRaceExcCfg (s.pkt k).race)) code && (s.pkt k).hasFrame then
        ((s.freeThread n).bump (aRaceExcCnt (s.pkt k).race code) 1).trapNow k
          (((s.freeThread n).bump (aRaceExcCnt (s.pkt k).race code) 1).fld (aRaceExcCfg (s.pkt k).race) 20 6) code 3
      else ((s.freeThread n).bump (aRaceExcCnt (s.pkt k).race code) 1).dropPkt k) := by
  have hcfg : (((s.freeThread n).bump (aRaceExcCnt (s.pkt k).race code) 1).regN (aRaceExcCfg (s.pkt k).race)) =
      s.regN (aRaceExcCfg (s.pkt k).race) := by
    rw [regN_bump, regN_freeThread_ne]
    · unfold aRaceExcCfg aSafStatus; omega
    · intro u hu
      unfold aRaceExcCfg aCntOvf
      omega
  unfold State.excEnd
  dsimp only
  rw [pkt_freeThread, hcfg]

theorem exception_ends {s : State} {n : Nat} {c : Ctx} (code : Nat) (h : (s.thr n).ctx = some c) :
    let u := s.exception n code
    (u.thr n).ctx = none ∧ (∀ k ∈ u.comps, k.thread ≠ n) ∧ u.mems = s.mems := by
  obtain ⟨hfree, hthr, hcomps⟩ := freeThread_only s n
  have hend := excEnd_packets (s.freeThread n) c.pkt code
  rw [exception_eq code h]
  refine ⟨by rw [hend.thr, hthr], fun k hk => ?_, ?_⟩
  · rw [hend] at hk
    rw [hcomps] at hk
    simpa using (List.mem_filter.1 hk).2
  · rw [hend, hfree.1]

/-! ### Interrupts (R107 to R109) -/

section
variable {t : ThreadId} {e : Bool} {s : State}

/-- At a safe point, and before no faulty word, the thread takes the interrupt that comes first. -/
theorem interruptTaken_takes (hr : s.runs = true) (hm : (s.thr (thrNum t)).mstep = false) (ha : (s.thr (thrNum t)).atSafe = true)
    (hb : s.badService (thrNum t) = none) :
    exec (.interruptTaken t e) s =
      .next (s.takeInt (thrNum t) { (s.thr (thrNum t)).ints with ecc := (s.thr (thrNum t)).ints.ecc || e }) := by
  change execInterruptTaken t e s = _
  unfold execInterruptTaken
  dsimp only
  rw [if_pos ⟨hr, by rw [hm]; rfl, ha⟩, hb]

theorem badService_of_ctx {n : Nat} {c : Ctx} (h : (s.thr n).ctx = some c) : s.badService n = none := by
  unfold State.badService
  dsimp only
  rw [h]

theorem cluOf_thrNum (t : ThreadId) : cluOf (thrNum t) % 12 = t.cluster.val := by
  have := t.cluster.isLt
  have := t.engine.isLt
  have := t.thread.isLt
  unfold cluOf thrNum
  omega

end

/-- A halt request halts the thread, and is taken by that (R108, R631). -/
theorem haltRequest_halts {s : State} {n : Nat} {c : Ctx} (hc : (s.thr n).ctx = some c) :
    let u := (s.setThr n { s.thr n with ints := {} }).haltThread n .request
    (u.thr n).halted = some .request ∧ (u.thr n).ctx = some c ∧ (u.thr n).ints = {} ∧ u.pkts = s.pkts ∧ u.mems = s.mems := by
  obtain ⟨hu, hthr⟩ := haltThread_only (s.setThr n { s.thr n with ints := {} }) n .request
  dsimp only
  refine ⟨by rw [hthr], ?_, ?_, by rw [hu.1, setThr_pkts], by rw [hu.1, setThr_mems]⟩
  · rw [hthr, thr_setThr_self]
    exact hc
  · rw [hthr, thr_setThr_self]

section
variable {t : ThreadId} {s : State} (hr : s.runs = true) (hm : (s.thr (thrNum t)).mstep = false)
  (ha : (s.thr (thrNum t)).atSafe = true) (hh : (s.thr (thrNum t)).halted = none)
include hr hm ha hh

/-- The order of R109 on a packet thread. -/
theorem interruptTaken_thread {c : Ctx} (hc : (s.thr (thrNum t)).ctx = some c) (e : Bool) :
    exec (.interruptTaken t e) s =
      let i := (s.thr (thrNum t)).ints
      .next (if e || i.ecc then (s.exception (thrNum t) excEcc).safety (srcCluster t.race.val t.cluster.val) 0x0220 (thrNum t) 5
        else if i.abort then s.exception (thrNum t) excAbort
        else if i.watchdog then s.exception (thrNum t) excWatchdog
        else if i.halt then
          (s.setThr (thrNum t) { s.thr (thrNum t) with ints := { i with ecc := i.ecc || e, halt := false } }).haltThread
            (thrNum t) .request
        else s.setThr (thrNum t) { s.thr (thrNum t) with ints := { i with ecc := i.ecc || e, drain := false } }) := by
  rw [interruptTaken_takes hr hm ha (badService_of_ctx hc)]
  simp only [State.takeInt, hh, hc, raceOf_thrNum, cluOf_thrNum, Option.isSome_none, Bool.false_eq_true, if_false, Bool.or_comm]

/-- The order of R109 on a service routine (R108). -/
theorem interruptTaken_service {k : Token} (hc : (s.thr (thrNum t)).ctx = none) (hk : (s.thr (thrNum t)).svc = some k)
    (hb : s.badService (thrNum t) = none) (e : Bool) :
    exec (.interruptTaken t e) s =
      let i := (s.thr (thrNum t)).ints
      .next (if e || i.ecc then (s.endService (thrNum t)).safety (srcCluster t.race.val t.cluster.val) 0x0220 (thrNum t) 5
        else if i.abort then s.endService (thrNum t)
        else if i.halt then
          (s.setThr (thrNum t) { s.thr (thrNum t) with ints := { i with ecc := i.ecc || e, halt := false } }).haltThread
            (thrNum t) .request
        else if i.drain then s.endService (thrNum t)
        else s) := by
  rw [interruptTaken_takes hr hm ha hb]
  simp only [State.takeInt, hh, hc, hk, raceOf_thrNum, cluOf_thrNum, Option.isSome_none, Bool.false_eq_true, if_false, Bool.or_comm]

theorem thread_interrupts {c : Ctx} (hc : (s.thr (thrNum t)).ctx = some c) (e : Bool) :
    (e || (s.thr (thrNum t)).ints.ecc → exec (.interruptTaken t e) s =
      .next ((s.exception (thrNum t) excEcc).safety (srcCluster t.race.val t.cluster.val) 0x0220 (thrNum t) 5)) ∧
    ((s.thr (thrNum t)).ints.ecc = false → (s.thr (thrNum t)).ints.abort = true →
      exec (.interruptTaken t false) s = .next (s.exception (thrNum t) excAbort)) ∧
    ((s.thr (thrNum t)).ints.ecc = false → (s.thr (thrNum t)).ints.abort = false → (s.thr (thrNum t)).ints.watchdog = true →
      exec (.interruptTaken t false) s = .next (s.exception (thrNum t) excWatchdog)) ∧
    ((s.thr (thrNum t)).ints = { halt := true } →
      ∃ u, exec (.interruptTaken t false) s = .next u ∧ (u.thr (thrNum t)).halted = some .request ∧
        (u.thr (thrNum t)).ctx = some c ∧ (u.thr (thrNum t)).ints = {} ∧ u.pkts = s.pkts ∧ u.mems = s.mems) := by
  have takes := interruptTaken_thread hr hm ha hh hc
  refine ⟨fun he => ?_, fun he hab => ?_, fun he hab hw => ?_, fun hi => ⟨_, (takes false).trans ?_, haltRequest_halts hc⟩⟩
  · simp only [takes, he, if_true]
  · simp only [takes, he, hab, Bool.or_self, Bool.false_eq_true, if_false, if_true]
  · simp only [takes, he, hab, hw, Bool.or_self, Bool.false_eq_true, if_false, if_true]
  · simp only [hi, Bool.or_self, Bool.false_eq_true, if_false, if_true]

theorem service_interrupts {k : Token} (hc : (s.thr (thrNum t)).ctx = none) (hk : (s.thr (thrNum t)).svc = some k)
    (hb : s.badService (thrNum t) = none) (e : Bool) :
    (e || (s.thr (thrNum t)).ints.ecc → exec (.interruptTaken t e) s =
      .next ((s.endService (thrNum t)).safety (srcCluster t.race.val t.cluster.val) 0x0220 (thrNum t) 5)) ∧
    ((s.thr (thrNum t)).ints.ecc = false → (s.thr (thrNum t)).ints.abort = true ∨
        ((s.thr (thrNum t)).ints.halt = false ∧ (s.thr (thrNum t)).ints.drain = true) →
      exec (.interruptTaken t false) s = .next (s.endService (thrNum t))) := by
  have takes := interruptTaken_service hr hm ha hh hc hk hb
  refine ⟨fun he => ?_, fun he hend => ?_⟩
  · simp only [takes, he, if_true]
  · obtain hab | ⟨hhalt, hdrain⟩ := hend
    · simp only [takes, he, hab, Bool.or_self, Bool.false_eq_true, if_false, if_true]
    · simp only [takes, he, hhalt, hdrain, Bool.or_self, Bool.false_eq_true, if_false, if_true, ite_self]

end

/-- Settles O17: the interrupts by the order of R109, and the end of a task by an exception. -/
theorem interruptsAndExceptionsEndTasks : Obligations.InterruptsAndExceptionsEndTasks := by
  refine ⟨?_, ?_, ?_⟩
  · intro t e c s n x hr hm ha hh hc
    exact thread_interrupts hr hm ha hh hc e
  · intro t e k s n x hr hm ha hh hc hk hb
    exact service_interrupts hr hm ha hh hc hk hb e
  · intro n code c s hc
    obtain ⟨hctx, hcomps, hmems⟩ := exception_ends code hc
    exact ⟨hctx, hcomps, (exception_eq code hc).trans (excEnd_freeThread s n c.pkt code), hmems⟩

/-! ### Ready lists (R147) -/

/-- What a sparse map gives is an entry of it, or the default. -/
theorem mget_induction {α : Type} {P : α → Prop} {d : Nat → α} {m : SMap α} (k : Nat) (hd : P (d k)) (hm : ∀ e ∈ m, P e.2) :
    P (mget d m k) := by
  induction m with
  | nil => exact hd
  | cons e m ih =>
    unfold mget
    split
    · exact hm _ List.mem_cons_self
    · exact ih fun e he => hm e (List.mem_cons_of_mem _ he)

theorem not_mem_ready_unready (s : State) (n p : Nat) : n ∉ mget noThreads ((s.unready n).clu (cluOf n)).ready p := by
  unfold State.unready
  rw [clu_setClu_self]
  refine mget_induction (P := fun l => n ∉ l) p List.not_mem_nil fun e he => ?_
  obtain ⟨x, -, rfl⟩ := List.mem_map.1 (List.mem_filter.1 he).1
  simp

/-- A thread that joins a ready list stands at its tail, and nowhere before (R147). -/
theorem join_tail (s : State) (n p : Nat) :
    ∃ l, mget noThreads ((s.join n p).clu (cluOf n)).ready p = l ++ [n] ∧ n ∉ l := by
  refine ⟨_, ?_, not_mem_ready_unready s n p⟩
  unfold State.join
  dsimp only
  rw [clu_setClu_self]
  exact mget_mset_self _ _ _ _

/-! ### Admission and dealing (R44, R62, R141 to R147, R159, R160) -/

section
variable {race : RaceId} {s : State} {k : Nat} {kl : List Nat} (hr : s.runs = true)
include hr

theorem parserAdmit_admits (hs : (s.race race.val).sluice = k :: kl) (hp : (s.race race.val).paused = false)
    (hh : (s.race race.val).held = []) (hl : (s.race race.val).leat = [])
    (hb : (s.race race.val).bareWaits s.clk.gtc = false) (hc : (s.pkt k).cells ≠ []) (hw : s.walkWaits k = false) :
    exec (.parserAdmit race) s = .next (((((s.setRace race.val { s.race race.val with
        sluice := kl, robMax := max (s.race race.val).robMax ((s.race race.val).rob.length + 1)
        rob := (s.race race.val).rob ++ [{ port := (s.pkt k).port, pkt := k, at_ := s.clk.gtc }] }).setPkt k
      { s.pkt k with rob := true, admitted := s.clk.gtc }).occur (64 + race.val) 0x010 1).pauses race.val).admitPass k) := by
  change execParserAdmit race s = _
  unfold execParserAdmit
  dsimp only
  rw [hs]
  exact if_pos ⟨hr, hp, hh, hl, hb, hc, hw⟩

theorem leatAdmit_admits (hl : (s.race race.val).leat = k :: kl) (hn : (s.race race.val).ntq.length < 1024)
    (hh : (s.race race.val).held = []) (hw : s.walkWaits k = false) :
    exec (.leatAdmit race) s = .next ((((s.setRace race.val { s.race race.val with leat := kl }).occur (64 + race.val) 0x011 1).pauses
      race.val).admitPass k) := by
  change execLeatAdmit race s = _
  unfold execLeatAdmit
  dsimp only
  rw [hl]
  exact if_pos ⟨hr, hn, hh, hw⟩

theorem heldPassEnqueue_enters {x : Task} {xl : List Task} (hh : (s.race race.val).held = x :: xl)
    (hn : (s.race race.val).ntq.length < 1024) :
    exec (.heldPassEnqueue race) s = .next ((s.setRace race.val { s.race race.val with
      held := xl, ntq := (s.race race.val).ntq ++ [x] }).pauses race.val) := by
  change execHeldPassEnqueue race s = _
  unfold execHeldPassEnqueue
  dsimp only
  rw [hh]
  exact if_pos ⟨hr, hn⟩

theorem taskDeal_deals {x : Task} {xl : List Task} {p n : Nat} (hq : (s.race race.val).ntq = x :: xl)
    (hp : s.nextPos race.val = some (p, n)) :
    exec (.taskDeal race) s = .next ((((s.setRace race.val { s.race race.val with ntq := xl, rr := (p + 1) % 192 }).begin_ n
      { x.ctx with start := s.clk.gtc }).occur (64 + race.val) 0x012 1).pauses race.val) := by
  change execTaskDeal race s = _
  unfold execTaskDeal
  dsimp only
  rw [hq, hp]
  exact if_pos hr

theorem dueTaskTake_takes {cluster : ClusterId} {d : Delayed} {n : Nat}
    (hd : bestDue (race.val * 12 + cluster.val) (s.race race.val).due = some d)
    (hp : s.pickThread (race.val * 12 + cluster.val) = some n) (hdr : (s.clu (race.val * 12 + cluster.val)).drain = false)
    (hoff : s.cluOff (race.val * 12 + cluster.val) = false) :
    exec (.dueTaskTake race cluster) s = .next ((s.setRace race.val { s.race race.val with
      due := (s.race race.val).due.erase d }).startOn n (s.resumed d.ctx)) := by
  change execDueTaskTake race cluster s = _
  unfold execDueTaskTake
  dsimp only
  rw [hd, hp]
  exact if_pos ⟨hr, hdr, hoff⟩

end

/-- A started task holds its thread, at the tail of the ready list of its priority; no other thread changes. -/
theorem startOn_starts (s : State) (n : Nat) (c : Ctx) :
    let u := s.startOn n c
    (u.thr n).ctx = some { c with task := s.nextTask } ∧ u.nextTask = s.nextTask + 1 ∧ (∀ m, m ≠ n → u.thr m = s.thr m) ∧
      (∃ l, mget noThreads (u.clu (cluOf n)).ready c.prio = l ++ [n] ∧ n ∉ l) ∧ u.pkts = s.pkts ∧ u.mems = s.mems := by
  refine ⟨?_, rfl, fun m hm => ?_, join_tail _ n c.prio, rfl, rfl⟩
  · exact congrArg Thread.ctx (thr_setThr_self s n { s.thr n with ctx := some { c with task := s.nextTask } })
  · exact (setThr_onlyThread s n { s.thr n with ctx := some { c with task := s.nextTask } }).2 m hm

/-- Settles O22: what each command takes from its queue, and what a started task holds. -/
theorem passesAreAdmittedAndDealt : Obligations.PassesAreAdmittedAndDealt := by
  refine ⟨?_, ?_⟩
  · intro race cluster k p n kl x xl d s hr r z
    exact ⟨parserAdmit_admits hr, leatAdmit_admits hr, heldPassEnqueue_enters hr, taskDeal_deals hr, dueTaskTake_takes hr⟩
  · intro n c s u
    exact ⟨fun h => if_neg (Nat.not_le.2 h), fun h => if_pos h, startOn_starts s n c⟩

end Sys2Proof.Proofs

/-! PROOF. Units and endings: what slices, lookups, meters and hashes do with their operations, how operations join them, and how a
task ends (R66 to R79). -/

namespace Sys2Proof.Proofs

open Sys2Proof Sys2Proof.Machine Sys2Proof.Laws

/-! ### Home slices (R225, R226, R236, R247) -/

theorem slice_setSlice_self (s : State) (sl : Nat) (x : Slice) : (s.setSlice sl x).slice sl = x := mget_mset_self _ _ _ _

section
variable {slice : SliceId} {o : FlowOp} {l : List FlowOp} {s : State} (hr : s.tablesRun = true)
include hr

theorem flowOpApply_applies (ho : s.nextOp slice.val = some o)
    (hm : s.mergeInto o (takeOut o (s.slice slice.val).queue) = none) :
    exec (.flowOpApply slice) s = .next ((s.setSlice slice.val { s.slice slice.val with
      queue := takeOut o (s.slice slice.val).queue }).applyAt slice.val o false) := by
  change execFlowOpApply slice s = _
  simp only [execFlowOpApply, hr, ho, hm, if_true]

theorem flowOpApply_merges (ho : s.nextOp slice.val = some o)
    (hm : s.mergeInto o (takeOut o (s.slice slice.val).queue) = some l) :
    exec (.flowOpApply slice) s =
      .next ((s.setSlice slice.val { s.slice slice.val with queue := l }).bump (aMstCnt slice.val 6) 1) := by
  change execFlowOpApply slice s = _
  simp only [execFlowOpApply, hr, ho, hm, if_true]

/-- The oldest held operation is sent, unless its thread has ended. -/
theorem missQueueRoom_takes (hh : (s.slice slice.val).held = o :: l) (hm : s.missFull slice.val = false) :
    exec (.missQueueRoom slice) s =
      let u := s.setSlice slice.val { s.slice slice.val with held := l }
      .next (if u.alive o.src then u.releaseHeld slice.val o else u) := by
  change execMissQueueRoom slice s = _
  simp only [execMissQueueRoom, hh, hr, hm, Bool.not_false, and_self, if_true]
  split <;> rfl

/-- A host's joins the end of the queue (R280). -/
theorem missQueueRoom_host (hh : (s.slice slice.val).held = o :: l) (hm : s.missFull slice.val = false)
    (hs : ∃ c, o.src = .host c) :
    ∃ v, exec (.missQueueRoom slice) s = .next v ∧ (v.slice slice.val).held = l ∧
      (v.slice slice.val).queue = (s.slice slice.val).queue ++ [o] ∧ v = { s with mst := v.mst } := by
  obtain ⟨c, hc⟩ := hs
  refine ⟨(s.setSlice slice.val { s.slice slice.val with held := l }).sendFlow slice.val o, ?_, ?_, ?_, rfl⟩
  · rw [missQueueRoom_takes hr hh hm]
    simp only [State.alive, State.releaseHeld, hc, if_true]
  · rw [State.sendFlow, slice_setSlice_self, slice_setSlice_self]
  · rw [State.sendFlow, slice_setSlice_self, slice_setSlice_self]

/-- The oldest operation that waits for the journal is applied, unless its thread has been ended (R247). -/
theorem journalRoom_takes (hj : (s.slice slice.val).jwait = o :: l) :
    exec (.journalRoom slice) s =
      let u := s.setSlice slice.val { s.slice slice.val with jwait := l }
      .next (if u.stands o then u.applyAt slice.val o true else u) := by
  change execJournalRoom slice s = _
  simp only [execJournalRoom, hj, hr, if_true]
  split <;> rfl

end

/-! ### Lookups, meters and hashes (R74, R195, R271, R291, R382) -/

/-- The result of a lookup: the entry's data, all ones where there is none (R74). -/
def foundData : Option EmEntry → Word64
  | some x => BitVec.ofNat 64 x.data
  | none => 0xFFFFFFFFFFFFFFFF

section
variable {race : RaceId} {s : State} (hr : s.runs = true)
include hr

/-- The lookup is answered; one that asks to learn joins the learn queue, or finds it or its partition's quota full. -/
theorem emLookupApply_answers {e : EmOp} {el : List EmOp} {f : Option EmEntry} {u : State}
    (hq : (s.race race.val).emq = e :: el)
    (hf : (s.setRace race.val { s.race race.val with emq := el }).emLookup race.val e.part e.type e.key = (f, u)) :
    let res := foundData f
    let code := if f.isSome then rcHit else rcMiss
    let full := 256 ≤ (u.race race.val).learnq.length ∨ (f.isNone = true ∧ u.emQuota e.part ≤ u.emHeld race.val e.part)
    (e.learn = none ∨ asksLearn e f = false →
      exec (.emLookupApply race) s = .next (u.complete 0 e.src res code [] false)) ∧
    (∀ data, e.learn = some data → asksLearn e f = true →
      (full → exec (.emLookupApply race) s = .next ((u.bump (aEmtCnt race.val 5) 1).complete 0 e.src res rcFull [] false)) ∧
      (¬ full → exec (.emLookupApply race) s = .next ((u.setRace race.val
        { u.race race.val with learnq := (u.race race.val).learnq ++
            [{ key := e.key, type := e.type, data := data, part := e.part, dom := e.dom, port := e.port,
               ekey := e.seen }] }).complete 0 e.src res code [] false))) := by
  have hexec : exec (.emLookupApply race) s = execEmLookupApply race s := rfl
  simp only [execEmLookupApply, hq, hr, hf, if_true] at hexec
  refine ⟨fun h => ?_, fun data hd hask => ⟨fun hfull => ?_, fun hroom => ?_⟩⟩
  · rw [hexec]
    obtain hn | hask := h
    · rw [hn]
      rfl
    · split
      · exact if_neg (by simp [hask])
      · rfl
  · rw [hexec, hd]
    exact (if_pos hask).trans (if_pos hfull)
  · rw [hexec, hd]
    exact (if_pos hask).trans (if_neg hroom)

theorem lpmLookupApply_finds {p : LpmOp} {pl : List LpmOp} (hq : (s.race race.val).lpmq = p :: pl) (ht : p.table < 4096)
    (ho : s.ownsLpm p.part p.table = true) :
    exec (.lpmLookupApply race) s =
      let t := s.setRace race.val { s.race race.val with lpmq := pl }
      .next (match lpmBest p.v6 p.table p.addr s.cls.lpm with
        | some x => if x.bad then t.complete 0 p.src 0xFFFFFFFFFFFFFFFF rcMiss [] false
                    else t.complete 0 p.src (BitVec.ofNat 64 (x.data.toNat + x.len * 2 ^ 32)) rcHit [] false
        | none => t.complete 0 p.src 0xFFFFFFFFFFFFFFFF rcMiss [] false) := by
  change execLpmLookupApply race s = _
  have howns (x : Race) : (s.setRace race.val x).ownsLpm p.part p.table = true := ho
  simp only [execLpmLookupApply, hq, hr, howns, Nat.not_le.2 ht, Bool.not_true, Bool.false_eq_true, or_self, if_true, if_false,
    setRace_cls]
  cases lpmBest p.v6 p.table p.addr s.cls.lpm with
  | none => rfl
  | some x =>
    dsimp only
    split <;> rfl

theorem lpmLookupApply_misses {p : LpmOp} {pl : List LpmOp} (hq : (s.race race.val).lpmq = p :: pl)
    (ho : 4096 ≤ p.table ∨ s.ownsLpm p.part p.table = false) :
    exec (.lpmLookupApply race) s = .next (((s.setRace race.val { s.race race.val with lpmq := pl }).bump
      (aClsCnt race.val 6) 1).complete 0 p.src 0xFFFFFFFFFFFFFFFF rcMiss [] false) := by
  change execLpmLookupApply race s = _
  have hmiss (x : Race) : 4096 ≤ p.table ∨ (!(s.setRace race.val x).ownsLpm p.part p.table) = true :=
    ho.imp id fun h => congrArg not h
  simp only [execLpmLookupApply, hq, hr, if_true]
  exact if_pos (hmiss _)

theorem meterApply_denies {m : MeterOp} {ml : List MeterOp} (hq : s.weirq = m :: ml)
    (ho : s.owns m.part .mtr m.meter = false ∨ s.ownsProf m.part .mpr (s.meterAt m.meter).prof = false) :
    exec .meterApply s = .next (({ s with weirq := ml }.bump (aQshWeirCnt m.part 3) 1).complete srcWeir m.src
      0xFFFFFFFFFFFFFFFF rcDenied [] false) := by
  change execMeterApply s = _
  simp only [execMeterApply, hq, hr, if_true]
  exact if_pos (ho.imp (fun h => congrArg not h) fun h => congrArg not h)

theorem meterApply_meters {m : MeterOp} {ml : List MeterOp} (hq : s.weirq = m :: ml) (ho : s.owns m.part .mtr m.meter = true)
    (hp : s.ownsProf m.part .mpr (s.meterAt m.meter).prof = true) :
    exec .meterApply s =
      let r := meterRun (s.mprof (s.meterAt m.meter).prof) (s.meterAt m.meter) (m.bytes % 65536) (if m.aware then m.colour else 0)
        (s.islGtc 88)
      .next ((({ s with weirq := ml }.setMeter m.meter r.2).bump (aQshWeirCnt m.part r.1) 1).complete srcWeir m.src
        (BitVec.ofNat 64 r.1) rcOk [] false) := by
  have hmay : ¬ ((!s.owns m.part .mtr m.meter) = true ∨ (!s.ownsProf m.part .mpr (s.meterAt m.meter).prof) = true) := by
    simp [ho, hp]
  change execMeterApply s = _
  simp only [execMeterApply, hq, hr, if_true]
  exact if_neg hmay

theorem hashApply_answers {cluster : ClusterId} {h : HashOp} {hl : List HashOp}
    (hq : (s.clu (race.val * 12 + cluster.val)).hashq = h :: hl) :
    exec (.hashApply race cluster) s = .next ((s.setClu (race.val * 12 + cluster.val) { s.clu (race.val * 12 + cluster.val) with
      hashq := hl }).complete 0 h.src (s.hashResult h) 1 [] false) := by
  change execHashApply race cluster s = _
  simp only [execHashApply, hq, hr, if_true]

end

/-- Settles O19: the slices' queues by what stands in front and by the room behind them, then each of the other units by its
front operation. -/
theorem unitsApplyTheirOperations : Obligations.UnitsApplyTheirOperations := by
  refine ⟨?_, ?_⟩
  · intro slice o l s hr sl x
    refine ⟨flowOpApply_applies hr, flowOpApply_merges hr, fun hh hm => ⟨fun ha => ?_, fun ha => ?_, missQueueRoom_host hr hh hm⟩,
      fun hj => ⟨fun ha => ?_, fun ha => ?_⟩⟩
    · exact (missQueueRoom_takes hr hh hm).trans (congrArg _ (if_pos ha))
    · exact (missQueueRoom_takes hr hh hm).trans (congrArg _ (if_neg (by rw [ha]; decide)))
    · exact (journalRoom_takes hr hj).trans (congrArg _ (if_pos ha))
    · exact (journalRoom_takes hr hj).trans (congrArg _ (if_neg (by rw [ha]; decide)))
  · intro race cluster e el p pl m ml h hl s hr r ones k
    exact ⟨fun hq => emLookupApply_answers hr hq rfl, fun hq => ⟨lpmLookupApply_finds hr hq, lpmLookupApply_misses hr hq⟩,
      meterApply_denies hr, meterApply_meters hr, hashApply_answers hr⟩

/-! ### Asynchronous operations (R66 to R74) -/

theorem badTag_of_ne {tag : GReg} (h : tag.val ≠ 15) : badTag tag = false := decide_eq_false h

/-- A thread's state with one more operation outstanding (R66). -/
def Ctx.pending (c : Ctx) (tag : GReg) : Ctx := { c.setRc tag.val 0 with dc := c.dc + 1 }

theorem outstanding_of_room {c : Ctx} (s : State) (tag : GReg) (h : c.dc ≠ 15) :
    s.outstanding c tag.val = (Ctx.pending c tag, s) := if_neg h

/-- With all bytes of the header there, no read waits for them (R47). -/
theorem hdrNeed_of_arrived {p : Packet} (h : p.hlen ≤ p.arrived) (off : Nat) : ∀ n, hdrNeed p off n = 0
  | 0 => rfl
  | n + 1 => by
    rw [hdrNeed, if_neg (by omega)]
    exact hdrNeed_of_arrived h off n

/-- The state with an operation at the end of the queue of the hash unit of thread `t`'s cluster. -/
def joinHash (s : State) (t : ThreadId) (o : HashOp) : State :=
  s.setClu (cluOf (thrNum t)) { s.clu (cluOf (thrNum t)) with hashq := (s.clu (cluOf (thrNum t))).hashq ++ [o] }

section
variable {t : ThreadId} {w : Word32} {bad : Bool} {c : Ctx} {s : State} {body : Nat → Ctx → State → State} {rd tag : GReg}
  (hn : NoHalt t s) (hm : MoreCode t c s) (hdc : c.dc ≠ 15) (hrc : c.rcOf tag.val ≠ 0)

/-- The sender of an operation of thread `t`. -/
def threadSrc (t : ThreadId) (c : Ctx) (rd tag : GReg) : OpSrc := .thread (thrNum t) c.task tag.val rd.val

section
variable (hbad : bad = false) (h : Issues t w c s)
include hn hm hdc hrc hbad h

/-- An operation that does not wait, its accesses met by no watchpoint, joins its unit's queue, and the thread goes on
(R66). -/
theorem issue_sends {send : OpSrc → State → State} {u v : State} (hb : body (thrNum t) c s = v.asyncIssue (thrNum t) c rd tag send)
    (hv : v = s) (hu : send (threadSrc t c rd tag) s = u) (hthr : u.threads = s.threads) (hmems : u.mems = s.mems) :
    GoesOn t (opIssued c tag) u (issue t w bad s body) := by
  subst hv hu
  refine issue_retires_from (c' := Ctx.pending c tag) hbad h hn hthr hmems hm ⟨rfl, rfl, rfl⟩ (hb.trans ?_)
  rw [State.asyncIssue, if_neg hrc, outstanding_of_room _ tag hdc]
  rfl

/-- So does a flow operation, its accesses met by no watchpoint (R71). -/
theorem issue_sendsFlow {u : State} {sl : Nat} {kind : FlowKind} {i : Word64} (hroom : s.missFull sl = false)
    (hb : body (thrNum t) c s = u.flowIssue (thrNum t) c rd tag sl kind i) (hu : u = s) :
    GoesOn t (opIssued c tag) (s.sendFlow sl (s.flowOp c (threadSrc t c rd tag) kind i)) (issue t w bad s body) := by
  subst hu
  refine issue_retires_from (c' := Ctx.pending c tag) hbad h hn rfl rfl hm ⟨rfl, rfl, rfl⟩ (hb.trans ?_)
  simp only [State.flowIssue, hrc, hroom, outstanding_of_room _ tag hdc, Bool.false_eq_true, if_false]
  rfl

end

variable (hw : NoWatch t s) {ra rb : GReg}

section
variable (hroom : ∀ sl, s.missFull sl = false)
include hn hm hw hroom

/-- A posted add changes neither `dc` nor `rc` (R68). -/
theorem flowAdd_posts {word : BitVec 4} {mode : BitVec 2} (h : Issues t (encFlowAdd 0 15 ra rb word mode) c s)
    (hbad : badAdd 0 15 word mode = false) :
    GoesOn t (Ctx.next c) (s.sendFlow (sliceOf (c.gr ra))
      (s.flowOp c (.posted (thrNum t) c.task) (.add mode word.toNat (c.gr rb) 1) (c.gr ra)))
      (exec (.flowAdd t 0 15 ra rb word mode) s) := by
  refine issue_retires_from hbad h hn rfl rfl hm ⟨rfl, rfl, rfl⟩ ?_
  dsimp only
  rw [watch_of_noWatch hw, ite_self]
  exact (if_pos rfl).trans (if_neg (by rw [hroom]; decide))

variable (htag : tag.val ≠ 15)
include hdc hrc htag

theorem flowGet_joins {mask : Half} (h : Issues t (encFlowGet rd tag mask) c s) :
    GoesOn t (opIssued c tag) (s.sendFlow (s.viewHome c) (s.flowOp c (threadSrc t c rd tag) (.get mask) 0))
      (exec (.flowGet t rd tag mask) s) := by
  have hunseen : (if c.rcOf tag.val = 0 then s else s.watch (thrNum t) false 2 0 48) = s := by
    rw [watch_of_noWatch hw, ite_self]
  refine issue_sendsFlow hn hm hdc hrc (badTag_of_ne htag) h (hroom _) ?_ hunseen
  dsimp only
  rw [hunseen]

theorem flowAdd_joins {word : BitVec 4} {mode : BitVec 2} (h : Issues t (encFlowAdd rd tag ra rb word mode) c s)
    (hbad : badAdd rd tag word mode = false) :
    GoesOn t (opIssued c tag) (s.sendFlow (sliceOf (c.gr ra))
      (s.flowOp c (threadSrc t c rd tag) (.add mode word.toNat (c.gr rb) 1) (c.gr ra)))
      (exec (.flowAdd t rd tag ra rb word mode) s) :=
  issue_sendsFlow hn hm hdc hrc hbad h (hroom _) (if_neg htag) (by rw [watch_of_noWatch hw, ite_self])

theorem flowCas_joins {word : BitVec 4} {u : Bool} (h : Issues t (encFlowCas rd tag ra rb word u) c s) :
    GoesOn t (opIssued c tag) (s.sendFlow (sliceOf (c.gr ra))
      (s.flowOp c (threadSrc t c rd tag) (.cas word.toNat (c.gr rd) (c.gr rb) u) (c.gr ra)))
      (exec (.flowCas t rd tag ra rb word u) s) :=
  issue_sendsFlow hn hm hdc hrc (badTag_of_ne htag) h (hroom _) rfl (by rw [watch_of_noWatch hw, ite_self])

theorem flowIns_joins {u : Bool} (h : Issues t (encFlowIns rd tag u) c s) :
    GoesOn t (opIssued c tag) (s.sendFlow (s.viewHome c) (s.flowOp c (threadSrc t c rd tag) (.ins u) 0))
      (exec (.flowIns t rd tag u) s) := by
  have hunseen : (if c.rcOf tag.val = 0 then s else s.watch (thrNum t) false 2 0 128) = s := by
    rw [watch_of_noWatch hw, ite_self]
  refine issue_sendsFlow hn hm hdc hrc (badTag_of_ne htag) h (hroom _) ?_ hunseen
  dsimp only
  rw [hunseen]

theorem flowDel_joins (h : Issues t (encFlowDel rd tag ra) c s) :
    GoesOn t (opIssued c tag) (s.sendFlow (sliceOf (c.gr ra)) (s.flowOp c (threadSrc t c rd tag) .del (c.gr ra)))
      (exec (.flowDel t rd tag ra) s) :=
  issue_sendsFlow hn hm hdc hrc (badTag_of_ne htag) h (hroom _) rfl (by rw [watch_of_noWatch hw, ite_self])

end

include hn hm hdc hrc

theorem lkpEm_joins {type : BitVec 3} {learn : Bool} (h : Issues t (encLkpEm rd tag ra rb type learn) c s)
    (hbad : badLookup tag rb learn = false) :
    let p := s.pkt c.pkt
    GoesOn t (opIssued c tag) (s.setRace t.race.val { s.race t.race.val with emq := (s.race t.race.val).emq ++
        [{ src := threadSrc t c rd tag, key := c.gr ra, type := type.toNat, learn := if learn then some (c.gr rb) else none,
           part := s.domOwner p.dom, dom := p.dom, port := p.port,
           seen := ekey (s.islGtc (64 + t.race.val)) (srcCluster t.race.val t.cluster.val) }] })
      (exec (.lkpEm t rd tag ra rb type learn) s) := by
  refine issue_sends hn hm hdc hrc hbad h rfl rfl ?_ rfl rfl
  dsimp only
  rw [raceOf_thrNum, cluOf_thrNum]
  rfl

variable (hw : NoWatch t s) (htag : tag.val ≠ 15)
include hw htag

theorem meter_joins_weir {aware : Bool} (h : Issues t (encMeter rd tag ra rb false aware) c s) :
    GoesOn t (opIssued c tag)
      { s with weirq := s.weirq ++ [{ src := threadSrc t c rd tag, meter := (c.gr ra).toNat % 2 ^ 20, bytes := (c.gr rb).toNat,
                                      aware := aware, colour := c.mdN 0x0A 1 % 4, part := s.domOwner (s.pkt c.pkt).dom }] }
      (exec (.meter t rd tag ra rb false aware) s) := by
  refine issue_sends hn hm hdc hrc (badTag_of_ne htag) h (if_neg Bool.false_ne_true) ?_ rfl rfl rfl
  rw [watch_of_noWatch hw, ite_self]

theorem meter_joins_slice {aware : Bool} (h : Issues t (encMeter rd tag ra rb true aware) c s)
    (hroom : s.missFull (sliceOf (c.gr ra)) = false) :
    GoesOn t (opIssued c tag) (s.sendFlow (sliceOf (c.gr ra)) (s.flowOp c (threadSrc t c rd tag)
      (.meter (c.gr rb).toNat aware (c.mdN 0x0A 1 % 4)) (c.gr ra))) (exec (.meter t rd tag ra rb true aware) s) := by
  refine issue_sendsFlow hn hm hdc hrc (badTag_of_ne htag) h hroom (if_pos rfl) ?_
  rw [watch_of_noWatch hw, ite_self]

section
variable (harr : (s.pkt c.pkt).hlen ≤ (s.pkt c.pkt).arrived)
include harr

theorem lkpLpm_joins {v6 : Bool} {off : Byte} (h : Issues t (encLkpLpm rd tag ra v6 off) c s)
    (hin : off.toNat + (if v6 then 16 else 4) ≤ 256) :
    GoesOn t (opIssued c tag) (s.setRace t.race.val { s.race t.race.val with lpmq := (s.race t.race.val).lpmq ++
        [{ src := threadSrc t c rd tag, table := (c.gr ra).toNat % 65536, v6 := v6, part := s.domOwner (s.pkt c.pkt).dom,
           addr := BitVec.ofNat 128 (beNat (s.winBytes t.race.val c 0 off.toNat (if v6 then 16 else 4))) }] })
      (exec (.lkpLpm t rd tag ra v6 off) s) := by
  refine issue_sends hn hm hdc hrc (badTag_of_ne htag) h
    ((if_neg (Nat.not_lt.2 hin)).trans (if_neg (not_not.2 (hdrNeed_of_arrived harr _ _)))) ?_ ?_ rfl rfl
  · rw [watch_of_noWatch hw, ite_self]
  · dsimp only
    rw [raceOf_thrNum]

/-- Hashes and sums join the queue of the cluster's unit (R74). -/
theorem issueHash_joins {op : Nat} {kind : HashKind} {space : BitVec 2} {len off : Byte}
    (h : Issues t (encHash op rd tag space len off) c s) (hin : off.toNat + len.toNat + 1 ≤ winSize space.toNat)
    (hpool : s.poolBad t.race.val c space.toNat off.toNat (len.toNat + 1) = none) :
    GoesOn t (opIssued c tag)
      (joinHash s t { src := threadSrc t c rd tag, kind := kind, seed := c.gr rd,
                      bytes := s.winBytes t.race.val c space.toNat off.toNat (len.toNat + 1) })
      (issueHash t op kind rd tag space len off s) := by
  have hready : ¬ (if space.toNat = 0 then hdrNeed (s.pkt c.pkt) off.toNat (len.toNat + 1) else 0) ≠ 0 := by
    rw [hdrNeed_of_arrived harr, ite_self]
    decide
  refine issue_sends (v := s) (send := fun src s => joinHash s t
    { src := src, kind := kind, seed := c.gr rd, bytes := s.winBytes t.race.val c space.toNat off.toNat (len.toNat + 1) })
    hn hm hdc hrc (badTag_of_ne htag) h ?_ rfl rfl rfl rfl
  dsimp only
  rw [if_neg (by omega), if_neg hready, raceOf_thrNum, hpool, watch_of_noWatch hw, ite_self]
  rfl

end

end


/-- Settles O13: each operation by the queue it joins. -/
theorem operationsJoinTheirUnit : Obligations.OperationsJoinTheirUnit := by
  refine ⟨?_, ?_⟩
  · intro t rd tag ra rb mask word mode u c s hn hw hm hdc htag hrc hroom src i sent
    exact ⟨flowGet_joins hn hm hdc hrc hw hroom htag, flowAdd_joins hn hm hdc hrc hw hroom htag, flowAdd_posts hn hm hw hroom,
      flowCas_joins hn hm hdc hrc hw hroom htag, flowIns_joins hn hm hdc hrc hw hroom htag,
      flowDel_joins hn hm hdc hrc hw hroom htag⟩
  · intro t rd tag ra rb type learn v6 space len off c s hn hw hm hdc htag hrc harr n r p src bytes hashed
    have hashes {op : Nat} (kind : HashKind) (hin : off.toNat + len.toNat + 1 ≤ winSize space.toNat)
        (hpool : s.poolBad r c space.toNat off.toNat (len.toNat + 1) = none) (h : Issues t (encHash op rd tag space len off) c s) :
        GoesOn t (opIssued c tag) (hashed kind) (issueHash t op kind rd tag space len off s) :=
      issueHash_joins hn hm hdc hrc hw htag harr h hin hpool
    exact ⟨lkpEm_joins hn hm hdc hrc, lkpLpm_joins hn hm hdc hrc hw htag harr, fun hin hpool =>
      ⟨hashes .crc32c hin hpool, hashes .csum hin hpool, hashes .crc32 hin hpool, hashes .h0 hin hpool⟩,
      meter_joins_weir hn hm hdc hrc hw htag, meter_joins_slice hn hm hdc hrc hw htag⟩

/-! ### The ends of a task (R79) -/

theorem badEmit_chosen (q : Bool) (ra : GReg) : badEmit q (if q then ra else 0) = false := by
  cases q with
  | true => exact decide_eq_false fun h => Bool.noConfusion h.1
  | false => exact decide_eq_false fun h => h.2 rfl

theorem badReason_of_lt {reason : Byte} (h : reason.toNat < 0xE0) : badReason reason = false := decide_eq_false (Nat.not_le.2 h)

/-- What ends a packet leaves the thread as it has been freed. -/
theorem ctx_freed {s u : State} {n : Nat} (h : OnlyPackets (s.freeThread n) u) : (u.thr n).ctx = none := by
  rw [h.thr, (freeThread_only s n).2.1]

theorem mems_freed {s u : State} {n : Nat} (h : OnlyPackets (s.freeThread n) u) : u.mems = s.mems := by
  rw [h, (freeThread_only s n).1.1]

/-- The first `n` bytes are set one after the other. -/
theorem getByte_setUpTo (g : Nat → Byte) (n i : Nat) (h : i < n) :
    getByte ((upTo n).foldl (fun m i => setByte m i (g i)) []) i = g i := by
  induction n with
  | zero => exact absurd h (Nat.not_lt_zero i)
  | succ n ih =>
    rw [upTo, List.range_succ, List.foldl_append]
    refine (getByte_setByte _ n i (g n)).trans ?_
    split
    next heq => rw [heq]
    next hne => exact ih (by omega)

/-- The packet of a thread as it goes through the Leat, with frame `f` (R50). -/
def nextPass (s : State) (c : Ctx) (f : List Byte) : Packet :=
  let p := s.pkt c.pkt
  { p with frame := f, arrived := f.length - (p.frame.length - p.arrived), pass := p.pass + 1,
           carry := (upTo 16).foldl (fun m i => setByte m i (getByte c.md (48 + i))) [], stamps := c.stamps }

/-- A packet has joined the tail of its race's Leat (R160). -/
def enterLeat (s : State) (r k : Nat) (p : Packet) : State :=
  let s := s.setPkt k p
  (s.setRace r { s.race r with leat := (s.race r).leat ++ [k] }).pauses r

theorem leat_enterLeat (s : State) (r k : Nat) (p : Packet) :
    ((enterLeat s r k p).race r).leat = (s.race r).leat ++ [k] := by
  unfold enterLeat
  rw [race_pauses, race_setRace_self]
  rfl

theorem pkt_enterLeat (s : State) (r k : Nat) (p : Packet) : (enterLeat s r k p).pkt k = p := by
  unfold enterLeat
  rw [pauses_races]
  exact pkt_setPkt_self s k p

theorem enterLeat_packets (s : State) (r k : Nat) (p : Packet) : OnlyPackets s (enterLeat s r k p) :=
  (pauses_races _ r).onlyPackets.after rfl

theorem race_freeThread (s : State) (n r : Nat) : (s.freeThread n).race r = s.race r := by
  rw [(freeThread_only s n).1.1]
  rfl

section
variable {t : ThreadId} {c : Ctx} {s : State}

/-- An ending waits until no operation is outstanding (R70). -/
theorem ending_waits {w : Word32} {bad : Bool} {body : Nat → Ctx → State → State} (hbad : bad = false) (h : Issues t w c s)
    (hb : body (thrNum t) c s = s.waitAt (thrNum t) (.dcLe 0)) :
    ∃ u, issue t w bad s body = .next u ∧ (u.thr (thrNum t)).ctx = some c ∧ (u.thr (thrNum t)).gate = some (.dcLe 0) ∧
      (∀ m, m ≠ thrNum t → u.thr m = s.thr m) ∧ u.pkts = s.pkts ∧ u.mems = s.mems := by
  obtain ⟨u, hexec, hctx, hgate, hu, hothers⟩ := issue_waits hbad h hb
  exact ⟨u, hexec, hctx, hgate, hothers, by rw [hu], by rw [hu]⟩

theorem drop_ends {reason : Byte} (hdc : c.dc = 0) (h : Issues t (encDrop reason) c s) (hr : reason.toNat < 0xE0) :
    exec (.drop t reason) s = .next ((((s.freeThread (thrNum t)).bump (aRaceExcCnt t.race.val 0) 1).dropPkt c.pkt).issued
      (thrNum t) c (encDrop reason)) := by
  refine issue_frees (badReason_of_lt hr) h ?_ (ctx_freed ((dropPkt_packets _ _).after (bump_races _ _ _).onlyPackets))
  rw [if_neg (not_not.2 hdc), raceOf_thrNum]
  rfl

section
variable {q m : Bool} {rx : GReg} (hq : badEmit q rx = false) (hdc : c.dc = 0) (h : Issues t (encEmit q m rx) c s)
include hq hdc h

/-- A frame that cannot be made raises WINDOW (R49, R241). -/
theorem emit_unmade (hf : (s.pkt c.pkt).kind = .expiry ∨ s.outFrame t.race.val c = none) :
    exec (.emit t q m rx) s = raised t c (encEmit q m rx) excWindow s := by
  refine issue_raises hq h ?_
  dsimp only
  rw [if_neg (not_not.2 hdc), raceOf_thrNum]
  split
  · rfl
  next hk => rw [hf.resolve_left hk]

variable {f : List Byte} (hk : (s.pkt c.pkt).kind ≠ .expiry) (hf : s.outFrame t.race.val c = some f)
include hk hf

/-- So do stamps that the frame has no room for (R65). -/
theorem emit_unstamped (hs : stampsFit (s.pkt c.pkt) c = false) :
    exec (.emit t q m rx) s = raised t c (encEmit q m rx) excWindow s := by
  refine issue_raises hq h ?_
  dsimp only
  rw [if_neg (not_not.2 hdc), if_neg hk, raceOf_thrNum, hf]
  exact if_neg (by rw [hs]; decide)

theorem emit_leaves (hs : stampsFit (s.pkt c.pkt) c = true) :
    let d := emitDesc s c f ((if q then (c.gr rx).toNat else c.mdN 0x0C 4) % 2 ^ 20)
    let copied := if m then s.mirrorOf d (c.mdN 0x10 2) else (s, [])
    exec (.emit t q m rx) s = .next ((((copied.1.freeThread (thrNum t)).robEnd t.race.val c.pkt
      (.toQueue d :: copied.2)).verOut (s.pkt c.pkt).dom (s.pkt c.pkt).slot).issued (thrNum t) c (encEmit q m rx)) := by
  refine issue_frees hq h ?_ (ctx_freed ((verOut_packets _ _ _).after (robEnd_packets _ _ _ _)))
  dsimp only
  rw [if_neg (not_not.2 hdc), if_neg hk, raceOf_thrNum, hf]
  exact if_pos hs

end

section
variable {ring : BitVec 6} {code : Byte} (hdc : c.dc = 0) (h : Issues t (encTrap ring code) c s)
include hdc h

theorem trap_unmade (hf : (s.pkt c.pkt).kind = .expiry ∨ s.outFrame t.race.val c = none) :
    exec (.trap t ring code) s = raised t c (encTrap ring code) excWindow s := by
  refine issue_raises rfl h ?_
  dsimp only
  rw [if_neg (not_not.2 hdc), raceOf_thrNum]
  split
  · rfl
  next hk => rw [hf.resolve_left hk]

theorem trap_leaves {f : List Byte} (hk : (s.pkt c.pkt).kind ≠ .expiry) (hf : s.outFrame t.race.val c = some f) :
    exec (.trap t ring code) s = .next ((((s.freeThread (thrNum t)).robEnd t.race.val c.pkt
      [.toRing (s.trapItem c.pkt ring.toNat code.toNat 1 f c.md)]).verOut (s.pkt c.pkt).dom (s.pkt c.pkt).slot).issued
      (thrNum t) c (encTrap ring code)) := by
  refine issue_frees rfl h ?_ (ctx_freed ((verOut_packets _ _ _).after (robEnd_packets _ _ _ _)))
  dsimp only
  rw [if_neg (not_not.2 hdc), if_neg hk, raceOf_thrNum, hf]
  rfl

end

/-! ### Another pass (R50, R160) -/

section
variable (hdc : c.dc = 0) (h : Issues t encRecirc c s)
include hdc h

theorem recirc_unmade (hf : (s.pkt c.pkt).kind = .expiry ∨ s.outFrame t.race.val c = none)
    (hp : (s.pkt c.pkt).kind = .expiry ∨ (s.pkt c.pkt).pass ≠ 3) :
    exec (.recirc t) s = raised t c encRecirc excWindow s := by
  refine issue_raises rfl h ?_
  dsimp only
  rw [if_neg (not_not.2 hdc), raceOf_thrNum]
  split
  · rfl
  next hk => rw [if_neg (hp.resolve_left hk), hf.resolve_left hk]

variable (hk : (s.pkt c.pkt).kind ≠ .expiry)
include hk

theorem recirc_fourth (hp : (s.pkt c.pkt).pass = 3) : exec (.recirc t) s = raised t c encRecirc excRecirc s := by
  refine issue_raises rfl h ?_
  dsimp only
  rw [if_neg (not_not.2 hdc), if_neg hk, if_pos hp]

variable (hp : (s.pkt c.pkt).pass ≠ 3) {f : List Byte} (hf : s.outFrame t.race.val c = some f)
include hp hf

/-- A Leat with 256 passes takes no more: the packet is dropped (R160). -/
theorem recirc_full (hfull : 256 ≤ (s.race t.race.val).leat.length) :
    exec (.recirc t) s = .next (((((s.freeThread (thrNum t)).bump (aTskCnt t.race.val 3) 1).dropPkt c.pkt).issued
      (thrNum t) c encRecirc).boundary (thrNum t) c.task) := by
  refine (issue_next _ h).trans ?_
  dsimp only
  rw [if_neg (not_not.2 hdc), if_neg hk, if_neg hp, raceOf_thrNum, hf]
  exact congrArg (fun u : State => Host.Outcome.next ((u.issued (thrNum t) c encRecirc).boundary (thrNum t) c.task))
    (if_pos (by rwa [State.endThread, race_freeThread]))

/-- Else it joins the Leat, as its next pass. -/
theorem recirc_enters (hroom : (s.race t.race.val).leat.length < 256) :
    exec (.recirc t) s = .next ((enterLeat (s.freeThread (thrNum t)) t.race.val c.pkt (nextPass s c f)).issued
      (thrNum t) c encRecirc) := by
  refine issue_frees rfl h ?_ (ctx_freed (enterLeat_packets _ _ _ _))
  dsimp only
  rw [if_neg (not_not.2 hdc), if_neg hk, if_neg hp, raceOf_thrNum, hf]
  exact if_neg (by rwa [State.endThread, race_freeThread, Nat.not_le])

/-- The packet's next pass carries 16 bytes of its metadata (R50). -/
theorem recirc_passes (hroom : (s.race t.race.val).leat.length < 256) :
    ∃ u, exec (.recirc t) s = .next u ∧ (u.thr (thrNum t)).ctx = none ∧
      (u.race t.race.val).leat = (s.race t.race.val).leat ++ [c.pkt] ∧
      (u.pkt c.pkt).frame = f ∧ (u.pkt c.pkt).pass = (s.pkt c.pkt).pass + 1 ∧ (u.pkt c.pkt).dom = (s.pkt c.pkt).dom ∧
      (u.pkt c.pkt).slot = (s.pkt c.pkt).slot ∧
      (∀ i, i < 16 → getByte (u.pkt c.pkt).carry i = getByte c.md (48 + i)) ∧ u.mems = s.mems := by
  have hexec := recirc_enters hdc h hk hp hf hroom
  have hleat := leat_enterLeat (s.freeThread (thrNum t)) t.race.val c.pkt (nextPass s c f)
  have hpkt := pkt_enterLeat (s.freeThread (thrNum t)) t.race.val c.pkt (nextPass s c f)
  have hthrough := enterLeat_packets (s.freeThread (thrNum t)) t.race.val c.pkt (nextPass s c f)
  generalize enterLeat (s.freeThread (thrNum t)) t.race.val c.pkt (nextPass s c f) = v at hexec hleat hpkt hthrough
  have hctx := ctx_freed hthrough
  have hmems := mems_freed hthrough
  rw [race_freeThread] at hleat
  have hissued : (v.issued (thrNum t) c encRecirc).pkt c.pkt = nextPass s c f := by
    rw [(issued_only v t c _).1]
    exact hpkt
  refine ⟨_, hexec, ?_⟩
  rw [hissued, (issued_only v t c _).1]
  exact ⟨hctx, hleat, rfl, rfl, rfl, rfl, fun i hi => getByte_setUpTo (fun i => getByte c.md (48 + i)) 16 i hi, hmems⟩

end

end

/-- Settles O15. An ending frees the thread only with no operation outstanding (`ending_waits`), and what it then does to the
packet keeps the thread free, so that no task boundary follows (`issue_frees`). -/
theorem endingsReleaseTheThread : Obligations.EndingsReleaseTheThread := by
  unfold Obligations.EndingsReleaseTheThread
  intro t q m ra reason code ring f c s
  have hq := badEmit_chosen q ra
  have hword : (if q then ((c.gr (if q then ra else 0)).toNat) else c.mdN 0x0C 4) =
      if q then (c.gr ra).toNat else c.mdN 0x0C 4 := by
    cases q <;> rfl
  refine ⟨fun hdc => ⟨fun h => ending_waits hq h (if_pos hdc), fun h hr => ending_waits (badReason_of_lt hr) h (if_pos hdc),
      fun h => ending_waits rfl h (if_pos hdc), fun h => ending_waits rfl h (if_pos hdc)⟩,
    fun hdc h hr => drop_ends hdc h hr,
    fun hdc hf => ⟨fun h => emit_unmade hq hdc h hf, fun h => trap_unmade hdc h hf, fun h hp => recirc_unmade hdc h hf hp⟩,
    fun hdc hk h hp => recirc_fourth hdc h hk hp,
    fun hdc hk hf => ⟨fun h hs => ?_, fun h hs => emit_unstamped hq hdc h hk hf hs,
      fun h hp hfull => recirc_full hdc h hk hp hf hfull, fun h => trap_leaves hdc h hk hf,
      fun h hp hroom => recirc_passes hdc h hk hp hf hroom⟩⟩
  rw [← hword]
  exact emit_leaves hq hdc h hk hf hs

end Sys2Proof.Proofs

/-! PROOF. Microcode and the control store: patches staged and activated, heartbeats and reactions, and register writes that act
at once (R94, R114, R119, R122 to R129, R560 to R563). -/

namespace Sys2Proof.Proofs

open Sys2Proof Sys2Proof.Machine Sys2Proof.Laws

/-! ### A command that begins (R478, R481) -/

/-- Taking the command up changes registers and counters of events only. -/
theorem started_signals (h : HostCmd) (s : State) : OnlySignals s (started h s) :=
  (onlySignals_of_onlyCounters (occur_only _ 105 0x011 1 (by decide))).after
    ((onlySignals_of_onlyCounters (occur_only _ 105 0x010 1 (by decide))).after (setRegN_signals _ _ _))

theorem started_top (h : HostCmd) (s : State) : (started h s).top = s.top := by rw [started_signals]

theorem started_ucs (h : HostCmd) (s : State) : (started h s).ucs = s.ucs := by rw [started_signals]

/-- A well-formed command of an allowed issuer in an allowed mode reaches its body. -/
theorem startCmd_begins {h : HostCmd} {kind : CmdKind} {s : State} {opcode : Nat} {issuer mode : Bool}
    {body : CmdRef → State → State} (hb : Begins h kind s) (hi : issuer = true) (hm : mode = true) :
    s.startCmd h opcode kind issuer mode body = body (startRef h opcode s) (started h s) := by
  obtain ⟨hstart, hrsv, hflags⟩ := hb
  have hbad : ¬(h.rsv ≠ 0 ∨ h.flags.toNat / 2 ≠ 0) := by simp [hrsv, hflags]
  unfold State.startCmd
  simp only [hstart, if_true, if_neg hbad, hi, hm, Bool.not_true, Bool.false_eq_true, if_false]
  rfl

/-! ### Patches (R119, R122 to R129) -/

theorem no_activation_of_firmware {s : State} (hf : ∀ f, s.top.fw = some f → f.op ≠ 3) :
    s.top.fw.any (fun f => f.op = 3) = false := by
  cases h : s.top.fw with
  | none => rfl
  | some f => exact decide_eq_false (hf f h)

/-- What PATCH_LOAD does with the bundle that it has read: one that opens is staged in the slot that does not run. -/
def patchLoaded (u : State) (c : CmdRef) : Option Bundle → State
  | some b => (u.setUcs { u.ucs.setSlot (1 - u.ucs.cur) (some b) with
      staged := some b, stagedSince := true }).showStaged.cmdDone c stOk 0
  | none => (u.eventAny srcWindshaft 0x8002).cmdDone c stReject 0

section
variable {h : HostCmd} {s : State} (hf : ∀ f, s.top.fw = some f → f.op ≠ 3)
include hf

theorem not_busy_of_idle (ha : s.ucs.act = none) :
    ¬((started h s).ucs.act.isSome = true ∨ (started h s).top.fw.any (fun f => f.op = 3) = true) := by
  rw [started_ucs, started_top, ha, no_activation_of_firmware hf]
  decide

section
variable (hb : Begins h .background s) (hp : h.part.val = 0) (hm : modeA s.top.mode = true)
include hb hp hm

theorem patchLoad_loads (ha : s.ucs.act = none) :
    let t := started h s
    let raw := t.hostRead 0 (h.op 0 8) (h.op 8 4)
    let u := t.dmaRead raw.length
    exec (.patchLoad h) s = .next (patchLoaded u (startRef h 0x70 s) (openBundle u.runSlot raw)) := by
  intro t raw u
  change execPatchLoad h s = _
  rw [execPatchLoad, startCmd_begins hb (decide_eq_true hp) hm, if_neg (not_busy_of_idle hf ha)]
  dsimp only
  cases openBundle u.runSlot raw with
  | none => rw [patchLoaded]
  | some b => rw [patchLoaded]

theorem patchActivate_begins (hc : (started h s).mntConflict 10 = none)
    (hstaged : (if bitOf (h.op 0 1) 0 then (started h s).ucs.stagedSince else (started h s).ucs.staged.isNone) = false)
    (hchecks : (started h s).actChecks { ref := startRef h 0x71 s, revert := bitOf (h.op 0 1) 0 } = true) :
    exec (.patchActivate h) s =
      .next ((started h s).actBegin { ref := startRef h 0x71 s, revert := bitOf (h.op 0 1) 0 }) := by
  have hgood : s.actBad h = s := if_neg fun ⟨_, hbad⟩ => hbad.elim (· hb.2.1) (· hb.2.2)
  have hpart : ¬(startRef h 0x71 s).part ≠ 0 := not_not.2 hp
  change execPatchActivate h s = _
  rw [execPatchActivate, hgood, startCmd_begins hb rfl rfl, if_neg hpart]
  simp only [started_top, hm, no_activation_of_firmware hf, hc, hstaged, hchecks, Bool.not_true, Bool.or_self,
    Bool.false_eq_true, if_false]

end

end

section
variable {race : RaceId} {a : Activation} {k : Nat} {s : State} (ha : s.actRuns = some a)
include ha

/-- A cluster that has drained takes the words of the activation's target, and what it held is kept for the way back. -/
theorem patchClusterDrained_loads (hk : a.draining race.val = some k) (he : s.cluEmpty k = true) (hf : a.failing = none) :
    let a1 := { a with at_ := mset noPhase a.at_ race.val (k, true) }
    let s1 := s.setFld aUcsPatchStatus 16 8 (s.fld aUcsPatchStatus 16 8 + 1)
    exec (.patchClusterDrained race) s = .next ((s1.loadPatch k (s.sectionFor (s.actTarget a) k)).setAct
      { a1 with done := a.done ++
          [(k, s.reg (aUcsPatchVersion k), { match_ := (s.clu k).matchReg, words := (s.clu k).patch })] }) := by
  change execPatchClusterDrained race s = _
  simp only [execPatchClusterDrained, ha, hk, he, hf, Bool.not_true, Bool.false_eq_true, if_false, Option.isSome_none]

/-- On the way back it takes the words that it held before. -/
theorem patchClusterDrained_restores (hk : a.draining race.val = some k) (he : s.cluEmpty k = true) (hf : a.failing ≠ none) :
    let a1 := { a with at_ := mset noPhase a.at_ race.val (k, true) }
    let old := match a.done.find? (fun e => e.1 = k) with | some e => e.2 | none => (0, {})
    exec (.patchClusterDrained race) s =
      .next ((s.loadPatch k old).setAct { a1 with done := a.done.filter (fun e => e.1 ≠ k) }) := by
  have hsome := Option.isSome_iff_ne_none.2 hf
  change execPatchClusterDrained race s = _
  cases hold : a.done.find? fun e => e.1 = k <;>
    simp only [execPatchClusterDrained, ha, hk, he, hsome, hold, Bool.not_true, Bool.false_eq_true, if_false, if_true]

theorem patchDrainTimeout_ends (hk : a.draining race.val = some k)
    (ht : mget zeroN a.since race.val + 4000 * s.fld aUcsDrainTmo 0 16 ≤ s.clk.gtc) :
    exec (.patchDrainTimeout race) s = .next ((upTo 17).foldl (fun s e => s.engineEnd k e false) s) := by
  change execPatchDrainTimeout race s = _
  simp only [execPatchDrainTimeout, ha, hk, if_neg (Nat.not_lt.2 ht)]

section
variable (hph : a.phase race.val = (k, true))
include hph

/-- Heartbeats that are right move the activation to the race's next cluster. -/
theorem patchHeartbeatResult_moves (hf : a.failing = none) :
    let moved := (s.resumeCluster k).actMove a race.val
      (if a.aborted then none else s.toSwitch a race.val (k % 12 + 1))
    exec (.patchHeartbeatResult race []) s = .next (moved.1.actFinish moved.2) := by
  change execPatchHeartbeatResult race [] s = _
  simp only [execPatchHeartbeatResult, ha, hph, hf, Bool.not_true, Bool.false_eq_true, if_false, if_true, Option.isSome_none,
    List.isEmpty_nil, List.foldl_nil]

/-- On the way back it moves to the cluster switched last, whatever the heartbeats were. -/
theorem patchHeartbeatResult_goesBack (failed : List EngineId) (hf : a.failing ≠ none) :
    let u := failed.foldl (fun s e =>
      ((s.safety (srcCluster race.val (k % 12)) 0x0200 (k + e.val * 65536) 2).isolateEngine k e.val).reacted 2) s
    let moved := (u.resumeCluster k).actMove a race.val (a.lastDone race.val)
    exec (.patchHeartbeatResult race failed) s = .next (moved.1.actFinish moved.2) := by
  have hsome := Option.isSome_iff_ne_none.2 hf
  change execPatchHeartbeatResult race failed s = _
  simp only [execPatchHeartbeatResult, ha, hph, hsome, Bool.not_true, Bool.false_eq_true, if_false, if_true]

/-- A wrong heartbeat turns every race back (R127). -/
theorem patchHeartbeatResult_turns {failed : List EngineId} (hf : a.failing = none) (hne : failed ≠ []) :
    let u := failed.foldl (fun s e =>
      ((s.safety (srcCluster race.val (k % 12)) 0x0200 (k + e.val * 65536) 2).isolateEngine k e.val).reacted 2) s
    let turned := (upTo 16).foldl (fun (x : State × Activation) j => x.1.actBack x.2 j)
      (u.setFld aUcsPatchStatus 8 8 k, { a with failing := some k })
    exec (.patchHeartbeatResult race failed) s = .next (turned.1.actFinish turned.2) := by
  have hfull : failed.isEmpty = false := List.isEmpty_eq_false_iff.2 hne
  change execPatchHeartbeatResult race failed s = _
  simp only [execPatchHeartbeatResult, ha, hph, hf, hfull, Bool.not_true, Bool.false_eq_true, if_false, Option.isSome_none]

end

end

/-- Settles O39. Taking a command up leaves the mode, the firmware and the patch unit as they are (`started_signals`), so
that its checks are those of the state before; the rest is one case of the activation each. Where the operands lie and the
order of the checks are the model's choice (log 49, log 67). -/
theorem patchesAreStagedAndActivated : Obligations.PatchesAreStagedAndActivated := by
  unfold Obligations.PatchesAreStagedAndActivated
  intro h race a k failed s t r
  refine ⟨fun hb hp hm ha hf => ?_, fun hb hp hm hf hc hstaged hchecks => ?_, fun ha hk he => ⟨?_, ?_⟩, fun ha hk ht => ?_,
    fun ha hph => ⟨fun hf hnil => ?_, ?_, ?_⟩⟩
  · intro raw u
    rw [patchLoad_loads hf hb hp hm ha]
    cases openBundle u.runSlot raw with
    | none => rw [patchLoaded]
    | some b => rw [patchLoaded]
  · exact patchActivate_begins hf hb hp hm hc hstaged hchecks
  · exact patchClusterDrained_loads ha hk he
  · exact patchClusterDrained_restores ha hk he
  · exact patchDrainTimeout_ends ha hk ht
  · subst hnil
    exact patchHeartbeatResult_moves ha hph hf
  · exact patchHeartbeatResult_goesBack ha hph failed
  · exact patchHeartbeatResult_turns ha hph

/-! ### What a safety event records (R565) -/

/-- A safety event leaves every register that is no overflow word, no pending word, not SAF_FAULT and not SAF_LAST. -/
theorem regN_safety_ne {s : State} {a : Nat} (src code detail bit : Nat) (ho : NotOvf a) (hf : a ≠ aSafFault)
    (hl : ∀ w < 3, a ≠ aSafLast + 4 * w) (hi : ∀ p, a ≠ aHstIpend p (137 / 32)) :
    (s.safety src code detail bit).regN a = s.regN a := by
  let t := (s.event src code detail).setRegN aSafFault ((s.event src code detail).regN aSafFault ||| 2 ^ bit)
  have ht : (t.bump (aSafCnt bit) 1).regN a = s.regN a := by
    rw [State.regN, (bump_only _ _ _).2 _ ho, ← State.regN, regN_setRegN, if_neg hf, regN_event _ _ _ _ ho]
  refine (regN_irqAll_ne hi).trans ?_
  rw [regN_setRegN, if_neg (hl 2 (by decide)), regN_setRegN, if_neg (hl 1 (by decide)), regN_setRegN,
    if_neg (show a ≠ aSafLast from hl 0 (by decide))]
  exact ht

/-- SAF_LAST holds the event's code, its source and its time. -/
theorem regN_safety_last (s : State) (src code detail bit : Nat) :
    let u := s.safety src code detail bit
    u.regN aSafLast = (code % 65536 + src % 4096 * 65536) % 2 ^ 32 ∧ u.regN (aSafLast + 4) = s.clk.gtc % 2 ^ 32 ∧
      u.regN (aSafLast + 8) = s.clk.gtc / 2 ^ 32 % 2 ^ 32 := by
  let t := ((s.event src code detail).setRegN aSafFault ((s.event src code detail).regN aSafFault ||| 2 ^ bit)).bump
    (aSafCnt bit) 1
  have ht : OnlySignals s t := (bump_signals _ _ _).after ((setRegN_signals _ _ _).after (event_signals s src code detail))
  have hgtc : t.clk.gtc = s.clk.gtc := by rw [ht]
  let put := ((t.setRegN aSafLast (code % 65536 + src % 4096 * 65536)).setRegN (aSafLast + 4) (t.clk.gtc % 2 ^ 32)).setRegN
    (aSafLast + 8) (t.clk.gtc / 2 ^ 32 % 2 ^ 32)
  have hput (b : Nat) (hb : ∀ p, b ≠ aHstIpend p (137 / 32)) : (s.safety src code detail bit).regN b = put.regN b :=
    regN_irqAll_ne hb
  refine ⟨?_, ?_, ?_⟩
  · rw [hput _ fun p => by unfold aSafLast aHstIpend; omega, regN_setRegN, if_neg (by decide), regN_setRegN,
      if_neg (by decide), regN_setRegN, if_pos rfl]
  · rw [hput _ fun p => by unfold aSafLast aHstIpend; omega, regN_setRegN, if_neg (by decide), regN_setRegN, if_pos rfl,
      hgtc, Nat.mod_mod]
  · rw [hput _ fun p => by unfold aSafLast aHstIpend; omega, regN_setRegN, if_pos rfl, hgtc, Nat.mod_mod]

/-- A safety event sets bit 2 of the alert's latch (R616). -/
theorem safety_latches_alert (s : State) (src code detail bit : Nat) :
    bitOf (s.safety src code detail bit).smb.latch 2 = true := by
  rw [bitOf_eq_testBit]
  exact (Nat.testBit_or _ _ _).trans (by rw [Nat.testBit_two_pow_self, Bool.or_true])

theorem rule_safety (s : State) (src code detail bit r i : Nat) : (s.safety src code detail bit).rule r i = s.rule r i := by
  rw [safety_signals]
  rfl

theorem portS_safety (s : State) (src code detail bit n : Nat) : (s.safety src code detail bit).portS n = s.portS n := by
  rw [safety_signals]
  rfl

/-! ### Heartbeats (R114, R561) -/

/-- Counting a probe leaves the monitor's notes as they are (log 109). -/
theorem saf_probe (s : State) : s.probe.saf = s.saf := by
  rw [(probe_only s).1]
  rfl

section
variable {race : RaceId} {cluster : ClusterId} {engine : EngineId} {s : State} (hr : s.runs = true)
  (ht : s.hbTakes (12 * race.val + cluster.val) engine.val = true)
include hr ht

theorem heartbeatRun_posts (ok : Bool) :
    let x := 17 * (12 * race.val + cluster.val) + engine.val
    exec (.heartbeatRun race cluster engine (some ok)) s =
      .next { s.probe with saf := { s.saf with hb := mset zeroN s.saf.hb x (if ok then 1 else 2) } } := by
  refine (if_pos ⟨hr, ht⟩).trans ?_
  simp only [saf_probe, hbKey]

/-- An engine that could not answer is excused from this period. -/
theorem heartbeatRun_excuses :
    ∃ u, exec (.heartbeatRun race cluster engine none) s = .next u ∧
      17 * (12 * race.val + cluster.val) + engine.val ∈ u.saf.excused ∧ u = { s.probe with saf := u.saf } :=
  ⟨_, if_pos ⟨hr, ht⟩, List.mem_cons_self, rfl⟩

end

theorem heartbeatCheck_judges {s : State} (hr : s.runs = true) (ht : max s.saf.hbAt s.top.resumeGtc + 1000000 ≤ s.clk.gtc) :
    exec .heartbeatCheck s = .next ((upTo 192).foldl (fun u k => (upTo 17).foldl (fun u e =>
      u.hbVerdict s.saf.hb s.saf.excused k e) u) { s with saf := { s.saf with hb := [], excused := [], hbAt := s.clk.gtc } }) :=
  if_pos ⟨hr, ht⟩

/-! ### The scan of the rules (R562) -/

theorem rule_setRule_self (s : State) (r i : Nat) (x : Rule) : (s.setRule r i x).rule r i = x := mget_mset_self _ _ _ _

/-- A faulty rule is rewritten from its shadow; when that is wrong too, the rule is lost. -/
theorem tcamScan_repairs {race : RaceId} {i : Nat} (ok : Bool) {s : State} (hrun : s.clk.run = true)
    (he : (s.rule race.val i).err = true) :
    ∃ u, exec (.tcamScan race i ok) s = .next u ∧ (u.rule race.val i).err = false ∧
      (u.rule race.val i).valid = ((s.rule race.val i).valid && ok) ∧ (u.rule race.val i).value = (s.rule race.val i).value ∧
      u.regN aSafFault = (s.regN aSafFault ||| 2 ^ 5) ∧ u.cls.lpm = s.cls.lpm := by
  refine ⟨_, if_pos (by rw [he, hrun]; rfl), ?_⟩
  rw [rule_safety, rule_setRule_self]
  refine ⟨rfl, rfl, rfl, regN_safety_fault _ _ _ _ (by decide), ?_⟩
  rw [safety_signals]
  rfl

/-! ### Reactions (R560, R562, R563) -/

/-- Noting a reaction changes SAF_STATUS only. -/
theorem regN_reacted_ne {s : State} {a : Nat} (x : Nat) (h : a ≠ aSafStatus) : (s.reacted x).regN a = s.regN a :=
  (regN_setRegN _ _ _ _).trans (if_neg h)

theorem portS_reacted (s : State) (x n : Nat) : (s.reacted x).portS n = s.portS n := by
  rw [State.portS, State.reacted, State.setFld, State.setRegN, setReg_eg]
  rfl

theorem portS_setPortS_self (s : State) (n : Nat) (x : PortS) : (s.setPortS n x).portS n = x := mget_mset_self _ _ _ _

/-- With the threshold off, a failed check is only noted by the monitor. -/
theorem crcNoted_off {s : State} (t : Nat) (h : s.fld aSafCfg 0 8 = 0) :
    (∀ n, (s.crcNoted t).portS n = s.portS n) ∧ ∀ a, (s.crcNoted t).regN a = s.regN a := by
  unfold State.crcNoted
  dsimp only
  rw [if_neg fun hlim => hlim.1 h]
  exact ⟨fun _ => rfl, fun _ => rfl⟩

/-- A safety event and its reaction leave SAF_CFG as it is. -/
theorem fld_cfg_reacted (s : State) (src code detail bit x lo w : Nat) :
    ((s.safety src code detail bit).reacted x).fld aSafCfg lo w = s.fld aSafCfg lo w := by
  rw [State.fld, regN_reacted_ne _ (by decide), regN_safety_ne _ _ _ _ (fun u hu => by unfold aSafCfg aCntOvf; omega)
    (by decide) (fun w hw => by unfold aSafCfg aSafLast; omega) (fun p => by unfold aSafCfg aHstIpend; omega), State.fld]

theorem crcFailed_notes {s : State} (n : Nat) (hc : s.fld aSafCfg 0 8 = 0) :
    (s.crcFailed n).portS n = s.portS n ∧ (s.crcFailed n).regN aSafFault = (s.regN aSafFault ||| 1) := by
  obtain ⟨hport, hreg⟩ := crcNoted_off (n / 32)
    ((fld_cfg_reacted s (srcTailrace (n / 32)) 0x0210 (n / 32 + n * 65536) 0 1 0 8).trans hc)
  rw [State.crcFailed, hport, hreg, portS_reacted, portS_safety, regN_reacted_ne _ (by decide),
    regN_safety_fault s _ _ _ (by decide), pow_zero]
  exact ⟨rfl, rfl⟩

section
variable {s : State} (hlive : s.clk.run = true ∧ s.top.mode ≠ .halt ∧ s.top.mode ≠ .commit)
include hlive

/-- While Windshaft runs, a failure has the effect of its kind. -/
theorem safetyReaction_failed (f : Failure) : exec (.safetyReaction (some f)) s = .next (s.failed f) :=
  if_neg (by simp [hlive])

/-- With no failure, the first decided reaction is applied (log 89). -/
theorem safetyReaction_next : exec (.safetyReaction none) s = .next s.reactNext :=
  if_neg (by simp [hlive])

theorem thread_error_interrupts (t : ThreadId) (ht : (s.thr (thrNum t)).ctx.isSome = true) :
    ∃ u, exec (.safetyReaction (some (.thread t))) s = .next u ∧ (u.thr (thrNum t)).ints.ecc = true ∧
      (∀ n, n ≠ thrNum t → u.thr n = s.thr n) ∧ u = { s with threads := u.threads } := by
  refine ⟨_, (safetyReaction_failed hlive _).trans (congrArg _ (if_pos (by rw [ht]; rfl))), ?_, fun n hn => ?_, rfl⟩
  · rw [thr_setThr_self]
  · exact (thr_setThr _ _ _ _).trans (if_neg hn)

theorem crc32c_error_marks (port : PortId) (hx : (s.portS port.val).tx.isSome = true) (hc : s.fld aSafCfg 0 8 = 0) :
    ∃ u, exec (.safetyReaction (some (.crc32c port))) s = .next u ∧
      (u.portS port.val).tx = (s.portS port.val).tx.map (fun t => { t with crcBad := true }) ∧
      u.regN aSafFault = (s.regN aSafFault ||| 1) := by
  refine ⟨_, (safetyReaction_failed hlive _).trans (congrArg _ (if_pos hx)), ?_⟩
  obtain ⟨hport, hfault⟩ := crcFailed_notes (s := s.markTx port.val) port.val hc
  rw [hport, hfault]
  exact ⟨congrArg _ (portS_setPortS_self _ _ _), rfl⟩

theorem safetyReaction_due {d : Due} {l : List Due} (hd : s.saf.due = d :: l) :
    exec (.safetyReaction none) s =
      .next (if d.blockReaction then State.reactC { s with saf := { s.saf with due := l } } d.kind d.index
        else State.reactD { s with saf := { s.saf with due := l } } d.code) := by
  rw [safetyReaction_next hlive, State.reactNext, hd]

theorem safetyReaction_idle (hd : s.saf.due = []) : exec (.safetyReaction none) s = .next s := by
  rw [safetyReaction_next hlive, State.reactNext, hd]

end

/-- Settles O54. A probe and a safety event leave the notes that a diagnostic writes (`saf_probe`, `safety_signals`); each
failure has the effect of its kind. That decided reactions are applied in their order is the model's choice (log 89), as is
the start of a heartbeat period (log 75). -/
theorem diagnosticsDetectAndReact : Obligations.DiagnosticsDetectAndReact := by
  intro race cluster engine port i ok d l s
  obtain ⟨hcode, hlow, hhigh⟩ := regN_safety_last s i 0x0220 0 5
  exact ⟨fun hr ht => ⟨heartbeatRun_posts hr ht ok, heartbeatRun_excuses hr ht⟩, heartbeatCheck_judges, tcamScan_repairs ok,
    fun hlive => ⟨⟨_, safetyReaction_failed hlive _, rfl⟩, thread_error_interrupts hlive,
      ⟨_, safetyReaction_failed hlive _, List.mem_cons_self, rfl, rfl⟩, crc32c_error_marks hlive port,
      safetyReaction_due hlive, safetyReaction_idle hlive⟩,
    _, rfl, hcode, hlow, hhigh, safety_latches_alert _ _ _ _ _⟩

/-! ### Where the registers that act lie (R652) -/

theorem placed_ucsModeNext : ∀ w : Fin 6, Placed (aUcsModeNext w.val) rowUcsModeNext [w.val] 0 := by
  unfold Placed; decide +kernel

theorem placed_hstDsub : ∀ (p : Part) (hi : Bool),
    Placed (aHstDsub p.val + 4 * natBool hi) rowHstDsub [p.val] (natBool hi) := by
  unfold Placed; decide +kernel

theorem placed_cntWin : ∀ w : Fin 4, Placed (aCntWin + 4 * w.val) rowCntWin [] w.val := by unfold Placed; decide +kernel

theorem placed_cntUserRead : ∀ p : Part, Placed (aCntUserRead p.val) rowCntUserRead [p.val] 0 := by
  unfold Placed; decide +kernel

theorem findReg_cntSel (u : Fin 107) (i : Fin 16) : findReg (aCntSel u.val i.val) = some (rowCntSel, [u.val, i.val], 0) := by
  have hu := u.isLt
  have hi := i.isLt
  have h1 : 0x00D10000 ≤ aCntSel u.val i.val := by unfold aCntSel; omega
  have h2 : aCntSel u.val i.val < 0x00D11AC0 := by unfold aCntSel; omega
  have hoff : aCntSel u.val i.val - rowCntSel.base = 0x40 * u.val + 4 * i.val := by
    rw [aCntSel, Nat.add_assoc]
    exact Nat.add_sub_cancel_left ..
  have hl : rowCntSel.locate (aCntSel u.val i.val) = some ([u.val, i.val], 0) := by
    rw [RegRow.locate, if_neg (show ¬aCntSel u.val i.val < rowCntSel.base from Nat.not_lt.2 h1), hoff]
    have hdiv : (0x40 * u.val + 4 * i.val) / 0x40 = u.val := by omega
    have hmod : (0x40 * u.val + 4 * i.val) % 0x40 = 4 * i.val := by omega
    simp [rowCntSel, peelDims, hdiv, hmod, hu, hi]
  exact findReg_of_locate (lo := 0x00D10000) (hi := 0x00D11AC0) (by decide +kernel) (by decide +kernel) h1 h2 hl

theorem placed_cntSel {u : Fin 107} {i : Fin 16} (hi : i.val < unitCounters u.val) :
    Placed (aCntSel u.val i.val) rowCntSel [u.val, i.val] 0 := by
  have hu := u.isLt
  refine ⟨by unfold aCntSel; omega, by unfold aCntSel; omega, decide_eq_false (by unfold aCntSel; omega), ?_⟩
  rw [busReg, findReg_cntSel]
  exact if_neg fun h => absurd h.2 (Nat.not_le.2 hi)

theorem findReg_portLanemap (n : PortId) : findReg (aPortLanemap n.val) = some (rowPortLanemap, [n.val], 0) := by
  have hn := n.isLt
  have h1 : 0x00B08000 ≤ aPortLanemap n.val := Nat.le_add_right _ _
  have h2 : aPortLanemap n.val < 0x00B08800 := by unfold aPortLanemap; omega
  have hoff : aPortLanemap n.val - rowPortLanemap.base = 4 * n.val := Nat.add_sub_cancel_left ..
  have hl : rowPortLanemap.locate (aPortLanemap n.val) = some ([n.val], 0) := by
    rw [RegRow.locate, if_neg (show ¬aPortLanemap n.val < rowPortLanemap.base from Nat.not_lt.2 h1), hoff]
    simp [rowPortLanemap, peelDims, hn]
  exact findReg_of_locate (lo := 0x00B08000) (hi := 0x00B08800) (by decide +kernel) (by decide +kernel) h1 h2 hl

theorem placed_portLanemap (n : PortId) : Placed (aPortLanemap n.val) rowPortLanemap [n.val] 0 := by
  have hn := n.isLt
  refine ⟨by unfold aPortLanemap; omega, by unfold aPortLanemap; omega, decide_eq_false (by unfold aPortLanemap; omega), ?_⟩
  rw [busReg, findReg_portLanemap]
  exact if_neg fun h => absurd h.1 (by decide)

/-! ### A permitted write reaches its register's own effect -/

/-- No COMMIT register lies below TSK_COMMIT, between PORT_COMMIT and HST_COMMIT, or above it. -/
theorem commitWriter_eq_none {a : Nat} (h : a < aTskCommit ∨ aPortCommit 4 ≤ a ∧ a < aHstCommit ∨ aHstCommit < a) :
    commitWriter a = none := by
  refine (if_neg ?_).trans ((if_neg ?_).trans (if_neg ?_)) <;>
    simp only [aTskCommit, aClsCommit, aMstCommit, aEmtCommit, aHopCommit, aQshCommit, aHstCommit, aGateCommit,
      aPortCommit] at h ⊢ <;> omega

theorem writeAt_register {s : State} {m : Master} {a w v : Nat} {r : RegRow} {x : RegWord} {is : List Nat}
    (h : s.mayAct m = true) (hr : Placed a r is w) (hm : s.mayWrite m r is = true) (hp : s.protects r is = false)
    (hx : r.words[w]? = some x) : s.writeAt m a v = .next (s.writeReg m r x is w a v) := by
  obtain ⟨ha, hlt, hd, hb⟩ := hr
  have hprog : progPlace a = none := by
    rw [progPlace, if_neg (by omega), if_neg (by omega)]
  have he : inEmView a = false := decide_eq_false (by omega)
  rw [writeAt_bus h (globalAddr_of_lt s m hlt), busWrite_word ha hprog he hb hd hm hp hx]

/-- The registers of partition 0 are written by its host and by EOSTA (R454). -/
theorem mayWrite_of_p0 {m : Master} {r : RegRow} (s : State) (is : List Nat) (hw : r.wp = .w_p0) (hm : masterIs m 0 = true) :
    s.mayWrite m r is = true := by
  cases m with
  | eosta => rfl
  | host p => simpa [State.mayWrite, State.partWrites, hw, masterIs] using hm

section
variable {s : State} {m : Master} {x : RegWord} {is : List Nat} {w a v : Nat} (hc : commitWriter a = none)
include hc

theorem writeReg_ucsModeNext : s.writeReg m rowUcsModeNext x is w a v = s.modeNextWrite (is.headD 0) v := by
  rw [State.writeReg, hc]
  rfl

theorem writeReg_hstDsub : s.writeReg m rowHstDsub x is w a v = s.dsubWrite (is.headD 0) w v := by
  rw [State.writeReg, hc]
  rfl

theorem writeReg_cntSel : s.writeReg m rowCntSel x is w a v = s.selWrite (is.headD 0) (is.getD 1 0) v := by
  rw [State.writeReg, hc]
  rfl

theorem writeReg_cntWin : s.writeReg m rowCntWin x is w a v = s.winWrite w v := by
  simp [State.writeReg, hc, rowCntWin, aQshTaccCtl, aClsTcamStgOp, aMstLbWdata, aMstLbSvc, aPtpRate, aPtpStep, aPtpSet,
    aPtpEecCfg, aTopFwCtl, aTopFwAddr, aTopFwLen, aUcsModeNext, aHstDsub, aCntSel, aCntWin]

theorem writeReg_cntUserRead : s.writeReg m rowCntUserRead x is w a v = s.userReadWrite (is.headD 0) v := by
  rw [State.writeReg, hc]
  rfl

theorem writeReg_portLanemap : s.writeReg m rowPortLanemap x is w a v = s.laneWrite (is.headD 0) v := by
  rw [State.writeReg, hc]
  rfl

end

section
variable {m : Master} {s : State} (hact : s.mayAct m = true)
include hact

section
variable (hm : masterIs m 0 = true)
include hm

theorem exec_ucsModeNextWrite (w : Fin 6) (v : Word32) :
    exec (.ucsModeNextWrite m w v) s = .next (s.modeNextWrite w.val v.toNat) := by
  have hc := commitWriter_eq_none (a := aUcsModeNext w.val) (.inl (by unfold aUcsModeNext aTskCommit; omega))
  change s.writeAt m (aUcsModeNext w.val) v.toNat = _
  rw [writeAt_register hact (placed_ucsModeNext w) (mayWrite_of_p0 s _ rfl hm) rfl rfl, writeReg_ucsModeNext hc]
  rfl

theorem exec_hstDsubWrite (p : Part) (hi : Bool) (v : Word32) :
    exec (.hstDsubWrite m p hi v) s = .next (s.dsubWrite p.val (natBool hi) v.toNat) := by
  have hx : natBool hi < rowHstDsub.words.length := by cases hi <;> decide
  have hc := commitWriter_eq_none (a := aHstDsub p.val + 4 * natBool hi) (.inr (.inr (by unfold aHstDsub aHstCommit; omega)))
  change s.writeAt m (aHstDsub p.val + 4 * natBool hi) v.toNat = _
  rw [writeAt_register hact (placed_hstDsub p hi) (mayWrite_of_p0 s _ rfl hm) rfl (List.getElem?_eq_getElem hx),
    writeReg_hstDsub hc]
  rfl

theorem exec_cntSelWrite {u : Fin 107} {i : Fin 16} (hi : i.val < unitCounters u.val) (v : Word32) :
    exec (.cntSelWrite m u i v) s = .next (s.selWrite u.val i.val v.toNat) := by
  have hc := commitWriter_eq_none (a := aCntSel u.val i.val) (.inr (.inl (by unfold aCntSel aPortCommit aHstCommit; omega)))
  change s.writeAt m (aCntSel u.val i.val) v.toNat = _
  rw [writeAt_register hact (placed_cntSel hi) (mayWrite_of_p0 s _ rfl hm) rfl rfl, writeReg_cntSel hc]
  rfl

theorem exec_cntWinWrite (w : Fin 4) (v : Word32) : exec (.cntWinWrite m w v) s = .next (s.winWrite w.val v.toNat) := by
  have hc := commitWriter_eq_none (a := aCntWin + 4 * w.val) (.inr (.inl (by unfold aCntWin aPortCommit aHstCommit; omega)))
  change s.writeAt m (aCntWin + 4 * w.val) v.toNat = _
  rw [writeAt_register hact (placed_cntWin w) (mayWrite_of_p0 s _ rfl hm) rfl (List.getElem?_eq_getElem w.isLt),
    writeReg_cntWin hc]

theorem exec_cntUserReadWrite (p : Part) (v : Word32) :
    exec (.cntUserReadWrite m p v) s = .next (s.userReadWrite p.val v.toNat) := by
  have hc := commitWriter_eq_none (a := aCntUserRead p.val)
    (.inr (.inl (by unfold aCntUserRead aPortCommit aHstCommit; omega)))
  change s.writeAt m (aCntUserRead p.val) v.toNat = _
  rw [writeAt_register hact (placed_cntUserRead p) (mayWrite_of_p0 s _ rfl hm) rfl rfl, writeReg_cntUserRead hc]
  rfl

end

theorem exec_lanemapWrite {n : PortId} (hm : s.mayWrite m rowPortLanemap [n.val] = true) (v : Word32) :
    exec (.lanemapWrite m n v) s = .next (s.laneWrite n.val v.toNat) := by
  have hc := commitWriter_eq_none (a := aPortLanemap n.val)
    (.inr (.inl (by unfold aPortLanemap aPortCommit aHstCommit; omega)))
  change s.writeAt m (aPortLanemap n.val) v.toNat = _
  rw [writeAt_register hact (placed_portLanemap n) hm rfl rfl, writeReg_portLanemap hc]
  rfl

theorem exec_lbWdataWrite (p : Part) (hi : Bool) (v : Word32) :
    exec (.lbWdataWrite m p hi v) s = .next (s.lbWrite m p.val hi v.toNat) := if_pos hact

theorem exec_lbSvcWrite (n : Fin 1024) (v : Word32) :
    exec (.lbSvcWrite m n v) s = .next (s.lbSvc m n.val v.toNat) := if_pos hact

end

/-! ### Sub-regions of the host's DRAM (R488) -/

section
variable {s : State} {p w v : Nat}

/-- The first and last unit of sub-region k of partition q. -/
def dsubRange (t : State) (q k : Nat) : Nat × Nat :=
  (bitsOf (t.regN (aHstDsub q + 4 * k)) 0 12, bitsOf (t.regN (aHstDsub q + 4 * k)) 16 12)

/-- The state with a word of HST_DSUB written. -/
def dsubPut (s : State) (p w v : Nat) : State := s.setRegN (aHstDsub p + 4 * w) (v &&& 0x0FFF0FFF)

theorem dsubWrite_apart (h : ∀ q k l, q < 4 → q ≠ p → k < 2 → l < 2 →
      rangesMeet (dsubRange (dsubPut s p w v) p k) (dsubRange (dsubPut s p w v) q l) = false) :
    s.dsubWrite p w v = dsubPut s p w v := by
  refine if_neg fun hclash => ?_
  obtain ⟨q, hq, hmeet⟩ := List.any_eq_true.1 hclash
  obtain ⟨hne, hmeet⟩ := Bool.and_eq_true_iff.1 hmeet
  obtain ⟨k, hk, hmeet⟩ := List.any_eq_true.1 hmeet
  obtain ⟨l, hl, hmeet⟩ := List.any_eq_true.1 hmeet
  exact Bool.false_ne_true ((h q k l (List.mem_range.1 hq) (bne_iff_ne.1 hne) (List.mem_range.1 hk)
    (List.mem_range.1 hl)).symm.trans hmeet)

theorem dsubWrite_meets {q k l : Nat} (hq : q < 4) (hne : q ≠ p) (hk : k < 2) (hl : l < 2)
    (h : rangesMeet (dsubRange (dsubPut s p w v) p k) (dsubRange (dsubPut s p w v) q l) = true) :
    s.dsubWrite p w v = s := by
  refine if_pos (List.any_eq_true.2 ⟨q, List.mem_range.2 hq, Bool.and_eq_true_iff.2 ⟨bne_iff_ne.2 hne, ?_⟩⟩)
  refine List.any_eq_true.2 ⟨k, List.mem_range.2 hk, List.any_eq_true.2 ⟨l, List.mem_range.2 hl, ?_⟩⟩
  exact h

end

/-! ### Programmable counters and their window (R524, R527, R538, R550) -/

theorem word_and_mod (v : Word32) (n : Nat) : (v.toNat &&& n) % 2 ^ 32 = v.toNat &&& n :=
  Nat.mod_eq_of_lt (lt_of_le_of_lt Nat.and_le_left v.isLt)

theorem count_setCnt (s : State) (m : SMap Nat) (a n : Nat) : ({ s with cnt := mset zeroN m a n } : State).count a = n :=
  mget_mset_self _ _ _ _

theorem selWrite_refused {s : State} {u i v : Nat} (h : selOk u v = false) : s.selWrite u i v = s :=
  if_pos (by rw [h]; rfl)

theorem selWrite_selects {s : State} {u i : Nat} {v : Word32} (h : selOk u v.toNat = true) :
    let z := s.selWrite u i v.toNat
    z.regN (aCntSel u i) = v.toNat &&& 0xF3FFFFFF ∧
      z.count (aCntVal u i) =
        (if bitOf v.toNat 31 && !bitOf (s.regN (aCntSel u i)) 31 then 0 else s.count (aCntVal u i)) ∧
      z = { s with regs := z.regs, cnt := z.cnt } := by
  let t := s.setRegN (aCntSel u i) (v.toNat &&& 0xF3FFFFFF)
  have hreg : t.regN (aCntSel u i) = v.toNat &&& 0xF3FFFFFF := by
    rw [regN_setRegN, if_pos rfl, word_and_mod]
  intro z
  have hz : z = if bitOf v.toNat 31 && !bitOf (s.regN (aCntSel u i)) 31 then
      { t with cnt := mset zeroN s.cnt (aCntVal u i) 0 } else t := if_neg (by rw [h]; decide)
  rw [hz]
  split
  · exact ⟨hreg, count_setCnt _ _ _ _, rfl⟩
  · exact ⟨hreg, rfl, rfl⟩

theorem setRegN_toNat (s : State) (a : Nat) (v : Word32) : s.setRegN a v.toNat = s.setReg a v := by
  rw [State.setRegN, BitVec.ofNat_toNat, BitVec.setWidth_eq]

/-- A low word of CNT_WIN is only held. -/
theorem winWrite_low {s : State} {w : Nat} (v : Word32) (hw : w % 2 = 0) :
    s.winWrite w v.toNat = s.setReg (aCntWin + 4 * w) v :=
  (if_pos hw).trans (setRegN_toNat _ _ _)

/-- The state with one end of the counters' window set. -/
def winPut (s : State) (w n : Nat) : State :=
  if w = 1 then { s with coll := { s.coll with winStart := n } } else { s with coll := { s.coll with winStop := n } }

theorem winPut_coll (s : State) (w n : Nat) :
    (winPut s w n).coll = (if w = 1 then { s.coll with winStart := n } else { s.coll with winStop := n }) ∧
      winPut s w n = { s with coll := (winPut s w n).coll } := by
  unfold winPut
  split <;> exact ⟨rfl, rfl⟩

/-- The high word applies both; a time that has passed occurs at once or never (R484 case 9, log 19). -/
theorem winWrite_high {s : State} {w : Nat} (v : Word32) (hw : w % 2 = 1) :
    let g := s.regN (aCntWin + 4 * (w - 1)) + v.toNat * 2 ^ 32
    let t := s.setRegN (aCntWin + 4 * w) v.toNat
    s.winWrite w v.toNat =
      if g ≤ s.clk.gtc then winPut t.useFree w (if s.freeVal.getLsbD 0 then g else 2 ^ 64 - 1) else winPut t w g := by
  have hlow : (s.setRegN (aCntWin + 4 * w) v.toNat).regN (aCntWin + 4 * (w - 1)) = s.regN (aCntWin + 4 * (w - 1)) := by
    rw [regN_setRegN, if_neg (by omega)]
  have hv : v.toNat % 2 ^ 32 = v.toNat := Nat.mod_eq_of_lt v.isLt
  refine (if_neg (by omega)).trans ?_
  dsimp only
  rw [hlow, hv]
  rfl

theorem winWrite_passed {s : State} {w : Nat} (v : Word32) (hw : w % 2 = 1)
    (hg : s.regN (aCntWin + 4 * (w - 1)) + v.toNat * 2 ^ 32 ≤ s.clk.gtc) :
    let g := s.regN (aCntWin + 4 * (w - 1)) + v.toNat * 2 ^ 32
    let z := s.winWrite w v.toNat
    ∃ n, (n = g ∨ n = 2 ^ 64 - 1) ∧
      z.coll = (if w = 1 then { s.coll with winStart := n } else { s.coll with winStop := n }) ∧
      z = { s with coll := z.coll, regs := z.regs, clk := { s.clk with free := s.clk.free + 1 } } := by
  intro g z
  let n := if s.freeVal.getLsbD 0 then g else 2 ^ 64 - 1
  have hz : z = winPut (s.setRegN (aCntWin + 4 * w) v.toNat).useFree w n := (winWrite_high v hw).trans (if_pos hg)
  obtain ⟨hcoll, honly⟩ := winPut_coll (s.setRegN (aCntWin + 4 * w) v.toNat).useFree w n
  refine ⟨n, ite_eq_or_eq _ _ _, by rw [hz]; exact hcoll, ?_⟩
  rw [hz, honly]
  rfl

theorem winWrite_ahead {s : State} {w : Nat} (v : Word32) (hw : w % 2 = 1)
    (hg : s.clk.gtc < s.regN (aCntWin + 4 * (w - 1)) + v.toNat * 2 ^ 32) :
    let g := s.regN (aCntWin + 4 * (w - 1)) + v.toNat * 2 ^ 32
    let z := s.winWrite w v.toNat
    z.coll = (if w = 1 then { s.coll with winStart := g } else { s.coll with winStop := g }) ∧
      z = { s with coll := z.coll, regs := z.regs } := by
  intro g z
  have hz : z = winPut (s.setRegN (aCntWin + 4 * w) v.toNat) w g := (winWrite_high v hw).trans (if_neg (Nat.not_le.2 hg))
  obtain ⟨hcoll, honly⟩ := winPut_coll (s.setRegN (aCntWin + 4 * w) v.toNat) w g
  refine ⟨by rw [hz]; exact hcoll, ?_⟩
  rw [hz, honly]
  rfl

theorem stream_setStream_self (s : State) (p k : Nat) (x : Stream) : (s.setStream p k x).stream p k = x := mget_mset_self _ _ _ _

/-- A stream that its partition may no longer run is disabled. -/
theorem userReadWrite_disables (s : State) (p : Nat) (v : Word32) :
    let z := s.userReadWrite p v.toNat
    z.regN (aCntUserRead p) = v.toNat &&& 0x80000003 ∧
      (z.userMay p (s.stream p 1).cfg.pages = false → (z.stream p 1).en = false) := by
  let t := s.setRegN (aCntUserRead p) (v.toNat &&& 0x80000003)
  have hreg : t.regN (aCntUserRead p) = v.toNat &&& 0x80000003 := by
    rw [regN_setRegN, if_pos rfl, word_and_mod]
  intro z
  have hz : z = if (s.stream p 1).en && !t.userMay p (s.stream p 1).cfg.pages then
      t.setStream p 1 { s.stream p 1 with en := false } else t := rfl
  rw [hz]
  split
  · exact ⟨hreg, fun _ => by rw [stream_setStream_self]⟩
  next hstays =>
    refine ⟨hreg, fun hmay => ?_⟩
    change t.userMay p (s.stream p 1).cfg.pages = false at hmay
    rw [hmay] at hstays
    exact Bool.eq_false_iff.2 fun hen => hstays (by rw [show (s.stream p 1).en = true from hen]; rfl)

/-! ### Lane maps (R408) -/

theorem laneWrite_quiet {s : State} {n v : Nat} (h : s.portEn n = false ∨ s.regN (aPortLanemap n) = v % 2 ^ 24) :
    s.laneWrite n v = s.setRegN (aPortLanemap n) (v % 2 ^ 24) :=
  if_neg fun ⟨hen, hne⟩ => h.elim (fun hoff => Bool.false_ne_true (hoff.symm.trans hen)) hne

/-- A new lane map of an enabled port may take its link down (R484 case 6, log 19). -/
theorem laneWrite_live {s : State} {n v : Nat} (hen : s.portEn n = true) (hne : s.regN (aPortLanemap n) ≠ v % 2 ^ 24) :
    let z := (s.setRegN (aPortLanemap n) (v % 2 ^ 24)).useFree
    s.laneWrite n v = z ∨ s.laneWrite n v = z.linkFall n :=
  have hlane := if_pos (c := _ ∧ _) ⟨hen, hne⟩
  (ite_eq_or_eq _ _ _).symm.imp hlane.trans hlane.trans

/-! ### Tables of the load balancer (R308 to R314) -/

theorem fld_setMst (s : State) (x : Mst) (a lo w : Nat) : (s.setMst x).fld a lo w = s.fld a lo w := rfl

/-- A field read back where it was written. -/
theorem fld_setFld_self (s : State) (a : Nat) {lo w : Nat} (x : Nat) (h : lo + w ≤ 32) :
    (s.setFld a lo w x).fld a lo w = x % 2 ^ w := by
  unfold State.fld State.setFld
  rw [regN_setRegN, if_pos rfl]
  refine Nat.eq_of_testBit_eq fun i => ?_
  rw [testBit_bitsOf, Nat.testBit_mod_two_pow, Nat.testBit_mod_two_pow, testBit_putBits]
  by_cases hi : i < w
  · simp [hi, show lo + i < 32 by omega]
  · simp [hi]

/-- The write at MST_LB_WADDR of partition p is refused: its service is not the partition's, or its bank is in use. -/
def LbRefuses (s : State) (p : Nat) : Prop :=
  let lbw := s.regN (aMstLbWaddr p)
  let act := s.regN (aMstLbSvc (bitsOf lbw 14 10))
  inRange (lbRange s.committed p) (bitsOf lbw 14 10) = false ∨ (bitOf act 31 = true ∧ bitsOf act 0 1 = bitsOf lbw 24 1)

theorem not_lbRefuses {s : State} {p : Nat}
    (hr : inRange (lbRange s.committed p) (bitsOf (s.regN (aMstLbWaddr p)) 14 10) = true)
    (hb : bitOf (s.regN (aMstLbSvc (bitsOf (s.regN (aMstLbWaddr p)) 14 10))) 31 = false ∨
      bitsOf (s.regN (aMstLbSvc (bitsOf (s.regN (aMstLbWaddr p)) 14 10))) 0 1 ≠ bitsOf (s.regN (aMstLbWaddr p)) 24 1) :
    ¬LbRefuses s p := by
  rintro (hout | ⟨hon, hbank⟩)
  · exact Bool.false_ne_true (hout.symm.trans hr)
  · exact hb.elim (fun hoff => Bool.false_ne_true (hoff.symm.trans hon)) (· hbank)

section
variable {m : Master} {p : Nat} {s : State} (hm : masterIs m p = true)
include hm

theorem lbWrite_low (v : Word32) : s.lbWrite m p false v.toNat = s.setReg (aMstLbWdata p) v := by
  rw [State.lbWrite, hm]
  exact setRegN_toNat _ _ _

/-- A refused write is counted, and the address moves on all the same (R313). -/
theorem lbWrite_refused (v : Nat) (h : LbRefuses s p) :
    s.lbWrite m p true v =
      (s.setFld (aMstLbWaddr p) 0 14 (bitsOf (s.regN (aMstLbWaddr p)) 0 14 + 1)).bump (aMstLbCnt p 3) 1 := by
  rw [State.lbWrite, hm]
  exact if_pos h

/-- The slot of MST_LB_WADDR takes both words. -/
theorem lbWrite_puts (v : Nat) (h : ¬LbRefuses s p) :
    let lbw := s.regN (aMstLbWaddr p)
    let key := (bitsOf lbw 24 1 * 1024 + bitsOf lbw 14 10) * 16384 + bitsOf lbw 0 14
    let s1 := s.setFld (aMstLbWaddr p) 0 14 (bitsOf lbw 0 14 + 1)
    s.lbWrite m p true v =
      s1.setMst { s.mst with lb := mset zero64 s.mst.lb key (BitVec.ofNat 64 (s.regN (aMstLbWdata p) + v * 2 ^ 32)) } := by
  rw [State.lbWrite, hm]
  exact if_neg h

end

/-- Settles O50. Each write reaches its register's own effect (`writeAt_register`), whose cases are the clauses. A window time
that has passed and a new lane map of an enabled port are undefined (R484), and the model takes a free value (log 19). -/
theorem writesActAtOnce : Obligations.WritesActAtOnce := by
  intro m word part hi u sel win port svc v s p n d t range c lbw g hact
  refine ⟨fun hm => ⟨?_, fun hapart => ?_, fun q k l hq hne hk hl hmeet => ?_, fun hsel hok => ?_, fun hsel hno => ?_,
      fun hw => ?_, fun hw hg => ?_, fun hw hg => ?_, ?_⟩,
    fun hm hq => ?_, fun hm hen hne => ?_, fun hm => ⟨?_, fun hr hb => ?_, fun hno => ?_⟩, fun q hq hno => ?_, fun hin => ?_⟩
  · refine ⟨_, exec_ucsModeNextWrite hact hm word v, ?_, rfl, rfl⟩
    rw [State.modeNextWrite, setRegN_toNat]
    exact reg_setReg_self _ _ _
  · rw [exec_hstDsubWrite hact hm, dsubWrite_apart (w := natBool hi) hapart]
    rfl
  · rw [exec_hstDsubWrite hact hm, dsubWrite_meets (w := natBool hi) hq hne hk hl hmeet]
  · exact ⟨_, exec_cntSelWrite hact hm hsel v, selWrite_selects hok⟩
  · rw [exec_cntSelWrite hact hm hsel, selWrite_refused hno]
  · rw [exec_cntWinWrite hact hm, winWrite_low v hw]
  · obtain ⟨x, hx⟩ := winWrite_passed v hw hg
    exact ⟨_, x, exec_cntWinWrite hact hm win v, hx⟩
  · exact ⟨_, exec_cntWinWrite hact hm win v, winWrite_ahead v hw hg⟩
  · exact ⟨_, exec_cntUserReadWrite hact hm part v, userReadWrite_disables s _ v⟩
  · rw [exec_lanemapWrite hact hm, laneWrite_quiet hq]
  · rw [exec_lanemapWrite hact hm]
    exact (laneWrite_live hen hne).imp (congrArg _) (congrArg _)
  · rw [exec_lbWdataWrite hact, lbWrite_low hm]
  · refine ⟨_, (exec_lbWdataWrite hact part true v).trans (congrArg _ (lbWrite_puts hm _ (not_lbRefuses hr hb))),
      mget_mset_self _ _ _ _, fun k hk => mget_mset_ne _ _ _ hk, ?_⟩
    exact (fld_setMst _ _ _ _ _).trans (fld_setFld_self _ _ _ (by decide))
  · refine ⟨_, (exec_lbWdataWrite hact part true v).trans (congrArg _ (lbWrite_refused hm _ hno)), ?_, rfl⟩
    rw [bump_signals]
    rfl
  · rw [exec_lbSvcWrite hact, hq]
    exact congrArg _ (if_neg (by rw [hno]; decide))
  · rw [exec_lbSvcWrite hact]
    cases m with
    | eosta => rfl
    | host q => exact congrArg _ (if_pos (hin q rfl))

end Sys2Proof.Proofs

/-! PROOF. Dispatch and reordering: what leaves the reorder unit, delay lists, keepalives and expiries, and the timeouts of a race
(R149 to R157, R163, R164, R167, R241). -/

namespace Sys2Proof.Proofs

open Sys2Proof Sys2Proof.Machine Sys2Proof.Laws

/-! ### What leaves the reorder unit (R163) -/

/-- A slot of port `p` is held among `l`. -/
def holdsPort (l : List RobSlot) (p : Nat) : Bool := l.any fun y => y.out.isNone && y.port == p

theorem holdsPort_append (l : List RobSlot) (x : RobSlot) (p : Nat) :
    holdsPort (l ++ [x]) p = (holdsPort l p || (x.out.isNone && x.port == p)) := by
  simp [holdsPort]

/-- The slot at place `i` of `l` stays: it is held, or a slot of its port before it is. -/
def stays (l : List RobSlot) : RobSlot × Nat → Bool := fun (x, i) => x.out.isNone || holdsPort (l.take i) x.port

/-- Its packet leaves: it has ended, and no slot of its port before it is held. -/
def leaves (l : List RobSlot) : RobSlot × Nat → Bool := fun (x, i) => x.out.isSome && !holdsPort (l.take i) x.port

theorem stays_at (pre l : List RobSlot) (x y : RobSlot) :
    stays (pre ++ y :: l) (x, pre.length) = (x.out.isNone || holdsPort pre x.port) := by
  simp [stays]

theorem leaves_at (pre l : List RobSlot) (x y : RobSlot) :
    leaves (pre ++ y :: l) (x, pre.length) = (x.out.isSome && !holdsPort pre x.port) := by
  simp [leaves]

/-- The unit's walk: the ports that block the rest `l` are those held in what stands before it. -/
theorem robDrain_eq (l : List RobSlot) : ∀ (pre : List RobSlot) (blocked : List Nat),
    (∀ p, blocked.contains p = holdsPort pre p) →
    robDrain l blocked = (((l.zipIdx pre.length).filter (stays (pre ++ l))).map Prod.fst,
      ((l.zipIdx pre.length).filter (leaves (pre ++ l))).flatMap fun (x, _) => x.out.getD []) := by
  induction l with
  | nil => exact fun _ _ _ => rfl
  | cons x l ih =>
    intro pre blocked hblocked
    have hlen : (pre ++ [x]).length = pre.length + 1 := by simp
    have hall : pre ++ [x] ++ l = pre ++ x :: l := by simp
    have hrest := ih (pre ++ [x])
    rw [hlen, hall] at hrest
    rw [List.zipIdx_cons, List.filter_cons, List.filter_cons, stays_at, leaves_at, ← hblocked]
    unfold robDrain
    cases hout : x.out with
    | none =>
      rw [hrest (x.port :: blocked) fun p => ?_]
      · simp
      · rw [holdsPort_append, ← hblocked, hout, List.contains_cons, Bool.or_comm]
        simp [Bool.beq_comm]
    | some o =>
      rw [hrest blocked fun p => by rw [holdsPort_append, ← hblocked, hout]; simp]
      cases blocked.contains x.port <;> simp [hout]

/-- Settles O16, with nothing before the first slot. -/
theorem packetsLeaveInPortOrder : Obligations.PacketsLeaveInPortOrder := by
  intro l
  have hdrain := robDrain_eq l [] [] fun _ => rfl
  exact ⟨congrArg Prod.fst hdrain, congrArg Prod.snd hdrain⟩

/-! ### What a change of races leaves -/

theorem OnlyRaces.pkt {s t : State} (h : OnlyRaces s t) (k : Nat) : t.pkt k = s.pkt k := by
  rw [h]
  rfl

theorem OnlyRaces.mems {s t : State} (h : OnlyRaces s t) : t.mems = s.mems := by rw [h]

theorem curSlot_setRace (s : State) (r d : Nat) (x : Race) : (s.setRace r x).curSlot d = s.curSlot d := rfl

theorem classEntry_setRace (s : State) (r q d v cls : Nat) (x : Race) :
    (s.setRace r x).classEntry q d v cls = s.classEntry q d v cls := rfl

theorem fld_setRace (s : State) (r a lo w : Nat) (x : Race) : (s.setRace r x).fld a lo w = s.fld a lo w := rfl

theorem pkt_addPkt (s : State) (p : Packet) : (s.addPkt p).2.pkt s.nextPkt = p := pkt_setPkt_self s s.nextPkt p

/-! ### Delay lists and what falls due (R149 to R157, R241) -/

theorem stampFirings_sameTime (s : State) (r : Nat) : SameTime s (s.stampFirings r) :=
  sameTime_foldl (fun t d => stampOne_sameTime t r d) _ s

section
variable {race : RaceId} {s : State} (hr : s.runs = true)
include hr

theorem delayTick_leaves (unit : Fin 4) :
    let v := s.stampFirings race.val
    let u := ((v.race race.val).dueProgs unit.val s.clk.gtc).foldl (fun s d => s.leaveList race.val d) v
    exec (.delayTick race unit) s = .next (u.enterInOrder race.val (u.dueBare race.val unit.val)) := by
  rw [← (stampFirings_sameTime s race.val).2]
  exact if_pos hr

theorem delayEntryObtained_places {t : ThreadId} {c : Ctx} (hc : (s.thr (thrNum t)).ctx = some c)
    (hg : (s.thr (thrNum t)).gate = some .entry) (hh : (s.thr (thrNum t)).halted = none)
    (hroom : s.delayRoom t.race.val = true) :
    let w := s.fetch t.race.val c
    exec (.delayEntryObtained t) s = .next ((s.placeDelay (thrNum t) (bitsOf w 24 2)
      (if bitOf w 23 then (c.gr (Fin.ofNat 16 (bitsOf w 16 4))).toNat % 65536 else bitsOf w 0 16)
        (Ctx.next c)).slotsSpent (thrNum t) c (BitVec.ofNat 32 w)) := by
  change execDelayEntryObtained t s = _
  unfold execDelayEntryObtained
  dsimp only
  rw [hc, raceOf_thrNum]
  exact if_pos ⟨hr, hg, hh, hroom⟩

end

section
variable {race : RaceId} {s v : State} {d : Delayed} (hv : v = s.stampFirings race.val)
include hv

theorem keepaliveFire_enters {timer : Fin 4096}
    (hd : (v.race race.val).dly.find? (fun d => decide (d.kind = .timer timer.val)) = some d)
    (hfirst : (v.dueBare race.val d.list).head? = some d) :
    exec (.keepaliveFire race timer) s = .next (v.enterBare race.val d) := by
  subst hv
  change execKeepaliveFire race timer s = _
  unfold execKeepaliveFire
  dsimp only
  rw [hd]
  exact if_pos hfirst

theorem dueTaskEnqueue_enters {unit : Fin 4} (hfirst : (v.dueBare race.val unit.val).head? = some d) :
    exec (.dueTaskEnqueue race unit) s = .next (v.enterBare race.val d) := by
  subst hv
  change execDueTaskEnqueue race unit s = _
  unfold execDueTaskEnqueue
  dsimp only
  rw [hfirst]

end

/-- A firing whose class runs a program asks the Hopper for its cell (R156, R331). -/
theorem enterBare_timer_asks {s : State} {r j slot ps pn : Nat} {d : Delayed} {e : Nat × Nat × Nat}
    (hroom : s.bareRoom r d = true) (hk : d.kind = .timer j) (hfired : d.fired = some (slot, ps, pn)) (hslot : slot ≠ noSlot)
    (hrun : s.firing r j d = some (slot, ps, pn, e)) :
    s.enterBare r d = s.askHopper (islRace r) (32 * r + 3) (4096 + s.domOwner d.firedDom) (.keepalive r j) := by
  unfold State.enterBare State.fireTimer
  rw [if_pos hroom, hk, hfired]
  dsimp only
  rw [if_neg hslot, hrun]

/-- A task joins the tail of the new-task queue of race `r`. -/
def enterQueue (s : State) (r : Nat) (t : Task) : State := s.setRace r { s.race r with ntq := (s.race r).ntq ++ [t] }

theorem race_enterQueue (s : State) (r : Nat) (t : Task) :
    (enterQueue s r t).race r = { s.race r with ntq := (s.race r).ntq ++ [t] } :=
  race_setRace_self _ _ _

theorem enterQueue_races (s : State) (r : Nat) (t : Task) : OnlyRaces s (enterQueue s r t) := rfl

/-- The task of the expiry `d`, which runs the class of its domain's expiries with the flow view that it brings (R241). -/
def expiryTask (s : State) (slot img pc prio : Nat) (d : Delayed) : Task :=
  let dom := (s.pkt d.ctx.pkt).dom
  bareTask d.ctx.pkt img pc prio dom slot (s.fld (aMstExp dom) 16 12) d.ctx.fv

/-- Race `r` once the expiry `d` has left its list, its packet stamped with version slot `slot` (R199, R200). -/
def expiryStamped (s : State) (r slot : Nat) (d : Delayed) : State :=
  let p := s.pkt d.ctx.pkt
  ((s.setRace r { s.race r with dly := (s.race r).dly.erase d }).setPkt d.ctx.pkt { p with slot := slot }).verIn p.dom slot

theorem race_expiryStamped (s : State) (r slot : Nat) (d : Delayed) :
    (expiryStamped s r slot d).race r = { s.race r with dly := (s.race r).dly.erase d } := race_setRace_self _ _ _

theorem pkt_expiryStamped (s : State) (r slot : Nat) (d : Delayed) :
    (expiryStamped s r slot d).pkt d.ctx.pkt = { s.pkt d.ctx.pkt with slot := slot } := pkt_setPkt_self _ _ _

theorem mems_expiryStamped (s : State) (r slot : Nat) (d : Delayed) : (expiryStamped s r slot d).mems = s.mems := rfl

section
variable {s : State} {r slot img pc prio : Nat} {d : Delayed} (hroom : s.bareRoom r d = true) (hk : d.kind = .expiry)
  (hslot : s.curSlot (s.pkt d.ctx.pkt).dom = some slot)
  (hrun : s.classEntry r (s.pkt d.ctx.pkt).dom slot (s.fld (aMstExp (s.pkt d.ctx.pkt).dom) 16 12) = some (img, pc, prio))
include hroom hk hslot hrun

theorem enterBare_expiry :
    s.enterBare r d = (enterQueue (expiryStamped s r slot d) r (expiryTask s slot img pc prio d)).pauses r := by
  unfold State.enterBare
  rw [if_pos hroom, hk]
  dsimp only
  unfold State.enterExpiry
  dsimp only
  rw [curSlot_setRace, hslot]
  dsimp only
  rw [classEntry_setRace, fld_setRace, hrun]
  rfl

/-- A due expiry task whose class runs a program leaves its list for the new-task queue (R241). -/
theorem enterBare_expiry_enters :
    let u := s.enterBare r d
    (u.race r).ntq = (s.race r).ntq ++ [expiryTask s slot img pc prio d] ∧ (u.race r).dly = (s.race r).dly.erase d ∧
      u.pkt d.ctx.pkt = { s.pkt d.ctx.pkt with slot := slot } ∧ u.mems = s.mems := by
  intro u
  have hu : u = _ := enterBare_expiry hroom hk hslot hrun
  have hqueued : OnlyRaces (expiryStamped s r slot d) u := hu ▸ (pauses_races _ r).after (enterQueue_races _ r _)
  refine ⟨?_, ?_, (hqueued.pkt _).trans (pkt_expiryStamped s r slot d),
    hqueued.mems.trans (mems_expiryStamped s r slot d)⟩
  · rw [hu, race_pauses, race_enterQueue, race_expiryStamped]
  · rw [hu, race_pauses, race_enterQueue, race_expiryStamped]

end

/-! ### A granted cell (R320, R321, R327, R340) -/

/-- From `s` to `t` nothing has changed but the Hopper's state and counters. -/
def OnlyHopper (s t : State) : Prop := t = { s with hop := t.hop, cnt := t.cnt, regs := t.regs }

theorem OnlyHopper.after {s t u : State} (h2 : OnlyHopper t u) (h1 : OnlyHopper s t) : OnlyHopper s u := by
  unfold OnlyHopper at *
  rw [h2, h1]

theorem onlyHopper_of_onlyCounters {s t : State} (h : OnlyCounters s t) : OnlyHopper s t := by
  unfold OnlyHopper
  rw [h.1]

theorem setCell_hopper (s : State) (c : Nat) (x : CellSt) : OnlyHopper s (s.setCell c x) := rfl

theorem cacheReturn_hopper (s : State) (k : Nat) : OnlyHopper s (s.cacheReturn k) :=
  List.foldlRecOn (motive := OnlyHopper s) _ _ rfl fun t ht _ _ => OnlyHopper.after (t := t) rfl ht

theorem cacheLevel_hopper (s : State) : OnlyHopper s s.cacheLevel := by
  unfold State.cacheLevel
  dsimp only
  split
  · exact cacheReturn_hopper s 0
  · split
    · exact cacheReturn_hopper s 16
    · rfl

theorem ringPurge_hopper (f : Nat) : ∀ s : State, OnlyHopper s (s.ringPurge f) := by
  induction f with
  | zero => exact fun _ => rfl
  | succ f ih =>
    intro s
    unfold State.ringPurge
    split
    · split
      · exact (ih _).after rfl
      · rfl
    · rfl

theorem purge_hopper (s : State) : OnlyHopper s s.purge := ringPurge_hopper _ s

theorem ringTake_hopper {s s1 : State} {c : Nat} (h : s.ringTake = some (c, s1)) : OnlyHopper s s1 := by
  unfold State.ringTake at h
  split at h
  · cases h
    exact (purge_hopper _).after rfl
  · cases h

theorem cacheTake_hopper (r n : Nat) : ∀ s : State, OnlyHopper s (s.cacheTake r n) := by
  induction n with
  | zero => exact fun _ => rfl
  | succ n ih =>
    intro s
    unfold State.cacheTake
    split
    next c s1 h => exact (ih _).after (OnlyHopper.after rfl (ringTake_hopper h))
    next => rfl

theorem cacheFill_hopper (s : State) (r : Nat) : OnlyHopper s (s.cacheFill r) := by
  unfold State.cacheFill
  split
  · dsimp only
    split
    · exact cacheTake_hopper r 64 s
    · exact (purge_hopper _).after rfl
  · rfl

/-- A race that takes a cell refills its cache from the ring. -/
theorem takeCell_hopper {s s1 : State} {r c : Nat} (h : s.takeCell (some r) = some (c, s1)) : OnlyHopper s s1 := by
  have refill (t : State) : OnlyHopper t (t.cacheFill r).cacheLevel := (cacheLevel_hopper _).after (cacheFill_hopper t r)
  have fromCache (q : Nat) {c : Nat} {s1 : State} (h : (match runTake (s.cache q) with
      | some (c, l) => some (c, s.setCache q l)
      | none => none) = some (c, s1)) : OnlyHopper s s1 := by
    split at h
    · cases h
      rfl
    · cases h
  unfold State.takeCell at h
  dsimp only at h
  rw [Option.bind_some] at h
  split at h
  next hcache =>
    cases h
    exact (refill _).after (fromCache r hcache)
  next =>
    split at h
    next hring =>
      cases h
      exact (refill _).after (ringTake_hopper hring)
    next =>
      obtain ⟨q, -, hcache⟩ := List.exists_of_findSome?_eq_some h
      exact fromCache q hcache

theorem charge_hopper (s : State) (o c ownp : Nat) (host head : Bool) (g : Grant) :
    OnlyHopper s (s.charge o c ownp host head g) := by
  have hcounted (x : OwnerUse) : OnlyHopper s ((s.setOwn o x).occur 88 0x010 1) :=
    (onlyHopper_of_onlyCounters (occur_only _ 88 _ _ (by decide))).after rfl
  unfold State.charge
  dsimp only
  split
  · exact OnlyHopper.after rfl ((setCell_hopper _ _ _).after (hcounted _))
  · exact (setCell_hopper _ _ _).after (hcounted _)

theorem grant_hopper {s s1 : State} {o ownp r c : Nat} {host head : Bool} (h : s.grant o (some r) ownp host head = .inl (c, s1)) :
    OnlyHopper s s1 := by
  unfold State.grant at h
  split at h
  · cases h
  · split at h
    next htake =>
      cases h
      exact (charge_hopper _ _ _ _ _ _ _).after (takeCell_hopper htake)
    next => cases h

/-! ### Keepalives that fire (R156, R157) -/

theorem replace_races (s : State) (r j : Nat) : OnlyRaces s (s.replace r j) := by
  unfold State.replace
  dsimp only
  split
  · rfl
  · exact (bump_races _ _ _).after rfl

theorem ntq_replace (s : State) (r j : Nat) : ((s.replace r j).race r).ntq = (s.race r).ntq := by
  unfold State.replace
  dsimp only
  split
  · rw [race_setRace_self]
  · rw [race_bump, race_setRace_self]

/-- The packet of the task that timer `j` makes: it has one cell and no bytes. -/
def keepalivePkt (s : State) (r j slot ps pn cell gen : Nat) (d : Delayed) : Packet :=
  { kind := .keepalive j, race := r, dom := d.firedDom, slot := slot, ended := true, pcs := s.clk.gtc, stamp := d.due,
    ptpS := ps, ptpNs := pn, cells := [cell], gen := gen, owner := 4096 + s.domOwner d.firedDom }

/-- That task: it runs the timer's class, and word 0 of its flow view tells the timer and its period (R157). -/
def keepaliveTask (s : State) (r j slot img pc prio : Nat) (d : Delayed) : Task :=
  let w1 := s.com (aTskKa r j + 4)
  bareTask s.nextPkt img pc prio d.firedDom slot (bitsOf w1 16 12)
    (mset zero64 [] 0 (BitVec.ofNat 64 (j + bitsOf w1 0 16 * 2 ^ 32)))

section
variable {s s1 : State} {r j slot ps pn img pc prio cell : Nat} {d : Delayed}
  (hd : (s.race r).dly.find? (fun d => decide (d.kind = .timer j)) = some d)
  (hrun : s.firing r j d = some (slot, ps, pn, img, pc, prio))
  (hgrant : s.grant (4096 + s.domOwner d.firedDom) (some r) (s.domOwner d.firedDom) false true = .inl (cell, s1))
include hd hrun hgrant

theorem keepaliveDecide_granted :
    s.keepaliveDecide r j = ((enterQueue (s1.addPkt (keepalivePkt s r j slot ps pn cell (s1.cell cell).gen d)).2 r
      (keepaliveTask s r j slot img pc prio d)).replace r j).pauses r := by
  have hnext : s1.nextPkt = s.nextPkt := by rw [grant_hopper hgrant]
  unfold State.keepaliveDecide
  rw [hd]
  dsimp only
  rw [hrun]
  dsimp only
  rw [hgrant]
  unfold keepaliveTask
  rw [← hnext]
  rfl

/-- With its cell granted, the firing's task joins the new-task queue (R156, R157). -/
theorem keepaliveDecide_enters :
    let u := s.keepaliveDecide r j
    (u.race r).ntq = (s.race r).ntq ++ [keepaliveTask s r j slot img pc prio d] ∧
      u.pkt s.nextPkt = keepalivePkt s r j slot ps pn cell (s1.cell cell).gen d ∧ u.mems = s.mems := by
  intro u
  have hu : u = _ := keepaliveDecide_granted hd hrun hgrant
  have hs1 : OnlyHopper s s1 := grant_hopper hgrant
  have hnext : s1.nextPkt = s.nextPkt := by rw [hs1]
  have hmems : s1.mems = s.mems := by rw [hs1]
  have hraces : s1.races = s.races := by rw [hs1]
  have hqueued : OnlyRaces (s1.addPkt (keepalivePkt s r j slot ps pn cell (s1.cell cell).gen d)).2 u :=
    hu ▸ (pauses_races _ r).after ((replace_races _ r j).after (enterQueue_races _ r _))
  refine ⟨?_, (hqueued.pkt _).trans (hnext ▸ pkt_addPkt s1 _), hqueued.mems.trans hmems⟩
  rw [hu, race_pauses, ntq_replace, race_enterQueue]
  exact congrArg (fun m => (mget dRace m r).ntq ++ _) hraces

end

/-! ### The two timeouts of a race (R164, R167) -/

section
variable {race : RaceId} {s : State} (hr : s.runs = true)
include hr

theorem reorderTimeout_releases {e : RobSlot}
    (he : (s.race race.val).rob.find?
      (fun e => decide (e.at_ + s.fld (aRaceReorderTmo race.val) 0 16 * 4 ≤ s.clk.gtc)) = some e) :
    let late := (s.setPkt e.pkt { s.pkt e.pkt with late := true }).bump (aRaceLateCnt race.val) 1
    exec (.reorderTimeout race) s = .next ((late.leaveAll race.val (e.out.getD [])).robDrop race.val e.pkt) := by
  change execReorderTimeout race s = _
  unfold execReorderTimeout
  dsimp only
  rw [he]
  refine (if_pos hr).trans ?_
  cases e.out <;> rfl

/-- The budget of task number `task` is over in the state `c`. -/
def isOver (s : State) (task : Nat) (c : Ctx) : Bool := decide (c.task = task ∧ c.start + budget ≤ s.clk.gtc)

/-- The first thread of race `r` with the task, its budget over. -/
def overOnThread (s : State) (r task : Nat) : Option (Nat × Thread) :=
  s.threads.find? fun e => decide (raceOf e.1 = r) && e.2.halted.isNone && (match e.2.ctx with
    | some c => isOver s task c | none => false)

/-- The first delayed task of race `r`, on a list or due, that is the packet's task, its budget over. -/
def overDelayed (s : State) (r task : Nat) : Option Delayed :=
  ((s.race r).dly ++ (s.race r).due).find? fun d =>
    decide (d.kind = .prog) && isOver s task d.ctx && (s.pkt d.ctx.pkt).hasFrame

theorem budgetWatchdog_running (task : Nat) :
    exec (.budgetWatchdog race task) s = .next (match overOnThread s race.val task with
      | some (n, x) => s.setThr n { x with ints := { x.ints with watchdog := true } }
      | none => match overDelayed s race.val task with
        | some d => (s.setRace race.val { s.race race.val with
            dly := (s.race race.val).dly.erase d, due := (s.race race.val).due.erase d }).excEnd d.ctx.pkt excWatchdog
        | none => s) := by
  refine (if_neg (by simp [hr])).trans ?_
  change (match overOnThread s race.val task with
    | some (n, x) => _
    | none => match overDelayed s race.val task with | some d => _ | none => _) = _
  cases overOnThread s race.val task with
  | some e => rfl
  | none => cases overDelayed s race.val task <;> rfl

end

/-- Settles O23. Each command takes what its condition finds; a granted cell changes only the Hopper (`grant_hopper`), so the
task that a keepalive makes is the one its timer noted. -/
theorem delaysTimersAndTimeouts : Obligations.DelaysTimersAndTimeouts := by
  intro race unit timer t c d e task slot ps pn n img pc prio cell l x s1 s hr r j z v
  have hv : v = s.stampFirings race.val := rfl
  refine ⟨delayTick_leaves hr unit, delayEntryObtained_places hr, keepaliveFire_enters hv, ?_, ?_, ?_, ?_, ?_⟩
  · exact fun hroom hk hfired hslot hrun => enterBare_timer_asks hroom hk hfired hslot hrun
  · intro w1 hd hrun hgrant u
    obtain ⟨hntq, hpkt, hmems⟩ := keepaliveDecide_enters hd hrun hgrant
    exact ⟨hntq, congrArg Packet.kind hpkt, congrArg Packet.cells hpkt, congrArg Packet.slot hpkt, congrArg Packet.stamp hpkt,
      congrArg Packet.ptpS hpkt, congrArg Packet.ptpNs hpkt, hmems⟩
  · intro hfirst
    have hexec := dueTaskEnqueue_enters hv hfirst
    refine ⟨hexec, fun hk hroom => ?_⟩
    intro p hslot hrun
    exact ⟨_, hexec, enterBare_expiry_enters hroom hk hslot hrun⟩
  · intro he late
    have hexec := reorderTimeout_releases hr he
    exact ⟨fun hout => by rw [hexec, hout]; rfl, fun hout => by rw [hexec, hout]; rfl⟩
  · intro isOver running
    have hexec := budgetWatchdog_running (race := race) hr task
    refine ⟨fun hrun => ?_, fun hrun hd => ?_⟩
    · rw [hexec, show overOnThread s race.val task = some (n, x) from hrun]
    · rw [hexec, show overOnThread s race.val task = none from hrun, show overDelayed s race.val task = some d from hd]

end Sys2Proof.Proofs

/-! PROOF. Parsing, classification and versions: LPM lookups, versions of a domain, TCAM rules and the tables of the
queues (R193 to R205, R365, R388). -/

namespace Sys2Proof.Proofs

open Sys2Proof Sys2Proof.Machine Sys2Proof.Laws

/-! ### LPM lookups (R195) -/

/-- `x` answers the lookup: it is stored and matches, and nothing longer that is stored does. -/
def LongestMatch (v6 : Bool) (table : Nat) (addr : BitVec 128) (l : List Prefix) (x : Prefix) : Prop :=
  x ∈ l ∧ x.matches v6 table addr = true ∧ ∀ y ∈ l, y.matches v6 table addr = true → y.len ≤ x.len

section
variable {v6 : Bool} {table : Nat} {addr : BitVec 128} {x y : Prefix} {l : List Prefix}

theorem longestMatch_cons_of_not_matches (h : y.matches v6 table addr = false) (hx : LongestMatch v6 table addr l x) :
    LongestMatch v6 table addr (y :: l) x := by
  obtain ⟨hmem, hmatch, hmax⟩ := hx
  refine ⟨List.mem_cons_of_mem y hmem, hmatch, List.forall_mem_cons.2 ⟨fun hy => ?_, hmax⟩⟩
  exact absurd hy (by simp [h])

theorem longestMatch_cons_of_le (h : y.len ≤ x.len) (hx : LongestMatch v6 table addr l x) :
    LongestMatch v6 table addr (y :: l) x := by
  obtain ⟨hmem, hmatch, hmax⟩ := hx
  exact ⟨List.mem_cons_of_mem y hmem, hmatch, List.forall_mem_cons.2 ⟨fun _ => h, hmax⟩⟩

theorem longestMatch_head (h : y.matches v6 table addr = true)
    (hmax : ∀ z ∈ l, z.matches v6 table addr = true → z.len ≤ y.len) : LongestMatch v6 table addr (y :: l) y :=
  ⟨List.mem_cons_self, h, List.forall_mem_cons.2 ⟨fun _ => le_rfl, hmax⟩⟩

end

/-- The search by what it answers. -/
theorem lpmBest_spec (v6 : Bool) (table : Nat) (addr : BitVec 128) (l : List Prefix) :
    (∀ x, lpmBest v6 table addr l = some x → LongestMatch v6 table addr l x) ∧
    (lpmBest v6 table addr l = none → ∀ y ∈ l, y.matches v6 table addr = false) := by
  induction l with
  | nil => exact ⟨fun x h => (nomatch h), fun _ y hy => (nomatch hy)⟩
  | cons y l ih =>
    obtain ⟨found, missed⟩ := ih
    rw [lpmBest]
    cases hm : y.matches v6 table addr with
    | false =>
      cases hb : lpmBest v6 table addr l with
      | none => exact ⟨fun x h => (nomatch h), fun _ => List.forall_mem_cons.2 ⟨hm, missed hb⟩⟩
      | some b =>
        refine ⟨fun x h => ?_, fun h => (nomatch h)⟩
        obtain rfl : b = x := Option.some.inj h
        exact longestMatch_cons_of_not_matches hm (found b hb)
    | true =>
      cases hb : lpmBest v6 table addr l with
      | none =>
        refine ⟨fun x h => ?_, fun h => (nomatch h)⟩
        obtain rfl : y = x := Option.some.inj h
        exact longestMatch_head hm fun z hz hzm => absurd hzm (by simp [missed hb z hz])
      | some b =>
        obtain ⟨hmem, hmatch, hmax⟩ := found b hb
        dsimp only
        rw [Bool.true_and]
        by_cases hlen : b.len < y.len
        · rw [if_pos (decide_eq_true hlen)]
          refine ⟨fun x h => ?_, fun h => (nomatch h)⟩
          obtain rfl : y = x := Option.some.inj h
          exact longestMatch_head hm fun z hz hzm => (hmax z hz hzm).trans hlen.le
        · rw [if_neg (by simpa using hlen)]
          refine ⟨fun x h => ?_, fun h => (nomatch h)⟩
          obtain rfl : b = x := Option.some.inj h
          exact longestMatch_cons_of_le (not_lt.1 hlen) ⟨hmem, hmatch, hmax⟩

/-- Settles O20, by induction on the table. -/
theorem theLongestPrefixWins : Obligations.TheLongestPrefixWins := lpmBest_spec

/-! ### Versions of a domain (R198 to R205) -/

theorem vslot_setVslot_self (s : State) (d v : Nat) (x : VSlot) : (s.setVslot d v x).vslot d v = x := mget_mset_self _ _ _ _

theorem vslot_setVslot_ne {s : State} {d v w : Nat} (x : VSlot) (h : w ≠ v) :
    (s.setVslot d v x).vslot d w = s.vslot d w := mget_mset_ne _ _ _ (by omega)

theorem commits_setVslot (s : State) (d v : Nat) (x : VSlot) : (s.setVslot d v x).cls.commits = s.cls.commits := rfl

theorem clk_setVslot (s : State) (d v : Nat) (x : VSlot) : (s.setVslot d v x).clk = s.clk := rfl

/-- What the acceptance of a commit writes, and the memories that it leaves. -/
theorem accepted_fields (t : State) (d v : Nat) (x : VSlot) (l : List VCommit) (c : CmdRef) :
    let u := ((t.setVslot d v x).setCommits l).cmdAccept c
    u.vslot d v = x ∧ u.cls.commits = l ∧ u.host.bg = t.host.bg ++ [c] ∧ u.mems = t.mems :=
  ⟨vslot_setVslot_self t d v x, rfl, rfl, rfl⟩

theorem started_cls (h : HostCmd) (s : State) : (started h s).cls = s.cls := by rw [started_signals]

theorem started_clk (h : HostCmd) (s : State) : (started h s).clk = s.clk := by rw [started_signals]

theorem started_host (h : HostCmd) (s : State) : (started h s).host = s.host := by rw [started_signals]

theorem started_mems (h : HostCmd) (s : State) : (started h s).mems = s.mems := by rw [started_signals]

theorem domOwner_started (h : HostCmd) (s : State) (d : Nat) : (started h s).domOwner d = s.domOwner d := by
  rw [started_signals]
  rfl

theorem live_started (h : HostCmd) (s : State) : (started h s).live = s.live := by
  rw [started_signals]
  rfl

theorem cls_of_onlySignals {s t : State} (h : OnlySignals s t) : t.cls = s.cls := by rw [h]

theorem cls_hostWrite (s : State) (p a : Nat) (l : List Byte) : (s.hostWrite p a l).cls = s.cls :=
  Eq.trans (cls_of_onlySignals (onlySignals_of_onlyCounters (occur_only _ 105 0x011 _ (by decide)))) rfl

theorem cls_setCmdRing (s : State) (p i : Nat) (r : CmdRing) : (s.setCmdRing p i r).cls = s.cls := rfl

theorem cls_cmdForget (s : State) (c : CmdRef) : (s.cmdForget c).cls = s.cls := rfl

/-- The end of a command changes no version. -/
theorem cls_cmdDone (s : State) (c : CmdRef) (status detail : Nat) : (s.cmdDone c status detail).cls = s.cls := by
  simp only [State.cmdDone, apply_ite State.cls, cls_of_onlySignals (irq_signals _ _ _),
    cls_of_onlySignals (deny_signals _ _ _ _), cls_of_onlySignals (bump_signals _ _ _), cls_hostWrite, cls_setCmdRing,
    cls_cmdForget, ite_self]

theorem vslot_setCommits (s : State) (l : List VCommit) (d v : Nat) : (s.setCommits l).vslot d v = s.vslot d v := rfl

theorem vslot_cmdDone (s : State) (c : CmdRef) (status detail d v : Nat) :
    (s.cmdDone c status detail).vslot d v = s.vslot d v :=
  congrArg (fun c : Cls => mget dVSlot c.vers (d * 4 + v)) (cls_cmdDone s c status detail)

/-- The commit that VERSION_COMMIT adds when it is accepted (R202). -/
def acceptedCommit (h : HostCmd) (s : State) : VCommit :=
  { ref := startRef h 0x30 s, dom := h.op 0 1, slot := h.op 1 1, at_ := h.op 8 8, accepted := s.clk.gtc }

section
variable {h : HostCmd} {s : State}

/-- A commit takes its free slot and joins those under way. -/
theorem versionCommit_accepts (hb : Begins h .background s) (hm : modeA s.top.mode = true) (hd : h.op 0 1 ≤ 15)
    (hv : h.op 1 1 ≤ 3) (hrsv : h.op 2 6 = 0) (hown : s.domOwner (h.op 0 1) = h.part.val)
    (hfree : s.live (h.op 0 1) (h.op 1 1) = false) (hroom : (upTo 4).all (s.live (h.op 0 1)) = false)
    (hidle : s.cls.commits.any (fun x => x.dom = h.op 0 1) = false) :
    exec (.versionCommit h) s =
      .next ((((started h s).setVslot (h.op 0 1) (h.op 1 1) { state := 1 }).setCommits
        (s.cls.commits ++ [acceptedCommit h s])).cmdAccept (startRef h 0x30 s)) := by
  have hshape : ¬(15 < h.op 0 1 ∨ 3 < h.op 1 1 ∨ h.op 2 6 ≠ 0) := by omega
  have howner : ¬(started h s).domOwner (h.op 0 1) ≠ (startRef h 0x30 s).part :=
    not_not.2 ((domOwner_started h s _).trans hown)
  change execVersionCommit h s = _
  rw [execVersionCommit, startCmd_begins hb rfl rfl, if_neg hshape, if_neg howner]
  simp only [started_top, live_started, started_cls, hm, hfree, hroom, hidle, Bool.not_true, Bool.false_eq_true, or_self,
    if_false, commits_setVslot, clk_setVslot, started_clk]
  rw [acceptedCommit]

theorem versionStatus_reads (hb : Begins h .foreground s) (hm : modeB s.top.mode = true) (hd : h.op 0 1 ≤ 15)
    (hrsv : h.op 1 31 = 0) (hown : s.domOwner (h.op 0 1) = h.part.val) :
    exec (.versionStatus h) s = .next ((started h s).cmdDone (startRef h 0x31 s) stOk
      (leNat ((upTo 4).flatMap fun v => leBytes 4 ((started h s).slotWord (h.op 0 1) v)))) := by
  have hshape : ¬(15 < h.op 0 1 ∨ h.op 1 31 ≠ 0) := by omega
  have howner : ¬(started h s).domOwner (h.op 0 1) ≠ (startRef h 0x31 s).part :=
    not_not.2 ((domOwner_started h s _).trans hown)
  change execVersionStatus h s = _
  rw [execVersionStatus, startCmd_begins hb rfl rfl, if_neg hshape, if_neg howner]
  simp only [started_top, hm, Bool.not_true, Bool.false_eq_true, if_false]

end

section
variable {part : Part} {ring : Fin 4} {tag : Word32} {x : VCommit} {s : State}
  (hx : s.commitOf part.val ring.val tag.toNat = some x)
include hx

section
variable (hc : x.checked = false)
include hc

/-- A version that passes has its instant fixed. -/
theorem versionChecksDone_passes (hok : s.versionOk x.dom x.slot = true)
    (hat : ¬(x.at_ ≠ 0 ∧ (x.at_ < s.clk.gtc + 8000 ∨ x.accepted + 4000000000 < x.at_))) :
    exec (.versionChecksDone part ring tag) s = .next (s.setCommits (s.cls.commits.map fun y =>
      if y = x then { y with checked := true, at_ := activationAt y.at_ s.clk.gtc } else y)) := by
  change execVersionChecksDone part ring tag s = _
  simp only [execVersionChecksDone, hx, hc, hok, if_neg hat, Bool.not_true, Bool.false_eq_true, if_false]

theorem versionChecksDone_fails (hbad : s.versionOk x.dom x.slot = false ∨
      (x.at_ ≠ 0 ∧ (x.at_ < s.clk.gtc + 8000 ∨ x.accepted + 4000000000 < x.at_))) :
    exec (.versionChecksDone part ring tag) s = .next (s.commitFails x stReject) := by
  change execVersionChecksDone part ring tag s = _
  simp only [execVersionChecksDone, hx, hc, Bool.false_eq_true, if_false]
  cases hok : s.versionOk x.dom x.slot with
  | false => exact if_pos rfl
  | true => exact (if_neg (by decide)).trans (if_pos (hbad.resolve_left (by simp [hok])))

end

section
variable (hc : x.checked = true) (hat : x.at_ ≤ s.clk.gtc)
include hc hat

omit hx in
theorem not_before_instant : ¬((!x.checked) = true ∨ s.clk.gtc < x.at_) := by
  simpa [hc] using hat

/-- The first version of its domain becomes current. -/
theorem versionActivate_first (ho : s.oldSlot x.dom = none) :
    let u := s.setVslot x.dom x.slot { state := 2, t := x.at_, count := (s.vslot x.dom x.slot).count }
    exec (.versionActivate part ring tag) s = .next ((u.setCommits (u.cls.commits.erase x)).cmdDone x.ref stOk x.at_) := by
  change execVersionActivate part ring tag s = _
  simp only [execVersionActivate, hx, if_neg (not_before_instant hc hat), ho]

/-- The version before it leaves by its packets in flight. -/
theorem versionActivate_supersedes {o : Nat} (ho : s.oldSlot x.dom = some o) (hne : o ≠ x.slot) :
    let old := s.vslot x.dom o
    let w := s.setVslot x.dom o (if old.count = 0 then {} else { old with state := 3, sup := x.at_ })
    let u := w.setVslot x.dom x.slot { state := 2, t := x.at_, count := (s.vslot x.dom x.slot).count }
    exec (.versionActivate part ring tag) s = .next ((u.setCommits (s.cls.commits.erase x)).cmdDone x.ref stOk x.at_) := by
  intro old w u
  change execVersionActivate part ring tag s = _
  simp only [execVersionActivate, hx, if_neg (not_before_instant hc hat), ho, vslot_setVslot_ne _ (Ne.symm hne)]
  rfl

end

end

/-- Settles O34. Taking a command up and completing it leave the versions (`started_cls`, `cls_cmdDone`); two slots of one
domain are distinct words of the table, so that each keeps what the activation gives it. -/
theorem versionsAreCommittedAndActivated : Obligations.VersionsAreCommittedAndActivated := by
  intro h part ring tag x o s p t d v
  refine ⟨fun hb hm hd hv hrsv hown hfree hroom hidle => ?_, fun hx => ⟨fun hc hok hat => ?_, fun hc hbad => ?_,
    fun hc hat ho => ?_, fun hc hat ho hne _ _ => ?_⟩, fun hb hm hd hrsv hown => ?_⟩
  · obtain ⟨hslot, hcommits, hbg, hmems⟩ := accepted_fields t d v { state := 1 } (s.cls.commits ++ [acceptedCommit h s])
      (startRef h 0x30 s)
    exact ⟨_, versionCommit_accepts hb hm hd hv hrsv hown hfree hroom hidle, hslot, hcommits,
      hbg.trans (by rw [started_host]), hmems.trans (started_mems h s)⟩
  · exact versionChecksDone_passes hx hc hok (by omega)
  · exact versionChecksDone_fails hx hc hbad
  · exact versionActivate_first hx hc hat ho
  · refine ⟨_, versionActivate_supersedes hx hc hat ho hne, ?_, ?_, ?_⟩
    · rw [vslot_cmdDone, vslot_setCommits, vslot_setVslot_self]
    · rw [vslot_cmdDone, vslot_setCommits, vslot_setVslot_ne _ hne, vslot_setVslot_self]
    · rw [cls_cmdDone]
      rfl
  · exact versionStatus_reads hb hm hd hrsv hown

/-! ### TCAM rules (R193, R194) -/

/-- The races that the staged rule names. -/
def tcamRaces (s : State) (p : Nat) : List Nat := (upTo 16).filter fun r => bitOf (s.regN (aClsTcamStgRule p)) (16 + r)

/-- What an operation that passes its checks makes of a rule. -/
def tcamRule (s : State) (p code : Nat) (x : Rule) : Rule :=
  let rule := s.regN (aClsTcamStgRule p)
  match code with
  | 0 =>
    { valid := true, value := s.wide (aClsTcamStgKey p 0), mask := s.wide (aClsTcamStgMask p 0), dom := bitsOf rule 12 4,
      vmask := bitsOf rule 8 4, act0 := BitVec.ofNat 32 (s.regN (aClsTcamStgAct0 p) &&& 0x8FFFBFF0),
      act1 := BitVec.ofNat 32 (s.regN (aClsTcamStgAct1 p) &&& 0xFF8FFFFF) }
  | 1 => { x with vmask := x.vmask ||| bitsOf rule 8 4 }
  | 2 => { x with vmask := x.vmask &&& (15 - bitsOf rule 8 4) }
  | _ => {}

/-- An operation is refused and changes nothing, or it changes the rule in each of the races named. -/
theorem tcamOp_cases (s : State) (p code i : Nat) :
    ((s.tcamOp p code i).1 ≠ stOk ∧ (s.tcamOp p code i).2 = s) ∨
    ((s.tcamOp p code i).1 = stOk ∧ (s.tcamOp p code i).2 =
      (tcamRaces s p).foldl (fun t r => t.setRule r i (tcamRule s p code (t.rule r i))) s) := by
  unfold State.tcamOp
  dsimp only
  iterate 7
    split
    · exact .inl ⟨Nat.succ_ne_zero _, rfl⟩
  refine .inr ⟨rfl, ?_⟩
  match code with
  | 0 => rfl
  | 1 => rfl
  | 2 => rfl
  | _ + 3 => rfl

theorem rule_setRule (s : State) (q r i : Nat) (x : Rule) :
    (s.setRule q i x).rule r i = if r = q then x else s.rule r i :=
  (mget_mset dRule _ _ _ x).trans (if_congr ⟨fun h => by omega, fun h => h ▸ rfl⟩ rfl rfl)

theorem rule_foldl_setRule (f : Rule → Rule) (i r : Nat) {l : List Nat} : ∀ {s : State}, l.Nodup →
    (l.foldl (fun t q => t.setRule q i (f (t.rule q i))) s).rule r i = if r ∈ l then f (s.rule r i) else s.rule r i := by
  induction l with
  | nil => exact fun _ => rfl
  | cons q l ih =>
    intro s hl
    obtain ⟨hq, hl⟩ := List.nodup_cons.1 hl
    rw [List.foldl_cons, ih hl, rule_setRule]
    by_cases hr : r = q
    · subst hr
      simp [hq]
    · simp [hr]

/-- The rule of each race afterwards. -/
theorem rule_tcamOp {s : State} {p code i r : Nat} (h : (s.tcamOp p code i).1 = stOk) (hr : r < 16) :
    (s.tcamOp p code i).2.rule r i =
      if bitOf (s.regN (aClsTcamStgRule p)) (16 + r) = true then tcamRule s p code (s.rule r i) else s.rule r i := by
  obtain ⟨hno, _⟩ | ⟨_, heq⟩ := tcamOp_cases s p code i
  · exact absurd h hno
  · have hmem : r ∈ tcamRaces s p ↔ bitOf (s.regN (aClsTcamStgRule p)) (16 + r) = true := by simp [tcamRaces, upTo, hr]
    have hnodup : (tcamRaces s p).Nodup := List.nodup_range.filter _
    rw [heq, rule_foldl_setRule _ i r hnodup]
    exact if_congr hmem rfl rfl

theorem tcamOp_refused {s : State} {p code i : Nat} (h : (s.tcamOp p code i).1 ≠ stOk) : (s.tcamOp p code i).2 = s := by
  obtain ⟨_, heq⟩ | ⟨hok, _⟩ := tcamOp_cases s p code i
  · exact heq
  · exact absurd hok h

/-- A word with GO and a code keeps both, and the index of its rule. -/
theorem tcamCode_fields (v : Word32) {k : Nat} (hk : k < 4) :
    bitOf (tcamCode v.toNat k) 31 = true ∧ bitsOf (tcamCode v.toNat k) 28 3 = k ∧
      bitsOf (tcamCode v.toNat k) 0 14 = opWord v := by
  have hv := v.isLt
  refine ⟨decide_eq_true ?_, ?_, ?_⟩ <;> simp only [bitsOf, tcamCode, putBits, opWord] <;> omega

/-- What a write of OP with GO and this code does. -/
theorem tcamGo_runs {m : Master} {p k : Nat} (s : State) (v : Word32) (hm : masterIs m p = true) (hk : k < 4) :
    let c := s.setRegN (aClsTcamStgOp p) (tcamCode v.toNat k &&& 0x70003FFF)
    s.tcamGo m p (tcamCode v.toNat k) =
      (c.tcamOp p k (opWord v)).2.setRegN (aClsTcamStgOpstat p) (c.tcamOp p k (opWord v)).1 := by
  obtain ⟨hgo, hcode, hrule⟩ := tcamCode_fields v hk
  simp only [State.tcamGo, hm, hgo, hcode, hrule, Bool.not_true, Bool.false_eq_true, if_false, if_true]

/-- The words of a wide key are those of the registers it spans. -/
theorem wide_setRegN {s : State} {a b : Nat} (v : Nat) (h : ∀ i < 20, a + 4 * i ≠ b) :
    (s.setRegN b v).wide a = s.wide a := by
  have hmap : (upTo 20).map (fun i => (s.setRegN b v).regN (a + 4 * i) * 2 ^ (32 * i)) =
      (upTo 20).map fun i => s.regN (a + 4 * i) * 2 ^ (32 * i) :=
    List.map_congr_left fun i hi => by rw [regN_setRegN, if_neg (h i (List.mem_range.1 hi))]
  rw [State.wide, hmap, State.wide]

/-- The word of OP leaves the staged rule. -/
theorem staged_of_op (s : State) (p v : Nat) :
    (s.setRegN (aClsTcamStgOp p) v).regN (aClsTcamStgRule p) = s.regN (aClsTcamStgRule p) ∧
    (s.setRegN (aClsTcamStgOp p) v).wide (aClsTcamStgKey p 0) = s.wide (aClsTcamStgKey p 0) ∧
    (s.setRegN (aClsTcamStgOp p) v).wide (aClsTcamStgMask p 0) = s.wide (aClsTcamStgMask p 0) := by
  refine ⟨?_, wide_setRegN v fun i hi => ?_, wide_setRegN v fun i hi => ?_⟩
  · rw [regN_setRegN, if_neg (by unfold aClsTcamStgRule aClsTcamStgOp; omega)]
  · unfold aClsTcamStgKey aClsTcamStgOp
    omega
  · unfold aClsTcamStgMask aClsTcamStgOp
    omega

/-- What each operation that passes its checks makes of a rule (R194). -/
theorem tcamOp_changes {s : State} {p k i r v : Nat}
    (hok : ((s.setRegN (aClsTcamStgOp p) v).tcamOp p k i).1 = stOk) (hr : r < 16) :
    let new := ((s.setRegN (aClsTcamStgOp p) v).tcamOp p k i).2.rule r i
    let word := s.regN (aClsTcamStgRule p)
    (bitOf word (16 + r) = false → new = s.rule r i) ∧
    (bitOf word (16 + r) = true →
      (k = 0 → new.valid = true ∧ new.vmask = bitsOf word 8 4 ∧ new.dom = bitsOf word 12 4 ∧
        new.value = s.wide (aClsTcamStgKey p 0) ∧ new.mask = s.wide (aClsTcamStgMask p 0)) ∧
      (k = 1 → new = { s.rule r i with vmask := (s.rule r i).vmask ||| bitsOf word 8 4 }) ∧
      (k = 2 → new = { s.rule r i with vmask := (s.rule r i).vmask &&& (15 - bitsOf word 8 4) }) ∧
      (k = 3 → new.valid = false)) := by
  intro new word
  obtain ⟨hword, hkey, hmask⟩ := staged_of_op s p v
  have hnew : new = _ := rule_tcamOp hok hr
  rw [hword] at hnew
  refine ⟨fun hoff => hnew.trans (if_neg (by rw [hoff]; decide)), fun hon => ?_⟩
  rw [if_pos hon] at hnew
  refine ⟨?_, ?_, ?_, ?_⟩
  · rintro rfl
    rw [hnew]
    exact ⟨rfl, congrArg (bitsOf · 8 4) hword, congrArg (bitsOf · 12 4) hword, hkey, hmask⟩
  · rintro rfl
    rw [hnew, tcamRule, hword]
    rfl
  · rintro rfl
    rw [hnew, tcamRule, hword]
    rfl
  · rintro rfl
    rw [hnew]
    rfl

/-! ### The tables of the queues (R365, R388) -/

theorem mems_foldl {α : Type} {f : State → α → State} (hf : ∀ s x, (f s x).mems = s.mems) (l : List α) (s : State) :
    (l.foldl f s).mems = s.mems :=
  List.foldlRecOn (motive := fun t => t.mems = s.mems) l f rfl fun t ht x _ => (hf t x).trans ht

theorem mems_setTabW (s : State) (t i w v : Nat) : (s.setTabW t i w v).mems = s.mems := by
  rw [State.setTabW]

theorem mems_setQueue (s : State) (q : Nat) (x : Queue) : (s.setQueue q x).mems = s.mems := rfl

theorem mems_settleLevel (s : State) (kind i : Nat) : (s.settleLevel kind i).mems = s.mems := rfl

theorem mems_settleCbs (s : State) (n : Nat) : (s.settleCbs n).mems = s.mems := by
  unfold State.settleCbs
  refine mems_foldl (fun u c => ?_) _ s
  rw [apply_ite State.mems, mems_setQueue, ite_self]

theorem mems_putEntry (s : State) (t i : Nat) (v : Nat → Nat) : (s.putEntry t i v).mems = s.mems := by
  unfold State.putEntry
  refine mems_foldl (fun u w => ?_) _ s
  rw [apply_ite State.mems, mems_setTabW, ite_self]

theorem mems_shpChanged (s : State) (kind i : Nat) (had : Bool) : (s.shpChanged kind i had).mems = s.mems := by
  unfold State.shpChanged
  dsimp only
  split
  · rfl
  · split <;> rfl

theorem mems_settleLevel_all (l : List (Nat × Nat)) (s : State) :
    (l.foldl (fun u e => u.settleLevel e.1 e.2) s).mems = s.mems := by
  refine mems_foldl (fun u e => ?_) l s
  rw [mems_settleLevel]

theorem mems_shpChanged_all (l : List (Nat × Nat)) (s : State) :
    (l.foldl (fun u e => u.shpChanged e.1 e.2 true) s).mems = s.mems := by
  refine mems_foldl (fun u e => ?_) l s
  rw [mems_shpChanged]

/-- An entry lies in none of the memories. -/
theorem mems_tabWrite (s : State) (t i : Nat) (v : Nat → Nat) : (s.tabWrite t i v).mems = s.mems := by
  unfold State.tabWrite
  split
  · rfl
  · dsimp only
    rw [mems_shpChanged_all, mems_putEntry, mems_settleLevel_all]
  · have hcbs : (if isDirect i then s.settleCbs (s.queuePort i) else s).mems = s.mems := by
      rw [apply_ite State.mems, mems_settleCbs, ite_self]
    dsimp only
    rw [apply_ite State.mems, mems_setQueue, ite_self, mems_shpChanged, mems_putEntry, mems_settleLevel, hcbs]
  · rw [mems_shpChanged, mems_putEntry, mems_settleLevel]
  · rw [mems_shpChanged, mems_putEntry, mems_settleLevel]
  · exact mems_putEntry _ _ _ _

/-- The word with GO and a direction that a table's command writes. -/
def taccWord (v : Word32) (wr : Nat) : Nat := putBits (putBits v.toNat 31 1 1) 30 1 wr

/-- The state in which a table operation runs: its word stands in CTL. -/
def taccStaged (s : State) (p : Nat) (v : Word32) (wr : Nat) : State :=
  s.setRegN (aQshTaccCtl p) (taccWord v wr &&& 0x40FFFFFF)

/-- The table and the entry that a command's word names. -/
def taccTab (v : Word32) : Nat := v.toNat / 2 ^ 20 % 16

def taccEnt (v : Word32) : Nat := v.toNat % 2 ^ 20

/-- The words staged for an entry. -/
def taccData (s : State) (p w : Nat) : Nat := s.regN (aQshTaccData p w)

/-- A word with GO and a direction keeps both, its table and its entry. -/
theorem taccWord_fields (v : Word32) {wr : Nat} (hw : wr < 2) :
    bitOf (taccWord v wr) 31 = true ∧ bitOf (taccWord v wr) 30 = decide (wr = 1) ∧
      bitsOf (taccWord v wr) 20 4 = taccTab v ∧ bitsOf (taccWord v wr) 0 20 = taccEnt v := by
  have hv := v.isLt
  refine ⟨decide_eq_true ?_, decide_eq_decide.2 ?_, ?_, ?_⟩ <;>
    simp only [bitsOf, taccWord, putBits, taccTab, taccEnt] <;> omega

/-- What a write of CTL with GO does. -/
theorem taccWrite_runs {m : Master} {p wr : Nat} (s : State) (v : Word32) (hm : masterIs m p = true) (hw : wr < 2) :
    let op := (taccStaged s p v wr).taccOp p (decide (wr = 1)) (taccTab v) (taccEnt v)
    s.taccWrite m p (taccWord v wr) = op.2.setRegN (aQshTaccStat p) op.1 := by
  obtain ⟨hgo, hdir, htab, hent⟩ := taccWord_fields v hw
  unfold State.taccWrite
  rw [hm, hgo, hdir, htab, hent, if_neg (by decide), if_pos rfl, ← taccStaged]

theorem ownsEntry_setRegN (s : State) (a v p t i : Nat) : (s.setRegN a v).ownsEntry p t i = s.ownsEntry p t i := rfl

theorem ownsEntry_staged (s : State) (v : Word32) (wr p t i : Nat) :
    (taccStaged s p v wr).ownsEntry p t i = s.ownsEntry p t i := ownsEntry_setRegN s _ _ p t i

section
variable {s : State} {p t i : Nat} {wr : Bool}

/-- There is no such entry, or it cannot be written. -/
theorem taccOp_outside (h : tabSize t ≤ i ∨ (wr = true ∧ t = 9)) : s.taccOp p wr t i = (stReject, s) := if_pos h

section
variable (hin : ¬(tabSize t ≤ i ∨ (wr = true ∧ t = 9)))
include hin

theorem taccOp_foreign (ho : s.ownsEntry p t i = false) : s.taccOp p wr t i = (stDenied, s) := by
  unfold State.taccOp
  rw [if_neg hin, if_pos (by rw [ho]; rfl)]

variable (ho : s.ownsEntry p t i = true)
include ho

theorem taccOp_own : s.taccOp p wr t i =
    if wr then
      if !s.formatOk t i (taccData s p) then (stReject, s)
      else if !s.namesOwn p t (taccData s p) then (stDenied, s)
      else if s.tableBusy t i (taccData s p) then (stBusy, s)
      else
        let u := s.tabWrite t i (taccData s p)
        (stOk, (u.setRegN (aQshTaccAt p) (u.clk.gtc % 2 ^ 32)).setRegN (aQshTaccAt p + 4) (u.clk.gtc / 2 ^ 32))
    else (stOk, (upTo (tabWords t)).foldl (fun q w => q.setRegN (aQshTaccData p w) (s.tabRead t i w)) s) := by
  unfold State.taccOp
  rw [if_neg hin, if_neg (by rw [ho]; decide)]
  rfl

theorem taccOp_reads (hr : wr = false) : s.taccOp p wr t i =
    (stOk, (upTo (tabWords t)).foldl (fun q w => q.setRegN (aQshTaccData p w) (s.tabRead t i w)) s) := by
  rw [taccOp_own hin ho, if_neg (by simp [hr])]

section
variable (hw : wr = true)
include hw

theorem taccOp_misformed (hf : s.formatOk t i (taccData s p) = false) : s.taccOp p wr t i = (stReject, s) := by
  rw [taccOp_own hin ho, if_pos hw, hf, if_pos (by decide)]

variable (hf : s.formatOk t i (taccData s p) = true)
include hf

theorem taccOp_misnamed (hn : s.namesOwn p t (taccData s p) = false) : s.taccOp p wr t i = (stDenied, s) := by
  rw [taccOp_own hin ho, if_pos hw, hf, if_neg (by decide), hn, if_pos (by decide)]

variable (hn : s.namesOwn p t (taccData s p) = true)
include hn

theorem taccOp_busy (hb : s.tableBusy t i (taccData s p) = true) : s.taccOp p wr t i = (stBusy, s) := by
  rw [taccOp_own hin ho, if_pos hw, hf, if_neg (by decide), hn, if_neg (by decide), hb, if_pos rfl]

theorem taccOp_writes (hb : s.tableBusy t i (taccData s p) = false) :
    let u := s.tabWrite t i (taccData s p)
    s.taccOp p wr t i =
      (stOk, (u.setRegN (aQshTaccAt p) (u.clk.gtc % 2 ^ 32)).setRegN (aQshTaccAt p + 4) (u.clk.gtc / 2 ^ 32)) := by
  rw [taccOp_own hin ho, if_pos hw, hf, if_neg (by decide), hn, if_neg (by decide), hb, if_neg (by decide)]

end

end

end

/-- The words that a read leaves in DATA. -/
theorem regN_data_foldl (f : Nat → Nat) (p n : Nat) (s : State) {w : Nat} (hw : w < n) :
    ((upTo n).foldl (fun q j => q.setRegN (aQshTaccData p j) (f j)) s).regN (aQshTaccData p w) = f w % 2 ^ 32 := by
  induction n with
  | zero => exact absurd hw (Nat.not_lt_zero w)
  | succ n ih =>
    have hsplit : upTo (n + 1) = upTo n ++ [n] := List.range_succ
    rw [hsplit, List.foldl_append, List.foldl_cons, List.foldl_nil, regN_setRegN]
    by_cases h : w = n
    · rw [if_pos (by rw [h]), h]
    · rw [if_neg (by unfold aQshTaccData; omega), ih (by omega)]

/-- From `s` to `t` only registers change. -/
def OnlyRegs (s t : State) : Prop := t = { s with regs := t.regs }

theorem onlyRegs_refl (s : State) : OnlyRegs s s := rfl

theorem OnlyRegs.setRegN {s t : State} (h : OnlyRegs s t) (a v : Nat) : OnlyRegs s (t.setRegN a v) := by
  unfold OnlyRegs at *
  rw [h]
  rfl

theorem OnlyRegs.foldl {s t : State} (h : OnlyRegs s t) (a f : Nat → Nat) (l : List Nat) :
    OnlyRegs s (l.foldl (fun q j => q.setRegN (a j) (f j)) t) :=
  List.foldlRecOn (motive := OnlyRegs s) l _ h fun _ hu j _ => hu.setRegN (a j) (f j)

theorem OnlyRegs.tables {s t : State} (h : OnlyRegs s t) : t.tab = s.tab ∧ t.weir = s.weir ∧ t.mems = s.mems := by
  rw [h]
  exact ⟨rfl, rfl, rfl⟩

theorem regN_stat_ok (s : State) (p : Nat) : (s.setRegN (aQshTaccStat p) stOk).regN (aQshTaccStat p) = stOk := by
  rw [regN_setRegN, if_pos rfl]
  rfl

section
variable {m : Master} {part : Part} {s u : State} (hact : s.mayAct m = true) (hm : masterIs m part.val = true)
include hact hm

/-- TCAM operations by their codes. -/
theorem exec_tcam (v : Word32) :
    let c (k : Nat) : State := s.setRegN (aClsTcamStgOp part.val) (tcamCode v.toNat k &&& 0x70003FFF)
    let answers (k : Nat) : State := ((c k).tcamOp part.val k (opWord v)).2.setRegN (aClsTcamStgOpstat part.val)
      ((c k).tcamOp part.val k (opWord v)).1
    exec (.tcamWrite m part v) s = .next (answers 0) ∧ exec (.tcamVset m part v) s = .next (answers 1) ∧
    exec (.tcamVclr m part v) s = .next (answers 2) ∧ exec (.tcamInvalidate m part v) s = .next (answers 3) :=
  have runs {k : Nat} (hk : k < 4) := congrArg Host.Outcome.next (tcamGo_runs s v hm hk)
  ⟨(if_pos hact).trans (runs (by decide)), (if_pos hact).trans (runs (by decide)), (if_pos hact).trans (runs (by decide)),
    (if_pos hact).trans (runs (by decide))⟩

section
variable {v : Word32} {st : Nat}

theorem exec_taccRead (h : (taccStaged s part.val v 0).taccOp part.val false (taccTab v) (taccEnt v) = (st, u)) :
    exec (.taccRead m part v) s = .next (u.setRegN (aQshTaccStat part.val) st) := by
  have hrun := taccWrite_runs (wr := 0) s v hm (by decide)
  rw [show decide (0 = 1) = false from rfl, h] at hrun
  exact (if_pos hact).trans (congrArg Host.Outcome.next hrun)

theorem exec_taccWrite (h : (taccStaged s part.val v 1).taccOp part.val true (taccTab v) (taccEnt v) = (st, u)) :
    exec (.taccWrite m part v) s = .next (u.setRegN (aQshTaccStat part.val) st) := by
  have hrun := taccWrite_runs (wr := 1) s v hm (by decide)
  rw [show decide (1 = 1) = true from rfl, h] at hrun
  exact (if_pos hact).trans (congrArg Host.Outcome.next hrun)

/-- The entry's words come to DATA, and only registers change. -/
theorem taccRead_reads (hin : taccEnt v < tabSize (taccTab v))
    (ho : s.ownsEntry part.val (taccTab v) (taccEnt v) = true) :
    ∃ u, exec (.taccRead m part v) s = .next u ∧ u.regN (aQshTaccStat part.val) = stOk ∧
      (∀ w, w < tabWords (taccTab v) → u.regN (aQshTaccData part.val w) =
        (taccStaged s part.val v 0).tabRead (taccTab v) (taccEnt v) w % 2 ^ 32) ∧ OnlyRegs s u := by
  have hno : ¬(tabSize (taccTab v) ≤ taccEnt v ∨ (false = true ∧ taccTab v = 9)) := by simpa using hin
  have hstaged : OnlyRegs s (taccStaged s part.val v 0) := (onlyRegs_refl s).setRegN _ _
  have hop := taccOp_reads hno ((ownsEntry_staged s v 0 _ _ _).trans ho) rfl
  refine ⟨_, exec_taccRead hact hm hop, regN_stat_ok _ _, fun w hw => ?_, (hstaged.foldl _ _ _).setRegN _ _⟩
  rw [regN_setRegN, if_neg (by unfold aQshTaccData aQshTaccStat; omega)]
  exact regN_data_foldl _ _ _ _ hw

/-- The entry takes its words, with the status OK. -/
theorem taccWrite_writes (hin : taccEnt v < tabSize (taccTab v)) (hne : taccTab v ≠ 9)
    (ho : s.ownsEntry part.val (taccTab v) (taccEnt v) = true) :
    let g := taccStaged s part.val v 1
    let d := taccData g part.val
    let w := g.tabWrite (taccTab v) (taccEnt v) d
    g.formatOk (taccTab v) (taccEnt v) d = true → g.namesOwn part.val (taccTab v) d = true →
    g.tableBusy (taccTab v) (taccEnt v) d = false →
    ∃ u, exec (.taccWrite m part v) s = .next u ∧ u.regN (aQshTaccStat part.val) = stOk ∧ u.tab = w.tab ∧
      u.weir = w.weir ∧ u.mems = s.mems := by
  intro g d w hf hn hb
  have hno : ¬(tabSize (taccTab v) ≤ taccEnt v ∨ (true = true ∧ taccTab v = 9)) := by simpa [hne] using hin
  obtain ⟨_, _, hstaged⟩ := ((onlyRegs_refl s).setRegN (aQshTaccCtl part.val) (taccWord v 1 &&& 0x40FFFFFF)).tables
  obtain ⟨htab, hweir, hmems⟩ := ((((onlyRegs_refl w).setRegN (aQshTaccAt part.val) (w.clk.gtc % 2 ^ 32)).setRegN
    (aQshTaccAt part.val + 4) (w.clk.gtc / 2 ^ 32)).setRegN (aQshTaccStat part.val) stOk).tables
  have hop := taccOp_writes hno ((ownsEntry_staged s v 1 _ _ _).trans ho) rfl hf hn hb
  exact ⟨_, exec_taccWrite hact hm hop, regN_stat_ok _ _, htab, hweir, hmems.trans ((mems_tabWrite _ _ _ _).trans hstaged)⟩

/-- A write answers with the first check that fails. -/
theorem taccWrite_refused :
    let g := taccStaged s part.val v 1
    let d := taccData g part.val
    let no (st : Nat) : State := g.setRegN (aQshTaccStat part.val) st
    (tabSize (taccTab v) ≤ taccEnt v ∨ taccTab v = 9 → exec (.taccWrite m part v) s = .next (no stReject)) ∧
    (taccEnt v < tabSize (taccTab v) → taccTab v ≠ 9 → s.ownsEntry part.val (taccTab v) (taccEnt v) = false →
      exec (.taccWrite m part v) s = .next (no stDenied)) ∧
    (taccEnt v < tabSize (taccTab v) → taccTab v ≠ 9 → s.ownsEntry part.val (taccTab v) (taccEnt v) = true →
      (g.formatOk (taccTab v) (taccEnt v) d = false → exec (.taccWrite m part v) s = .next (no stReject)) ∧
      (g.formatOk (taccTab v) (taccEnt v) d = true → g.namesOwn part.val (taccTab v) d = false →
        exec (.taccWrite m part v) s = .next (no stDenied)) ∧
      (g.formatOk (taccTab v) (taccEnt v) d = true → g.namesOwn part.val (taccTab v) d = true →
        g.tableBusy (taccTab v) (taccEnt v) d = true → exec (.taccWrite m part v) s = .next (no stBusy))) := by
  intro g d no
  have hno (hin : taccEnt v < tabSize (taccTab v)) (hne : taccTab v ≠ 9) :
      ¬(tabSize (taccTab v) ≤ taccEnt v ∨ (true = true ∧ taccTab v = 9)) := by simpa [hne] using hin
  have hown {b : Bool} (ho : s.ownsEntry part.val (taccTab v) (taccEnt v) = b) :
      g.ownsEntry part.val (taccTab v) (taccEnt v) = b := (ownsEntry_staged s v 1 _ _ _).trans ho
  exact ⟨fun h => exec_taccWrite hact hm (taccOp_outside (h.imp_right fun h => ⟨rfl, h⟩)),
    fun hin hne ho => exec_taccWrite hact hm (taccOp_foreign (hno hin hne) (hown ho)),
    fun hin hne ho => ⟨fun hf => exec_taccWrite hact hm (taccOp_misformed (hno hin hne) (hown ho) rfl hf),
      fun hf hn => exec_taccWrite hact hm (taccOp_misnamed (hno hin hne) (hown ho) rfl hf hn),
      fun hf hn hb => exec_taccWrite hact hm (taccOp_busy (hno hin hne) (hown ho) rfl hf hn hb)⟩⟩

theorem taccRead_refused :
    let no (st : Nat) : State := (taccStaged s part.val v 0).setRegN (aQshTaccStat part.val) st
    (tabSize (taccTab v) ≤ taccEnt v → exec (.taccRead m part v) s = .next (no stReject)) ∧
    (taccEnt v < tabSize (taccTab v) → s.ownsEntry part.val (taccTab v) (taccEnt v) = false →
      exec (.taccRead m part v) s = .next (no stDenied)) :=
  ⟨fun h => exec_taccRead hact hm (taccOp_outside (.inl h)),
    fun hin ho => exec_taccRead hact hm (taccOp_foreign (by simpa using hin) ((ownsEntry_staged s v 0 _ _ _).trans ho))⟩

end

end

/-- Settles O48. A rule's operation changes it in the races named (`tcamOp_changes`) or not at all (`tcamOp_refused`); a
table's answers with the first check that fails (`taccOp_own`). -/
theorem rulesAndTableEntriesAreWritten : Obligations.RulesAndTableEntriesAreWritten := by
  intro m part v s p code i t e go hact hm
  obtain ⟨hwrite, hset, hclear, hinvalidate⟩ := exec_tcam hact hm v
  refine ⟨hwrite, hset, hclear, hinvalidate, fun k _ => tcamOp_refused, fun k r _ => tcamOp_changes, fun hin ho => ?_,
    taccWrite_writes hact hm, ?_⟩
  · obtain ⟨u, hexec, hstat, hdata, hregs⟩ := taccRead_reads hact hm hin ho
    obtain ⟨htab, _, _⟩ := hregs.tables
    exact ⟨u, hexec, hstat, hdata, htab, hregs⟩
  · obtain ⟨houtside, hforeign, hown⟩ := taccWrite_refused (v := v) hact hm
    obtain ⟨hnone, hdenied⟩ := taccRead_refused (v := v) hact hm
    exact ⟨houtside, hforeign, hown, hnone, hdenied⟩

end Sys2Proof.Proofs

/-! PROOF. Flow records and tables in time: the sweeper, the ager, learning and hold-downs, walks and their restamps, meters,
samples and the journal's writer (R239, R248, R287 to R293, R385 to R387). -/

namespace Sys2Proof.Proofs

open Sys2Proof Sys2Proof.Machine Sys2Proof.Laws

/-! ### The sweeper (R239, R290) -/

/-- From `s` to `t` nothing has changed but the flushes that run. -/
def OnlyFlushes (s t : State) : Prop := t = { s with mst := { s.mst with flush := t.mst.flush } }

theorem OnlyFlushes.setFlush {s t : State} (h : OnlyFlushes s t) (p : Nat) (f : Option Flush) :
    OnlyFlushes s (t.setFlush p f) := by
  unfold OnlyFlushes at *
  rw [h]
  rfl

theorem OnlyFlushes.slice {s t : State} (h : OnlyFlushes s t) (sl : Nat) : t.slice sl = s.slice sl := by
  rw [h]
  rfl

/-- A slice whose pass starts at `start`: the buckets that failed are rebuilt by it (R232). -/
def passBegun (x : Slice) (start : Nat) : Slice :=
  { x with pass := start + 1, next := 0, rebuild := (x.rebuild ++ x.failed).eraseDups, failed := [] }

section
variable {slice : SliceId} {s : State} (hr : s.runs = true) (hb : s.blkOn 1 (slice.val / 8) = false)
include hr hb

/-- The pass starts, and only the flushes take note of it. -/
theorem sweeperPassStart_begins {start : Nat} (hs : s.sliceGtc slice.val / second * second = start) (h0 : 0 < start)
    (hp : (s.slice slice.val).pass ≠ start + 1) (ht : s.top.resumeGtc ≤ start) :
    ∃ u, exec (.sweeperPassStart slice) s = .next u ∧
      OnlyFlushes (s.setSlice slice.val (passBegun (s.slice slice.val) start)) u := by
  subst hs
  refine ⟨_, if_pos ⟨hr, by rw [hb]; rfl, h0, hp, ht⟩, ?_⟩
  refine List.foldlRecOn (motive := OnlyFlushes _) _ _ rfl fun t h p _ => ?_
  split
  · split
    · exact h
    · exact h.setFlush p _
  · exact h

theorem sweeperVisit_visits (hp : (s.slice slice.val).pass ≠ 0) (hn : (s.slice slice.val).next < 4194304)
    (hdue : (s.slice slice.val).next * second ≤ (s.sliceGtc slice.val - ((s.slice slice.val).pass - 1)) * 4194304)
    (hlive : s.sliceGtc slice.val < (s.slice slice.val).pass - 1 + second) :
    let x := s.slice slice.val
    let u := (s.setSlice slice.val { x with next := x.next + 1 }).visit slice.val (slice.val * 4194304 + x.next)
    exec (.sweeperVisit slice) s = .next (if x.next + 1 = 4194304 then u.passEnd slice.val else u) :=
  if_pos ⟨hr, by rw [hb]; rfl, hp, hn, hdue, hlive⟩

end

/-! ### The ager, learning and hold-downs (R292, R293) -/

section
variable {race : RaceId} {s : State} (hr : s.runs = true)
include hr

theorem agerPass_ages (ha : (s.race race.val).ager < s.islGtc (islRace race.val) / second)
    (ht : s.top.resumeGtc ≤ s.islGtc (islRace race.val) / second * second) :
    exec (.agerPass race) s = .next ((s.emOnce race.val).foldl (fun s x => s.ageOne race.val x)
      (s.setRace race.val { s.race race.val with ager := s.islGtc (islRace race.val) / second })) :=
  if_pos ⟨hr, ha, ht⟩

theorem learnApply_decides {q : Learn} (hq : lowestLearn (s.race race.val).learnq = some q)
    (hage : q.ekey / 4096 + 64 ≤ s.islGtc (islRace race.val)) :
    let z := s.race race.val
    let now := s.islGtc (islRace race.val)
    let win := z.learnWin.filter fun t => decide (now < t + 4000000)
    win.length < 8000 → exec (.learnApply race) s =
      .next ((s.setRace race.val { z with learnq := z.learnq.erase q, learnWin := win ++ [now] }).learnOne race.val q) := by
  intro z now win hwin
  change execLearnApply race s = _
  unfold execLearnApply
  dsimp only
  rw [hq]
  exact if_pos ⟨hr, hage, hwin⟩

end

theorem holddownExpire_filters (race : RaceId) (key : Word64) (type : BitVec 3) (s : State) :
    ∃ u, exec (.holddownExpire race key type) s = .next u ∧ u = { s with races := u.races } ∧
      (∀ j, j ≠ race.val → u.race j = s.race j) ∧
      ∀ h, h ∈ (u.race race.val).hold ↔
        h ∈ (s.race race.val).hold ∧ ¬ (h.key = key ∧ h.type = type.toNat ∧ h.until_ ≤ s.clk.gtc) := by
  refine ⟨_, rfl, rfl, fun j hj => (race_setRace _ _ _ _).trans (if_neg hj), fun h => ?_⟩
  rw [race_setRace_self, List.mem_filter]
  simp only [Bool.not_eq_true', Bool.and_eq_false_iff, decide_eq_false_iff_not, not_and_or, or_assoc]

/-! ### Walks and restamps (R287, R288) -/

/-- The walk of `p` on table `t` ends if it has had no NEXT for `tmo` counts. -/
def walkTimedOut (p tmo : Nat) (s : State) (t : Nat) : State :=
  match s.walk p t with
  | some w => if w.last + tmo ≤ s.clk.gtc then (s.walkBreak p t).bump (aEmtWalkCnt p 2) 1 else s
  | none => s

theorem committed_walkTimedOut (p tmo : Nat) (s : State) (t : Nat) : (walkTimedOut p tmo s t).committed = s.committed := by
  unfold walkTimedOut
  split
  · split
    · exact bump_committed _ _ _
    · rfl
  · rfl

/-- The counts without a NEXT after which a walk ends: WALK_TMO, in 100 ms. -/
def walkTmo (s : State) : Nat := s.cfld aEmtCfg 16 8 * 400000000

theorem walkTmo_of_committed {s t : State} (h : t.committed = s.committed) : walkTmo t = walkTmo s := by
  unfold walkTmo State.cfld State.com
  rw [h]

/-- The timeout read once is the timeout read at each table: ending a walk leaves the committed set. -/
theorem walkTimeout_breaks (part : Part) (s : State) :
    exec (.walkTimeout part) s = .next ((upTo 17).foldl (fun s t => walkTimedOut part.val (walkTmo s) s t) s) := by
  have hstep (t : Nat) (_ : t ∈ upTo 17) (u v : State) (h : u = v ∧ v.committed = s.committed) :
      walkTimedOut part.val (walkTmo s) u t = walkTimedOut part.val (walkTmo v) v t ∧
        (walkTimedOut part.val (walkTmo v) v t).committed = s.committed := by
    obtain ⟨rfl, hc⟩ := h
    exact ⟨by rw [walkTmo_of_committed hc], (committed_walkTimedOut _ _ _ _).trans hc⟩
  have hfold := List.foldl_rel (r := fun u v : State => u = v ∧ v.committed = s.committed) ⟨rfl, rfl⟩ hstep
  exact congrArg Host.Outcome.next hfold.1

theorem restamping_setRestamp_self (s : State) (p t : Nat) (b : Bool) : (s.setRestamp p t b).restamping p t = b := by
  unfold State.restamping State.setRestamp
  exact mget_mset_self _ _ _ _

/-- Another partition's restamp of the table is not touched. -/
theorem restamping_setRestamp_ne (s : State) {p q : Nat} (t : Nat) (b : Bool) (h : q ≠ p) :
    (s.setRestamp p t b).restamping q t = s.restamping q t := by
  have hkey : walkKey q t ≠ walkKey p t := by
    unfold walkKey
    omega
  exact mget_mset_ne _ _ _ hkey

theorem epochOf_setEpoch_self (s : State) (p t : Nat) (b : Bool) : (s.setEpoch p t b).epochOf p t = b := by
  unfold State.epochOf State.setEpoch
  exact mget_mset_self _ _ _ _

/-- The restamp of table `t` by `p`, where one runs, ends. -/
def restampEnded (t : Nat) (s : State) (p : Nat) : State :=
  if s.restamping p t then ((s.restampAll p t).setEpoch p t (!s.epochOf p t)).setRestamp p t false else s

theorem restampEnded_of_not {t p : Nat} {s : State} (h : s.restamping p t = false) : restampEnded t s p = s :=
  if_neg (by simp [h])

/-- Stamping writes the entries of the index or of a table only. -/
theorem restampAll_frame (s : State) (p t : Nat) :
    (s.restampAll p t).walks = s.walks ∧ (s.restampAll p t).mems = s.mems := by
  unfold State.restampAll
  dsimp only
  split <;> exact ⟨rfl, rfl⟩

/-- Stamping the entries leaves the epoch of the walk itself. -/
theorem epochOf_restampAll (s : State) (p t : Nat) : (s.restampAll p t).epochOf p t = s.epochOf p t :=
  congrArg (fun w : Walks => mget epoch0 w.epoch (walkKey p t)) (restampAll_frame s p t).1

theorem restamping_restampAll (s : State) (p t q : Nat) : (s.restampAll p t).restamping q t = s.restamping q t :=
  congrArg (fun w : Walks => mget epoch0 w.restamp (walkKey q t)) (restampAll_frame s p t).1

section
variable {t p : Nat} {s : State} (h : s.restamping p t = true)
include h

theorem restampEnded_eq :
    restampEnded t s p = ((s.restampAll p t).setEpoch p t (!s.epochOf p t)).setRestamp p t false := if_pos h

theorem restamping_restampEnded_self : (restampEnded t s p).restamping p t = false := by
  rw [restampEnded_eq h]
  exact restamping_setRestamp_self _ _ _ _

theorem restamping_restampEnded_ne {q : Nat} (hq : q ≠ p) : (restampEnded t s p).restamping q t = s.restamping q t := by
  rw [restampEnded_eq h]
  exact (restamping_setRestamp_ne _ t _ hq).trans (restamping_restampAll s p t q)

theorem epochOf_restampEnded : (restampEnded t s p).epochOf p t = !(s.restampAll p t).epochOf p t := by
  rw [restampEnded_eq h, epochOf_restampAll]
  exact epochOf_setEpoch_self _ _ _ _

theorem mems_restampEnded : (restampEnded t s p).mems = s.mems := by
  rw [restampEnded_eq h]
  exact (restampAll_frame s p t).2

end

theorem restampEnded_foldl_of_none {t : Nat} {s : State} {l : List Nat} (h : ∀ q ∈ l, s.restamping q t = false) :
    l.foldl (restampEnded t) s = s :=
  List.foldlRecOn (motive := fun u => u = s) l _ rfl fun u hu q hq => by
    rw [hu]
    exact restampEnded_of_not (h q hq)

/-- Of partitions among which `p` alone restamps the table, only `p`'s restamp ends. -/
theorem restampEnded_foldl {t p : Nat} {s : State} {l : List Nat} (hp : s.restamping p t = true) (hl : p ∈ l)
    (h : ∀ q ∈ l, q ≠ p → s.restamping q t = false) : l.foldl (restampEnded t) s = restampEnded t s p := by
  induction l with
  | nil => exact absurd hl List.not_mem_nil
  | cons q l ih =>
    obtain ⟨hq, hrest⟩ := List.forall_mem_cons.1 h
    rw [List.foldl_cons]
    by_cases hqp : q = p
    · subst hqp
      refine restampEnded_foldl_of_none fun r hr => ?_
      by_cases hrq : r = q
      · rw [hrq]
        exact restamping_restampEnded_self hp
      · exact (restamping_restampEnded_ne hp hrq).trans (hrest r hr hrq)
    · rw [restampEnded_of_not (hq hqp)]
      exact ih ((List.mem_cons.1 hl).resolve_left (Ne.symm hqp)) hrest

theorem restampDone_ends {part : Part} {table : Nat} {s : State}
    (hothers : ∀ p, p < 4 → p ≠ part.val → s.restamping p table = false) (h : s.restamping part.val table = true) :
    exec (.restampDone table) s = .next (restampEnded table s part.val) :=
  congrArg Host.Outcome.next (restampEnded_foldl h (List.mem_range.2 part.isLt) fun p hp => hothers p (List.mem_range.1 hp))

/-! ### Meters and samples (R385 to R387) -/

theorem meterRefresh_refills {meter : Nat} {s : State} (hr : s.runs = true) (hp : (s.meterAt meter).prof ≠ 0)
    (hm : meter < 2 ^ 20) (hdue : mget zeroN s.refreshed meter ≤ s.islGtc 88 / second) :
    exec (.meterRefresh meter) s =
      .next ({ s with refreshed := mset zeroN s.refreshed meter (s.islGtc 88 / second + 1) }.setMeter meter
        (refill (s.mprof (s.meterAt meter).prof) (s.meterAt meter) (s.islGtc 88))) :=
  if_pos ⟨hr, hp, hm, hdue⟩

theorem queue_setQueue_self (s : State) (q : Nat) (x : Queue) : (s.setQueue q x).queue q = x := mget_mset_self _ _ _ _

theorem queue_setQueue_ne (s : State) (x : Queue) {q j : Nat} (h : j ≠ q) : (s.setQueue q x).queue j = s.queue j :=
  mget_mset_ne _ _ _ h

/-- A subscriber queue is sampled in the slot of its number: its statistics alone change. -/
theorem samplerVisit_samples {queue : Nat} {s : State} (hr : s.runs = true) (hq : queue < 0x40000)
    (hslot : s.clk.gtc / 4 % 0x40000 = queue) :
    ∃ st : QStat, st.sdepth = min (s.queue queue).depth 0xFFFFFFFF ∧
      exec (.samplerVisit queue) s = .next (s.setQueue queue { s.queue queue with stat := st }) := by
  have hsub : isSub queue = true := decide_eq_true hq
  refine ⟨{ (s.queue queue).stat with sdepth := _, ssoj := _ }, rfl, if_pos ?_⟩
  simp [hr, hsub, hslot]

/-! ### The journal's writer (R248, R251, R252) -/

/-- The writer runs while the ring has room, and for the entries of a checkpoint without it. -/
theorem journalRingWrite_steps {e : JEntry} {l : List JEntry} {s : State} (hrun : s.clk.run = true)
    (ht : s.mst.jnl.tail = e :: l) (hroom : s.mst.jnl.ring.length < ringSize ∨ 5 ≤ e.type) :
    exec .journalRingWrite s = .next s.ringStep := by
  refine if_pos ⟨hroom.imp_right fun h => ?_, hrun⟩
  rw [ht]
  exact decide_eq_true h

/-- An entry other than a CKPT_END goes from the tail to the end of the ring. -/
theorem ringStep_moves {e : JEntry} {l : List JEntry} {s : State} (ht : s.mst.jnl.tail = e :: l) (he : e.type ≠ 6) :
    s.ringStep = s.setJnl { s.mst.jnl with tail := l, ring := s.mst.jnl.ring ++ [e] } := by
  unfold State.ringStep
  simp only [ht]
  split
  · exact absurd ‹e.type = 6› he
  · rfl

/-- Settles O29. A pass start writes the slice and then the flushes only (`sweeperPassStart_begins`); an ended walk leaves the
timeout as it is (`walkTimeout_breaks`); among the partitions' restamps of a table, the one that runs ends
(`restampEnded_foldl`). The rest is each command's condition. -/
theorem timedTableWork : Obligations.TimedTableWork := by
  refine ⟨fun slice race q s hr => ?_, fun race key type part table meter queue e l s => ?_⟩
  · refine ⟨fun hb h0 hp ht => ?_, sweeperVisit_visits hr, agerPass_ages hr, fun hq hage => learnApply_decides hr hq hage⟩
    obtain ⟨u, hexec, hu⟩ := sweeperPassStart_begins hr hb rfl h0 hp ht
    have hslice := (hu.slice slice.val).trans (slice_setSlice_self s _ _)
    refine ⟨u, hexec, congrArg Slice.pass hslice, congrArg Slice.next hslice, congrArg Slice.rebuild hslice,
      congrArg Slice.failed hslice, ?_, congrArg (·.mst.recs) hu, congrArg (·.mst.index) hu⟩
    rw [hu]
    rfl
  · refine ⟨holddownExpire_filters race key type s, walkTimeout_breaks part s, fun hothers h => ?_, meterRefresh_refills,
      fun hr hq hslot => ?_, journalRingWrite_steps, fun hrun hroom ht he => ?_⟩
    · exact ⟨_, restampDone_ends hothers h, restamping_restampEnded_self h, epochOf_restampEnded h, mems_restampEnded h⟩
    · obtain ⟨st, hdepth, hexec⟩ := samplerVisit_samples hr hq hslot
      refine ⟨_, hexec, ?_, ?_, fun q hne => queue_setQueue_ne s _ hne, rfl⟩
      · rw [queue_setQueue_self]
        exact hdepth
      · rw [queue_setQueue_self]
    · rw [journalRingWrite_steps hrun ht (.inl hroom), ringStep_moves ht he]
      rfl

end Sys2Proof.Proofs

/-! PROOF. Commands on the exact-match tables and prefixes: searches, inserts, deletes, walks, the flush of a port and
LPM_UPDATE (R196, R279, R283, R284, R289). -/

namespace Sys2Proof.Proofs

open Sys2Proof Sys2Proof.Machine Sys2Proof.Laws

/-! ### Reaching a table command's body (R466) -/

section
variable {h : HostCmd} {s : State} {opcode : Nat} {body : CmdRef → State → State}

theorem cmdA_begins (hb : Begins h .foreground s) (hm : modeA s.top.mode = true) :
    s.cmdA h opcode body = .next (body (startRef h opcode s) (started h s)) :=
  congrArg Host.Outcome.next (startCmd_begins hb rfl hm)

theorem cmdB_begins (hb : Begins h .foreground s) (hm : modeB s.top.mode = true) :
    s.cmdB h opcode body = .next (body (startRef h opcode s) (started h s)) :=
  congrArg Host.Outcome.next (startCmd_begins hb rfl hm)

end

/-! ### Exact-match entries (R279) -/

/-- With one race named, the mask and the status are that race's. -/
theorem eachRace_singleton (f : Nat → State → Nat × State) (r : Nat) (s : State) :
    eachRace f [r] s = (if (f r s).1 = stOk then 2 ^ r else 0, (f r s).1, (f r s).2) := by
  by_cases hok : (f r s).1 = stOk
  · simp [eachRace, hok]
  · simp [eachRace, hok]

theorem emRemove_of_find {r p x : Nat} {h : HostCmd} {s : State}
    (hf : s.emFind r p (h.op 2 1) (BitVec.ofNat 64 (h.op 8 8)) = some x) : s.emRemove r p h = (stOk, s.emDelete r x) := by
  simp only [State.emRemove, hf]

/-- What SEARCH answers in race `r`, by where the key is. -/
def searchAnswered (t : State) (c : CmdRef) (r : Nat) : Option Nat → State
  | some x => t.cmdDone c stOk (leNat ((t.emAt r x).bytes false))
  | none => t.cmdDone c stNotFound 0

section
variable {h : HostCmd} {r x : Nat} {s : State} (hb : Begins h .foreground s)
include hb

theorem search_answers (hm : modeB s.top.mode = true) (hr : racesOf (h.op 0 2) = [r]) (hops : emBadOps h false = false)
    {found : Option Nat} (hf : (started h s).emFind r h.part.val (h.op 2 1) (BitVec.ofNat 64 (h.op 8 8)) = found) :
    exec (.search h) s = .next (searchAnswered (started h s) (startRef h 0x10 s) r found) := by
  change execSearch h s = _
  rw [execSearch, cmdB_begins hb hm, hr]
  dsimp only [startRef]
  rw [hf, hops, if_neg Bool.false_ne_true]
  cases found with
  | none => rfl
  | some x => rfl

section
variable (hm : modeA s.top.mode = true)
include hm

theorem insert_runs (hops : emBadOps h true = false) :
    let a := eachRace (fun r t => t.emInsert r h.part.val h) (racesOf (h.op 0 2)) (started h s)
    exec (.insert h) s = .next (a.2.2.cmdDone (startRef h 0x11 s) a.2.1 a.1) := by
  change execInsert h s = _
  rw [execInsert, cmdA_begins hb hm, hops, if_neg Bool.false_ne_true]
  rfl

theorem delete_runs (hops : emBadOps h false = false) :
    let a := eachRace (fun r t => t.emRemove r h.part.val h) (racesOf (h.op 0 2)) (started h s)
    exec (.delete h) s = .next (a.2.2.cmdDone (startRef h 0x12 s) a.2.1 a.1) := by
  change execDelete h s = _
  rw [execDelete, cmdA_begins hb hm, hops, if_neg Bool.false_ne_true]
  rfl

variable (hr : racesOf (h.op 0 2) = [r])
include hr

theorem insert_in_one_race (hops : emBadOps h true = false) :
    let a := (started h s).emInsert r h.part.val h
    exec (.insert h) s = .next (a.2.cmdDone (startRef h 0x11 s) a.1 (if a.1 = stOk then 2 ^ r else 0)) := by
  rw [insert_runs hb hm hops, hr, eachRace_singleton]

theorem delete_in_one_race (hops : emBadOps h false = false)
    (hf : (started h s).emFind r h.part.val (h.op 2 1) (BitVec.ofNat 64 (h.op 8 8)) = some x) :
    exec (.delete h) s = .next (((started h s).emDelete r x).cmdDone (startRef h 0x12 s) stOk (2 ^ r)) := by
  rw [delete_runs hb hm hops, hr, eachRace_singleton, emRemove_of_find hf]
  rfl

end

/-! ### Walks (R283, R284) -/

theorem next_walks (hm : modeB s.top.mode = true) (htable : h.op 0 1 < 16) (hrsv1 : h.op 1 1 = 0) (hne : h.op 2 2 ≠ 0)
    (hmax : h.op 2 2 ≤ 4096) (hrsv4 : h.op 4 4 = 0) :
    exec (.next h) s = .next ((started h s).walkNext (startRef h 0x13 s) (h.op 0 1) (h.op 2 2) (h.op 8 8)) := by
  change execNext h s = _
  rw [execNext, cmdB_begins hb hm, if_neg (by omega)]

theorem walkStart_busy (hm : modeB s.top.mode = true) (htable : h.op 0 1 ≤ 16)
    (hbusy : ((started h s).walk h.part.val (h.op 0 1)).isSome = true ∨
      (started h s).restamping h.part.val (h.op 0 1) = true) :
    exec (.walkStart h) s = .next ((started h s).cmdDone (startRef h 0x16 s) stBusy 0) := by
  change execWalkStart h s = _
  rw [execWalkStart, cmdB_begins hb hm, if_neg (Nat.not_lt.2 htable)]
  exact congrArg Host.Outcome.next (if_pos ((Bool.or_eq_true _ _).mpr hbusy))

theorem walkStart_starts (hm : modeB s.top.mode = true) (htable : h.op 0 1 ≤ 16)
    (hnone : (started h s).walk h.part.val (h.op 0 1) = none)
    (hidle : (started h s).restamping h.part.val (h.op 0 1) = false) :
    exec (.walkStart h) s = .next (((started h s).setWalk h.part.val (h.op 0 1)
      (some { last := (started h s).clk.gtc })).cmdDone (startRef h 0x16 s) stOk 0) := by
  change execWalkStart h s = _
  rw [execWalkStart, cmdB_begins hb hm, if_neg (Nat.not_lt.2 htable)]
  exact congrArg Host.Outcome.next (if_neg (by simp [startRef, hnone, hidle]))

end

/-! ### The flush of a port (R289) -/

/-- The entries that FLUSH_PORT deletes: those of its partition and port, the static ones only when it asks for them. -/
def flushHits (h : HostCmd) (e : EmEntry) : Bool :=
  e.valid && e.part = h.part.val && e.port = h.op 4 2 && (bitOf (h.op 2 1) 0 || !e.static)

/-- What FLUSH_PORT has counted and made of the tables once it has gone through the races named. The order in a table,
the stash first, is the model's choice (log 97). -/
def flushedRaces (h : HostCmd) (t : State) : Nat × State :=
  (racesOf (h.op 0 2)).foldl (fun (a : Nat × State) r => (a.2.emOnce r).foldl (fun (a : Nat × State) x =>
    if flushHits h (a.2.emAt r x) then (a.1 + 1, a.2.emDelete r x) else a) a) (0, t)

theorem flushPort_flushes {h : HostCmd} {s : State} (hb : Begins h .foreground s) (hm : modeA s.top.mode = true)
    (hflag : h.op 2 1 < 2) (hrsv : h.op 3 1 = 0) (hport : h.op 4 2 < 512) :
    exec (.flushPort h) s = .next ((flushedRaces h (started h s)).2.cmdDone (startRef h 0x14 s) stOk
      (flushedRaces h (started h s)).1) := by
  change execFlushPort h s = _
  rw [execFlushPort, cmdA_begins hb hm, if_neg (by omega)]
  rfl

/-! ### LPM_UPDATE (R196, R197) -/

section
variable (h : HostCmd) (t : State)

/-- Whether LPM_UPDATE names the IPv6 family. -/
def lpmV6 : Bool := decide (h.op 1 1 = 1)

/-- The width of an address of the family. -/
def lpmWidth : Nat := if lpmV6 h then 128 else 32

/-- The 128 bits of the address operand, which an IPv4 address fills from the top. -/
def lpmOperand : Nat := beNat (leBytes 16 (h.op 16 16))

def lpmAddr : BitVec 128 := BitVec.ofNat 128 (lpmOperand h / 2 ^ (128 - lpmWidth h))

/-- Whether a stored entry is of the key that the command names. -/
def lpmSame (x : Prefix) : Bool := x.v6 = lpmV6 h && x.table = h.op 4 2 && x.len = h.op 2 1 && x.addr = lpmAddr h

/-- The entry that an insert stores. -/
def lpmEntry : Prefix :=
  { v6 := lpmV6 h, table := h.op 4 2, len := h.op 2 1, addr := lpmAddr h, data := BitVec.ofNat 32 (h.op 8 4),
    part := h.part.val }

/-- Whether the partition's quota and the store leave room for one more entry of the family. -/
def lpmRoom : Bool :=
  decide (t.lpmHeld h.part.val (lpmV6 h) <
      64 * (if lpmV6 h then t.cfld (aClsLpmQuota h.part.val) 0 16 else t.cfld (aClsLpmQuota h.part.val) 16 16) ∧
    t.lpmTotal (lpmV6 h) < if lpmV6 h then 524288 else 1048576)

/-- Operands in range (R196). -/
structure LpmInRange : Prop where
  action : h.op 0 1 < 2
  family : h.op 1 1 < 2
  rsv3 : h.op 3 1 = 0
  table : h.op 4 2 < 4096
  rsv6 : h.op 6 2 = 0
  rsv12 : h.op 12 4 = 0
  len : h.op 2 1 ≤ lpmWidth h
  host : lpmOperand h % 2 ^ (128 - h.op 2 1) = 0

end

/-- An IPv4 address lies in the top 32 of the operand's bits. -/
theorem lpmEntry_of_v4 {h : HostCmd} (hv : lpmV6 h = false) :
    lpmEntry h =
      { v6 := false, table := h.op 4 2, len := h.op 2 1, data := BitVec.ofNat 32 (h.op 8 4), part := h.part.val,
        addr := BitVec.ofNat 128 (lpmOperand h / 2 ^ 96) } := by
  simp [lpmEntry, lpmAddr, lpmWidth, hv]

section
variable {h : HostCmd} {s : State} (hb : Begins h .foreground s) (hm : modeA s.top.mode = true) (hin : LpmInRange h)
include hb hm hin

/-- The command by its checks, in their order: the table's owner, the action, and the room for a new entry. -/
theorem exec_lpmUpdate :
    let t := started h s
    let c := startRef h 0x15 s
    let rest := t.cls.lpm.filter (fun x => !lpmSame h x)
    exec (.lpmUpdate h) s = .next (
      if !t.ownsLpm h.part.val (h.op 4 2) then t.cmdDone c stDenied 0
      else if h.op 0 1 = 1 then
        if t.cls.lpm.any (lpmSame h) then (t.setLpm rest).cmdDone c stOk 0 else t.cmdDone c stNotFound 0
      else if (!t.cls.lpm.any (lpmSame h)) = true ∧ ¬lpmRoom h t = true then t.cmdDone c stFull 0
      else (t.setLpm (rest ++ [lpmEntry h])).cmdDone c stOk 0) := by
  obtain ⟨haction, hfamily, hrsv3, htable, hrsv6, hrsv12, hlen, hhost⟩ := hin
  have hv : (h.op 1 1 = 1) = (lpmV6 h = true) := by simp [lpmV6]
  unfold lpmWidth at hlen
  unfold lpmOperand at hhost
  change execLpmUpdate h s = _
  rw [execLpmUpdate, cmdA_begins hb hm]
  simp only [hv]
  rw [if_neg (by omega)]
  -- The body takes the family as a proposition, and a stored entry has it as a `Bool`.
  simp only [eq_iff_iff, Bool.coe_iff_coe, Bool.decide_eq_true, lpmRoom, decide_eq_true_eq, not_and_or, not_lt]
  rfl

section
variable (hown : (started h s).ownsLpm h.part.val (h.op 4 2) = true)
include hown

theorem lpmUpdate_removes (hdel : h.op 0 1 = 1) :
    exec (.lpmUpdate h) s = .next (
      if (started h s).cls.lpm.any (lpmSame h) then
        ((started h s).setLpm ((started h s).cls.lpm.filter (fun x => !lpmSame h x))).cmdDone (startRef h 0x15 s) stOk 0
      else (started h s).cmdDone (startRef h 0x15 s) stNotFound 0) := by
  rw [exec_lpmUpdate hb hm hin, hown, if_neg (by decide), if_pos hdel]

theorem lpmUpdate_stores (hins : h.op 0 1 = 0)
    (hfits : (started h s).cls.lpm.any (lpmSame h) = true ∨ lpmRoom h (started h s) = true) :
    exec (.lpmUpdate h) s = .next (((started h s).setLpm
      ((started h s).cls.lpm.filter (fun x => !lpmSame h x) ++ [lpmEntry h])).cmdDone (startRef h 0x15 s) stOk 0) := by
  rw [exec_lpmUpdate hb hm hin, hown, if_neg (by decide), if_neg (by omega), if_neg]
  rintro ⟨hnew, hfull⟩
  exact hfits.elim (by simpa using hnew) hfull

theorem lpmUpdate_full (hins : h.op 0 1 = 0) (hnew : (started h s).cls.lpm.any (lpmSame h) = false)
    (hfull : ¬lpmRoom h (started h s) = true) :
    exec (.lpmUpdate h) s = .next ((started h s).cmdDone (startRef h 0x15 s) stFull 0) := by
  rw [exec_lpmUpdate hb hm hin, hown, if_neg (by decide), if_neg (by omega), if_pos ⟨by rw [hnew]; rfl, hfull⟩]

end

theorem lpmUpdate_denied (hforeign : (started h s).ownsLpm h.part.val (h.op 4 2) = false) :
    exec (.lpmUpdate h) s = .next ((started h s).cmdDone (startRef h 0x15 s) stDenied 0) := by
  rw [exec_lpmUpdate hb hm hin, hforeign, if_pos (by decide)]

end

/-- Settles O32. A command that begins reaches its body (`cmdA_begins`, `cmdB_begins`), where operands in range leave one
branch each; LPM_UPDATE is one equation by its checks (`exec_lpmUpdate`), of which storing an IPv4 entry is a case. -/
theorem tableCommandsComplete : Obligations.TableCommandsComplete := by
  intro h r x s p t hb
  subst p t
  refine ⟨fun hm hr hops hf => search_answers hb hm hr hops hf, fun hm hr hops hf => search_answers hb hm hr hops hf,
    insert_runs hb, delete_runs hb, insert_in_one_race hb, delete_in_one_race hb, next_walks hb, flushPort_flushes hb,
    ?_, ?_, walkStart_busy hb, walkStart_starts hb⟩
  · intro hm hins hv4 hlen hrsv3 htable hrsv6 hrsv12 hhost hown hquota htotal
    have hv : lpmV6 h = false := by simp [lpmV6, hv4]
    have hin : LpmInRange h :=
      ⟨by omega, by omega, hrsv3, htable, hrsv6, hrsv12, by simpa [lpmWidth, hv] using hlen, hhost⟩
    have hroom : lpmRoom h (started h s) = true := by simpa [lpmRoom, hv] using ⟨hquota, htotal⟩
    refine ⟨_, lpmUpdate_stores hb hm hin hown hins (.inr hroom), ?_⟩
    rw [cls_cmdDone, ← lpmOperand, ← lpmEntry_of_v4 hv]
    exact List.mem_append_right _ List.mem_cons_self
  · intro hm haction hfamily hrsv3 htable hrsv6 hrsv12 v6 w len full addr same rest entry quota room c hlen hhost
    have hin : LpmInRange h := ⟨haction, hfamily, hrsv3, htable, hrsv6, hrsv12, hlen, hhost⟩
    have hroom : lpmRoom h (started h s) = true ↔ room := decide_eq_true_iff
    exact ⟨lpmUpdate_denied hb hm hin, fun hown => ⟨lpmUpdate_removes hb hm hin hown,
      fun hins hfits => lpmUpdate_stores hb hm hin hown hins (hfits.imp_right hroom.2),
      fun hins hnew hfull => lpmUpdate_full hb hm hin hown hins hnew (hfull ∘ hroom.1)⟩⟩

end Sys2Proof.Proofs

/-! PROOF. The Hopper: its requests in key order, references counted down, and frames that it finds no cell for (R327 to R331,
R333, R336, R339). -/

namespace Sys2Proof.Proofs

open Sys2Proof Sys2Proof.Machine Sys2Proof.Laws

/-! ### What counters and the Hopper leave -/

theorem pkt_of_onlyCounters {s t : State} (h : OnlyCounters s t) (k : Nat) : t.pkt k = s.pkt k := by
  rw [h.1]
  rfl

theorem mems_of_onlyCounters {s t : State} (h : OnlyCounters s t) : t.mems = s.mems := by rw [h.1]

theorem hop_of_onlyCounters {s t : State} (h : OnlyCounters s t) : t.hop = s.hop := by rw [h.1]

theorem OnlyHopper.mems {s t : State} (h : OnlyHopper s t) : t.mems = s.mems := by rw [h]

theorem OnlyHopper.races {s t : State} (h : OnlyHopper s t) : t.races = s.races := by rw [h]

theorem OnlyHopper.setHop {s t : State} (h : OnlyHopper s t) (x : Hop) : OnlyHopper s { t with hop := x } :=
  OnlyHopper.after (t := t) rfl h

theorem OnlyPackets.mems {s t : State} (h : OnlyPackets s t) : t.mems = s.mems := by rw [h]

/-! ### The lowest request (R331) -/

theorem lowestReq_none {l : List CellReq} (h : lowestReq l = none) : l = [] := by
  cases l with
  | nil => rfl
  | cons q l =>
    unfold lowestReq at h
    split at h
    · split at h <;> cases h
    · cases h

/-- The request that is decided next stands before every other of its key, and none has a lower one. -/
theorem lowestReq_splits {l : List CellReq} : ∀ {q : CellReq}, lowestReq l = some q →
    ∃ a b, l = a ++ q :: b ∧ (∀ x ∈ a, q.key < x.key) ∧ ∀ x ∈ b, q.key ≤ x.key := by
  induction l with
  | nil => exact fun h => nomatch h
  | cons y l ih =>
    intro q h
    unfold lowestReq at h
    split at h
    next b hb =>
      obtain ⟨before, behind, hl, hlt, hle⟩ := ih hb
      split at h
      next hby =>
        cases h
        exact ⟨y :: before, behind, by rw [hl, List.cons_append], List.forall_mem_cons.2 ⟨hby, hlt⟩, hle⟩
      next hyb =>
        cases h
        have hyb : y.key ≤ b.key := Nat.le_of_not_lt hyb
        refine ⟨[], l, rfl, fun _ hx => (nomatch hx), fun x hx => ?_⟩
        rw [hl] at hx
        obtain hx | rfl | hx := (List.mem_append.1 hx).imp_right List.mem_cons.1
        · exact hyb.trans (hlt x hx).le
        · exact hyb
        · exact hyb.trans (hle x hx)
    next hnone =>
      cases h
      rw [lowestReq_none hnone]
      exact ⟨[], [], rfl, fun _ hx => (nomatch hx), fun _ hx => (nomatch hx)⟩

/-! ### A request decided (R327 to R334) -/

/-- What the Hopper makes of a request that has left its list. -/
def decided (t : State) (q : CellReq) : State :=
  match q.who with
  | .frame k => t.frameDecide q.owner k
  | .alloc c n len src res => t.allocDecide c n len src res
  | .hostTx p j => t.txTake p j true
  | .keepalive r j => t.keepaliveDecide r j

theorem cellRequest_decides {q : CellReq} {s : State} (hr : s.runs = true) (hl : lowestReq s.hop.reqs = some q) :
    exec .cellRequest s = .next (decided { s with hop := { s.hop with reqs := s.hop.reqs.erase q } } q) := by
  change execCellRequest s = _
  unfold execCellRequest decided
  rw [hl]
  dsimp only
  rw [if_pos hr]
  cases q.who <;> rfl

section
variable {t s1 : State} {o k c i : Nat}

theorem frameDecide_granted (h : t.grant o (some (t.pkt k).race) (t.domOwner (t.pkt k).dom) false
      (decide ((t.pkt k).cells = [])) = .inl (c, s1)) :
    let q := (t.pkt k).addCell c (s1.cell c).gen
    let u := (s1.linkCell (t.pkt k) c).setPkt k q
    t.frameDecide o k = if q.ended = true ∧ q.want = 0 ∧ q.kind = .frame then u.countRx q else u := by
  unfold State.frameDecide
  dsimp only
  rw [h]

/-- A refused frame asks for no more, and waits for its drop. -/
theorem frameDecide_refused (h : t.grant o (some (t.pkt k).race) (t.domOwner (t.pkt k).dom) false
      (decide ((t.pkt k).cells = [])) = .inr i) :
    (t.frameDecide o k).hop.nocell = t.hop.nocell ++ [k] ∧
      (t.frameDecide o k).hop.reqs = t.hop.reqs.filter (fun e => !decide (e.who = .frame k)) ∧
      OnlyCounters { t with hop := (t.frameDecide o k).hop } (t.frameDecide o k) := by
  have hcount := bump_only t (aHopCnt i) 1
  have hhop := hop_of_onlyCounters hcount
  unfold State.frameDecide
  dsimp only
  rw [h]
  dsimp only [State.withdraw]
  refine ⟨congrArg (fun x : Hop => x.nocell ++ [k]) hhop, congrArg (fun x : Hop => x.reqs.filter _) hhop, ?_, hcount.2⟩
  rw [hcount.1]

end

/-! ### References counted down (R336) -/

theorem decRef_counts_down {s : State} {c : Nat} (href : 1 < (s.cell c).ref) :
    s.decRef c (s.cell c).gen = s.setCell c { s.cell c with ref := (s.cell c).ref - 1 } := by
  unfold State.decRef
  dsimp only
  rw [if_neg (by omega), if_neg (by omega)]

theorem refRelease_counts {s : State} {c g : Nat} {l : List (Nat × Nat)} (hr : s.runs = true) (hl : s.hop.rel = (c, g) :: l) :
    exec .refRelease s = .next ({ s with hop := { s.hop with rel := l } }.decRef c g) := by
  change execRefRelease s = _
  unfold execRefRelease
  rw [hl]
  exact if_pos hr

/-! ### Cells that return (R327, R329, R339) -/

theorem pauseEnd_hopper (s : State) (o : Nat) : OnlyHopper s (s.pauseEnd o) := by
  unfold State.pauseEnd
  dsimp only
  split <;> rfl

theorem pauseEnds_hopper (s : State) : OnlyHopper s s.pauseEnds :=
  List.foldlRecOn (motive := OnlyHopper s) _ _ rfl fun t ht e _ => (pauseEnd_hopper t e.1).after ht

theorem freeCell_hopper (s : State) (c : Nat) : OnlyHopper s (s.freeCell c) := by
  have hcounted (x : OwnerUse) (y : CellSt) : OnlyHopper s (((s.setOwn (s.cell c).owner x).occur 88 0x011 1).setCell c y) :=
    ((onlyHopper_of_onlyCounters (occur_only (s.setOwn _ x) 88 _ _ (by decide))).after rfl).setHop _
  unfold State.freeCell
  dsimp only
  refine (pauseEnds_hopper _).after ?_
  split
  · exact (hcounted _ _).setHop _
  · exact (hcounted _ _).setHop _

/-- A freed packet is no more: nothing is asked for it, and it waits for no drop. -/
theorem freePkt_frees (s : State) (k : Nat) :
    ∃ u, OnlyHopper s u ∧ k ∉ u.hop.nocell ∧ s.freePkt k = u.setPkt k {} := by
  have hcells : OnlyHopper s ((s.pkt k).cells.foldl (fun s c => s.freeCell c) s) :=
    List.foldlRecOn (motive := OnlyHopper s) _ _ rfl fun t ht c _ => (freeCell_hopper t c).after ht
  refine ⟨_, hcells.setHop _, ?_, rfl⟩
  simp

/-! ### Frames without a cell (R333, R653) -/

/-- The refusal of frame `k` as the Sluice finds it: it is told and counted, for its owner and, in a pause, for the race. -/
def refusalTold (s : State) (k : Nat) (l : List Nat) : State :=
  let t : State := { s with hop := { s.hop with nocell := l
                                                reqs := s.hop.reqs.filter (fun q => decide (q.who ≠ ReqFor.frame k)) } }
  let t := t.bump (aHopDropExhaust (s.pkt k).owner) 1
  if (t.race (s.pkt k).race).paused then t.bump (aTskCnt (s.pkt k).race 7) 1 else t

theorem refusalTold_counts (s : State) (k : Nat) (l : List Nat) :
    OnlyCounters { s with hop := { s.hop with nocell := l
                                              reqs := s.hop.reqs.filter (fun q => decide (q.who ≠ ReqFor.frame k)) } }
      (refusalTold s k l) := by
  unfold refusalTold
  dsimp only
  split
  · exact onlyCounters_trans (bump_only _ _ _) (bump_only _ _ _)
  · exact bump_only _ _ _

theorem nocell_refusalTold (s : State) (k : Nat) (l : List Nat) : (refusalTold s k l).hop.nocell = l :=
  congrArg Hop.nocell (hop_of_onlyCounters (refusalTold_counts s k l))

theorem pkt_refusalTold (s : State) (k : Nat) (l : List Nat) (j : Nat) : (refusalTold s k l).pkt j = s.pkt j :=
  pkt_of_onlyCounters (refusalTold_counts s k l) j

theorem mems_refusalTold (s : State) (k : Nat) (l : List Nat) : (refusalTold s k l).mems = s.mems := by
  rw [mems_of_onlyCounters (refusalTold_counts s k l)]

theorem admitted_refusalTold (s : State) (k : Nat) (l : List Nat) : (refusalTold s k l).admitted k = s.admitted k := by
  rw [(refusalTold_counts s k l).1]
  rfl

/-- How many copies of packet `k` are in transmission, suspended ones too. -/
def copiesOnLines (s : State) (k : Nat) : Nat :=
  ((s.eg.ports.flatMap fun e => e.2.tx.toList ++ e.2.susp.toList).filter (fun t => decide (t.d.pkt = k))).length

theorem races_verOut (s : State) (d v : Nat) : (s.verOut d v).races = s.races := by
  unfold State.verOut
  dsimp only
  split <;> rfl

/-- What leaves the Sluice and is freed is no packet any more. -/
theorem sluiceDrop_drops (s : State) (k : Nat) :
    let u := s.sluiceDrop k
    u.pkt k = {} ∧ k ∉ u.hop.nocell ∧ k ∉ (u.race (s.pkt k).race).sluice ∧ u.mems = s.mems := by
  let x := s.race (s.pkt k).race
  let left := s.setRace (s.pkt k).race { x with sluice := x.sluice.filter (· ≠ k) }
  obtain ⟨v, hv, hnocell, hfree⟩ := freePkt_frees (left.verOut (s.pkt k).dom (s.pkt k).slot) k
  have hraces : v.races = left.races := hv.races.trans (races_verOut _ _ _)
  have hmems : v.mems = left.mems := hv.mems.trans (verOut_packets _ _ _).mems
  intro u
  have hu : u = v.setPkt k {} := hfree
  have hsluice : (u.race (s.pkt k).race).sluice = x.sluice.filter (· ≠ k) := by
    rw [hu]
    exact (congrArg (fun m => (mget dRace m _).sluice) hraces).trans (congrArg Race.sluice (race_setRace_self s _ _))
  refine ⟨hu ▸ pkt_setPkt_self v k {}, hu ▸ hnocell, ?_, hu ▸ hmems⟩
  rw [hsluice]
  simp

section
variable {s : State} {k : Nat} {l : List Nat} (h : s.hop.nocell = k :: l)
include h

/-- A packet that the parser has admitted is marked bad, with all of its bytes; its copies on lines are counted. That it
counts as ended is the model's choice (log 93). -/
theorem noCellDrop_marks (ha : s.admitted k = true) :
    ∃ u, exec .noCellDrop s = .next u ∧
      u.pkt k = { s.pkt k with bad := true, ended := true, want := 0, arrived := (s.pkt k).frame.length } ∧
      u.hop.nocell = l ∧ (∀ j, j ≠ k → u.pkt j = s.pkt j) ∧ u.mems = s.mems := by
  let marked := (refusalTold s k l).setPkt k
    { s.pkt k with bad := true, ended := true, want := 0, arrived := (s.pkt k).frame.length }
  have hcut := bump_only marked (aHopCnt 7) (copiesOnLines (refusalTold s k l) k)
  refine ⟨_, ?_, (pkt_of_onlyCounters hcut k).trans (pkt_setPkt_self _ _ _), ?_, fun j hj => ?_, ?_⟩
  · change execNoCellDrop s = _
    unfold execNoCellDrop
    rw [h]
    dsimp only
    exact if_pos ((admitted_refusalTold s k l).trans ha)
  · rw [hop_of_onlyCounters hcut]
    exact nocell_refusalTold s k l
  · rw [pkt_of_onlyCounters hcut, pkt_setPkt, if_neg hj, pkt_refusalTold]
  · rw [mems_of_onlyCounters hcut]
    exact mems_refusalTold s k l

/-- A frame that waits in the Sluice leaves it and is freed; had it ended, it counts as received. -/
theorem noCellDrop_drops (ha : s.admitted k = false) :
    ∃ u, exec .noCellDrop s = .next u ∧ u.pkt k = {} ∧ k ∉ u.hop.nocell ∧ k ∉ (u.race (s.pkt k).race).sluice ∧
      u.mems = s.mems := by
  let told := refusalTold s k l
  let counted := if (s.pkt k).ended = true ∧ (s.pkt k).want ≠ 0 then told.countRx (s.pkt k) else told
  have hcounted : OnlyCounters told counted := by
    unfold counted
    split
    · exact onlyCounters_trans (bump_only _ _ _) (bump_only _ _ _)
    · exact onlyCounters_refl _
  obtain ⟨hpkt, hnocell, hsluice, hmems⟩ := sluiceDrop_drops counted k
  rw [pkt_of_onlyCounters hcounted, pkt_refusalTold] at hsluice
  rw [mems_of_onlyCounters hcounted, mems_refusalTold] at hmems
  refine ⟨_, ?_, hpkt, hnocell, hsluice, hmems⟩
  change execNoCellDrop s = _
  unfold execNoCellDrop
  rw [h]
  dsimp only
  exact if_neg (Bool.eq_false_iff.1 ((admitted_refusalTold s k l).trans ha))

end

/-- Settles O21. Who sent the request decides what becomes of it (`cellRequest_decides`); a frame without a cell is marked
bad or dropped after its refusal has been told. One list of requests and the marks of an admitted packet are the model's
choices (log 30, 93). -/
theorem theHopperServesItsRequests : Obligations.TheHopperServesItsRequests := by
  refine ⟨fun q k i c g n len src res j w s1 l rl s => ?_, fun l q => lowestReq_splits⟩
  intro t p ask
  refine ⟨fun hr hl => ?_, fun hr hrel => ⟨refRelease_counts hr hrel, fun href hgen => ?_⟩, fun hn ha => ?_,
    noCellDrop_drops⟩
  · have hexec := cellRequest_decides hr hl
    unfold decided at hexec
    refine ⟨fun hw => ⟨fun hask => ?_, fun hask => ⟨_, ?_, frameDecide_refused hask⟩⟩, fun hw => ?_, fun hw => ?_,
      fun hw => ?_⟩
    all_goals rw [hw] at hexec
    · exact hexec.trans (congrArg Host.Outcome.next (frameDecide_granted hask))
    · exact hexec
    · exact hexec
    · exact hexec
    · exact hexec
  · subst hgen
    rw [refRelease_counts hr hrel]
    exact congrArg Host.Outcome.next (decRef_counts_down href)
  · obtain ⟨u, hexec, hpkt, hframe⟩ := noCellDrop_marks hn ha
    exact ⟨u, hexec, congrArg Packet.bad hpkt, congrArg Packet.ended hpkt, congrArg Packet.want hpkt,
      congrArg Packet.arrived hpkt, hframe⟩

end Sys2Proof.Proofs

/-! PROOF. Copies on their way to the queues: an isolated Tailrace drops even one that R362 lets in (R564). -/

namespace Sys2Proof.Proofs

open Sys2Proof Sys2Proof.Machine Sys2Proof.Laws

/-! ### Copies for an isolated Tailrace (R362, R564) -/

/-- An isolated Tailrace drops a copy before the steps of R362 judge it. -/
theorem enqueue_of_isolated {s : State} {d : Desc} {q : Nat} (hq : validQueue q = true)
    (h : (2, s.queuePort q / 32) ∈ s.top.isolated) :
    s.enqueue d q = s.dropCopy { d with queue := q } (s.queuePort q % 512) := by
  unfold State.enqueue
  dsimp only
  rw [if_pos hq]
  exact if_pos (List.contains_iff_mem.2 h)

/-- A copy in cells that no host waits for gives back its reference, and no queue changes. -/
theorem queue_dropCopy_of_cells {s : State} {d : Desc} (q n : Nat) (hpages : d.pages = []) (hhost : d.hostTx = none)
    (hstamp : d.twoStep = none) : (s.dropCopy d n).queue q = s.queue q := by
  unfold State.dropCopy State.hostRead_ State.letGo
  rw [hpages, hhost, hstamp]
  dsimp only
  rw [if_neg (not_not.2 rfl)]
  split <;> rfl

/-- A frame of 60 bytes on its way to queue 0 of port 0. -/
def strandedCopy : Desc := { queue := directBase, frame := List.replicate 60 0 }

/-- The block in SERVICE with `strandedCopy` next at race 0's descriptor switch and its queue in use, but Tailrace 0
isolated. -/
def tailraceIsolated : State :=
  { State.reset.setTabW tQueue directBase 0 (2 ^ 31 + 10240) with
    top := { mode := .service, isolated := [(2, 0)] }
    races := [(0, { switch := [strandedCopy] })] }

/-- `tailraceIsolated` with the copy taken from the switch. -/
def strandedTaken : State := tailraceIsolated.setRace 0 {}

theorem strandedCopy_passes : strandedTaken.enqueueFails strandedCopy directBase = none := by decide +kernel

theorem strandedCopy_isolated : (2, strandedTaken.queuePort directBase / 32) ∈ strandedTaken.top.isolated := by
  decide +kernel

/-- Refutes O25: in `tailraceIsolated` every step of R362 lets the copy in, yet the isolated Tailrace drops it (R564), so
that it never joins its queue. -/
theorem not_copiesReachTheirQueues : ¬ Obligations.CopiesReachTheirQueues := by
  unfold Obligations.CopiesReachTheirQueues
  intro h
  have hclauses := h 0 strandedCopy [] 0 0 [] false tailraceIsolated tailraceIsolated rfl
  obtain ⟨henqueues, hjoins⟩ := hclauses.1 rfl rfl rfl (.inr strandedCopy_isolated)
  obtain ⟨u, hexec, ⟨e, hfifo, -⟩, -⟩ := hjoins rfl strandedCopy_passes
  have hu : strandedTaken.enqueue strandedCopy directBase = u := Host.Outcome.next.inj (henqueues.symm.trans hexec)
  rw [← hu, enqueue_of_isolated rfl strandedCopy_isolated, queue_dropCopy_of_cells _ _ rfl rfl rfl] at hfifo
  exact absurd (congrArg List.length hfifo) (Nat.succ_ne_self _).symm

end Sys2Proof.Proofs

/-! PROOF. Commands on buffers, modes and restarts (R331, R332, R347 to R350, R513, R514). -/

namespace Sys2Proof.Proofs

open Sys2Proof Sys2Proof.Machine Sys2Proof.Laws

/-! ### Buffers asked for (R331, R332, R347, R348) -/

theorem allocDecide_granted {t s1 : State} {c : CmdRef} {n len src res : Nat} {l : List Nat}
    (h : t.grantAll (4096 + c.part) c.part true n false = .inl (l, s1)) :
    t.allocDecide c n len src res = s1.bufGranted c 0 len src res l := by
  unfold State.allocDecide
  rw [h]

theorem allocDecide_refused {t : State} {c : CmdRef} {n len src res i : Nat}
    (h : t.grantAll (4096 + c.part) c.part true n false = .inr i) :
    t.allocDecide c n len src res = (t.bump (aHopCnt i) 1).cmdDone c stEmpty 0 := by
  unfold State.allocDecide
  rw [h]

/-- What BUF_ALLOC makes of the answer to its request for pages. -/
def pagesAnswered (t : State) (c : CmdRef) (len src res : Nat) : Option (List Nat × State) → State
  | some (l, s1) => s1.bufGranted c 1 len src res l
  | none => (t.bump (aHopCnt 4) 1).cmdDone c stEmpty 0

section
variable {h : HostCmd} {s : State} (hb : Begins h .foreground s) (hm : modeA s.top.mode = true) (hn : 1 ≤ h.op 1 1)
  (hmax : h.op 1 1 ≤ 64) (hrsv2 : h.op 2 6 = 0)
include hb hm hn hmax hrsv2

section
variable (hrsv20 : h.op 20 4 = 0)
include hrsv20

/-- Cells are asked of the Hopper, which decides in key order. -/
theorem bufAlloc_asks (hkind : h.op 0 1 = 0) (hlen : h.op 16 4 ≤ h.op 1 1 * 256) :
    exec (.bufAlloc h) s = .next (((started h s).cmdRuns (startRef h 0x80 s)).askHopper islHost (srcHost h.part.val)
      (4096 + h.part.val) (.alloc (startRef h 0x80 s) (h.op 1 1) (h.op 16 4) (h.op 8 8) (h.op 24 8))) := by
  change execBufAlloc h s = _
  rw [execBufAlloc, cmdA_begins hb hm, hkind]
  dsimp only
  rw [show bufSize 0 = 256 from rfl, if_neg (by omega)]
  rfl

/-- Pages are taken at the command itself. That they do not go through the Hopper's list is the model's choice (log 30). -/
theorem bufAlloc_takes (hkind : h.op 0 1 = 1) (hlen : h.op 16 4 ≤ h.op 1 1 * 4096) {found : Option (List Nat × State)}
    (hfound : (started h s).pagesAll (4096 + h.part.val) h.part.val (h.op 1 1) = found) :
    exec (.bufAlloc h) s =
      .next (pagesAnswered (started h s) (startRef h 0x80 s) (h.op 16 4) (h.op 8 8) (h.op 24 8) found) := by
  change execBufAlloc h s = _
  rw [execBufAlloc, cmdA_begins hb hm, hkind]
  dsimp only [startRef]
  rw [show bufSize 1 = 4096 from rfl, if_neg (by omega), if_neg (by decide), hfound]
  cases found with
  | none => rfl
  | some a => rfl

end

end

/-! ### Buffers given back (R347, R350) -/

theorem natBool_bitOf (v i : Nat) : natBool (bitOf v i) = v / 2 ^ i % 2 := by
  unfold natBool bitOf
  obtain h | h := Nat.mod_two_eq_zero_or_one (v / 2 ^ i)
  · simp [h]
  · simp [h]

theorem length_eraseDups_le : ∀ l : List Nat, l.eraseDups.length ≤ l.length
  | [] => le_rfl
  | a :: l => by
    rw [List.eraseDups_cons]
    exact Nat.succ_le_succ ((length_eraseDups_le _).trans (List.length_filter_le _ l))
termination_by l => l.length
decreasing_by exact Nat.lt_succ_of_le (List.length_filter_le _ l)

theorem length_eraseDups_lt_iff {l : List Nat} : l.eraseDups.length < l.length ↔ ¬l.Nodup := by
  induction l with
  | nil => simp
  | cons a l ih =>
    rw [List.eraseDups_cons, List.nodup_cons, List.length_cons, List.length_cons, Nat.add_lt_add_iff_right]
    by_cases ha : a ∈ l
    · have hfilter : (l.filter fun b => !b == a).length < l.length :=
        List.length_filter_lt_length_iff_exists.2 ⟨a, ha, by simp⟩
      simpa [ha] using (length_eraseDups_le _).trans_lt hfilter
    · have hfilter : (l.filter fun b => !b == a) = l :=
        List.filter_eq_self.2 fun b hb => by
          rw [Bool.not_eq_true', beq_eq_false_iff_ne]
          rintro rfl
          exact ha hb
      rw [hfilter, ih]
      simp [ha]

theorem holdsBuf_dmaRead (s : State) (n p x : Nat) : (s.dmaRead n).holdsBuf p x = s.holdsBuf p x := by
  have hhop := hop_of_onlyCounters (occur_only s 105 0x011 ((n + 63) / 64) (by decide))
  unfold State.holdsBuf State.bufAt State.page State.cell State.dmaRead
  rw [hhop]

/-- The handles that a BUF_FREE lists in its host's memory. -/
def listedBufs (h : HostCmd) (t : State) : List Nat :=
  (upTo (h.op 1 1)).map fun i => t.hostLe h.part.val (h.op 8 8 + 4 * i) 4

section
variable {h : HostCmd} {s : State} (hb : Begins h .foreground s) (hm : modeA s.top.mode = true) (hkind : h.op 0 1 ≤ 1)
  (hn : 1 ≤ h.op 1 1) (hmax : h.op 1 1 ≤ 64) (hrsv2 : h.op 2 6 = 0) (hrsv16 : h.op 16 16 = 0)
  (hformed : ∀ x, x ∈ listedBufs h (started h s) → handleOk x = true ∧ x / 2 ^ 31 % 2 = h.op 0 1)
include hb hm hkind hn hmax hrsv2 hrsv16 hformed

/-- Of well-formed handles, one that is not held, or is listed twice, refuses them all. -/
theorem bufFree_decides :
    let hs := listedBufs h (started h s)
    let t := (started h s).dmaRead (4 * h.op 1 1)
    exec (.bufFree h) s = .next (if (∃ x ∈ hs, (started h s).holdsBuf h.part.val x = false) ∨ ¬hs.Nodup then
      t.cmdDone (startRef h 0x81 s) stDenied 0
      else (hs.foldl (fun s x => s.bufReturn x) t).cmdDone (startRef h 0x81 s) stOk 0) := by
  intro hs t
  have hlen : hs.length = h.op 1 1 := by simp [hs, listedBufs, upTo]
  have hgood : hs.any (fun x => !handleOk x || natBool (bitOf x 31) != h.op 0 1) = false := by
    refine List.any_eq_false.2 fun x hx => ?_
    obtain ⟨hok, hk⟩ := hformed x hx
    rw [hok, natBool_bitOf, hk]
    simp
  have hheld : (hs.any (fun x => !t.holdsBuf h.part.val x) = true ∨ hs.eraseDups.length < h.op 1 1) ↔
      (∃ x ∈ hs, (started h s).holdsBuf h.part.val x = false) ∨ ¬hs.Nodup := by
    rw [← hlen, length_eraseDups_lt_iff]
    simp [t, holdsBuf_dmaRead]
  change execBufFree h s = _
  rw [execBufFree, cmdA_begins hb hm]
  dsimp only
  rw [if_neg (by omega)]
  refine congrArg Host.Outcome.next ((if_neg (Bool.eq_false_iff.1 hgood)).trans ?_)
  exact if_congr hheld rfl rfl

end

/-! ### Modes that the host asks for (R513, R516) -/

theorem started_threads (h : HostCmd) (s : State) : (started h s).threads = s.threads := by rw [started_signals]

theorem eventAny_signals (s : State) (src code : Nat) : OnlySignals s.useFree (s.eventAny src code) :=
  event_signals _ _ _ _

theorem debugCover_signals (s : State) : OnlySignals s s.debugCover := by
  unfold State.debugCover
  split
  · split
    · exact setRegN_signals _ _ _
    · unfold State.coverage
      dsimp only
      split
      · exact setRegN_signals _ _ _
      · exact (event_signals _ _ _ _).after (setRegN_signals _ _ _)
  · exact setRegN_signals _ _ _

/-- A mode change notes the mode that it leaves, and reaches neither threads nor memories. -/
theorem setMode_changes {s : State} {m : Mode} (h : s.top.mode ≠ m) :
    (s.setMode m).top.mode = m ∧ (s.setMode m).top.prev = s.top.mode ∧ (s.setMode m).threads = s.threads ∧
      (s.setMode m).mems = s.mems := by
  let fresh := !s.runs && s.top.mode != .halt && m != .halt
  let t : State := { s with top := { s.top with
    prev := s.top.mode, mode := m, modeGtc := s.clk.gtc, resumeGtc := if fresh then s.clk.gtc else s.top.resumeGtc } }
  have hu : OnlySignals t.useFree (s.setMode m) := by
    have htold := (debugCover_signals _).after ((irqAll_signals _ 136).after (eventAny_signals t srcReset 0x0002))
    unfold State.setMode
    rw [if_neg h]
    dsimp only
    split
    · exact (alertCause_signals _ 3).after htold
    · exact htold
  rw [hu]
  exact ⟨rfl, rfl, rfl, rfl⟩

theorem modeTarget_of_ne_safe {s : State} {k : Nat} {m : Mode} (h : s.modeTarget k = some m) (hsafe : m ≠ .safe) :
    m = .ready ∨ m = .service ∨ m = .degraded := by
  unfold State.modeTarget at h
  split at h
  all_goals grind

/-- From READY, or into SERVICE or DEGRADED, no link falls (R409) and no pass stops: the mode alone changes. -/
theorem enterMode_eq_setMode {s : State} {m : Mode} (hne : s.top.mode ≠ m)
    (hm : m = .ready ∨ m = .service ∨ m = .degraded) (hlinks : s.top.mode = .ready ∨ m ≠ .ready) :
    s.enterMode m = s.setMode m := by
  have hmode := (setMode_changes hne).1
  have hserves : (s.serves && !(s.setMode m).serves) = false := by
    unfold State.serves
    rw [hmode]
    obtain hr | hr := hlinks
    · rw [hr]
      rfl
    · obtain rfl | rfl | rfl := hm
      · exact absurd rfl hr
      · simp
      · simp
  have hpasses : ¬(m = .restart ∨ m = .safe) := by
    rcases hm with rfl | rfl | rfl <;> decide
  unfold State.enterMode
  dsimp only
  rw [hserves, if_neg Bool.false_ne_true, if_neg hpasses]

section
variable {h : HostCmd} {s : State} {m : Mode} (hb : Begins h .foreground s) (hp : h.part.val = 0)
  (hm : modeC s.top.mode h.part.val = true)
include hb hp hm

/-- Partition 0 changes the mode, and an event tells of it; to ask for the present mode changes nothing. That this raises no
event is the model's choice (log 74). -/
theorem modeReq_enters (ht : (started h s).modeTarget (h.op 0 1) = some m) :
    let t := started h s
    exec (.modeReq h) s = .next (if m = s.top.mode then t.cmdDone (startRef h 0x90 s) stOk (modeCode m)
      else ((if m = .safe then t.enterSafe 1 else t.enterMode m).eventAny (srcHost 0) 0x8031).cmdDone
        (startRef h 0x90 s) stOk (modeCode m)) := by
  change execModeReq h s = _
  rw [execModeReq, startCmd_begins hb (decide_eq_true hp) hm, ht]
  dsimp only
  rw [started_top]

theorem warmReset_restarts (hend : h.op 0 1 ≤ 1) :
    exec (.warmReset h) s = .next (((started h s).cmdDone (startRef h 0xA1 s) stOk 0).warmReset rstSwr
      (if h.op 0 1 = 1 then some 5 else none) (s.top.mode = .safe)) := by
  change execWarmReset h s = _
  rw [execWarmReset, startCmd_begins hb (decide_eq_true hp) hm]
  dsimp only
  rw [if_neg (by omega), started_top]

end

/-- Settles O40. Each command that begins reaches its body; handles held and listed once return (`bufFree_decides`), and a
mode change under which no link falls brings nothing but its signals (`enterMode_eq_setMode`). Pages decided at their command,
a refusal's count and the silence of a MODE_REQ that changes nothing are the model's choices (log 30, 68, 74). -/
theorem buffersModesAndRestartsAreCommanded : Obligations.BuffersModesAndRestartsAreCommanded := by
  intro h m l s s1 p n t hs hb
  refine ⟨fun hm hn hmax hrsv2 hrsv20 => ⟨bufAlloc_asks hb hm hn hmax hrsv2 hrsv20, fun hg => allocDecide_granted hg,
      fun i hg => allocDecide_refused hg, fun hkind hlen hf => bufAlloc_takes hb hm hn hmax hrsv2 hrsv20 hkind hlen hf,
      fun hkind hlen hf => bufAlloc_takes hb hm hn hmax hrsv2 hrsv20 hkind hlen hf⟩,
    fun hm hkind hn hmax hrsv2 hrsv16 honce hheld => ?_, fun hm hkind hn hmax hrsv2 hrsv16 hformed hbad => ?_,
    fun hp hm ht => ⟨fun hsame => ?_, fun hsafe hne => ?_⟩, fun hp hm ht hne hsafe => ⟨?_, fun hlinks => ?_⟩,
    warmReset_restarts hb⟩
  · refine (bufFree_decides hb hm hkind hn hmax hrsv2 hrsv16 fun x hx => ?_).trans (congrArg Host.Outcome.next (if_neg ?_))
    · obtain ⟨hok, hk, -⟩ := hheld x hx
      exact ⟨hok, hk⟩
    · rintro (⟨x, hx, hnot⟩ | htwice)
      · obtain ⟨-, -, hx⟩ := hheld x hx
        exact absurd (hnot.symm.trans hx) (by decide)
      · exact htwice honce
  · exact (bufFree_decides hb hm hkind hn hmax hrsv2 hrsv16 hformed).trans (congrArg Host.Outcome.next (if_pos hbad.symm))
  · rw [modeReq_enters hb hp hm ht, if_pos hsame]
  · rw [modeReq_enters hb hp hm ht, if_neg hne, if_pos hsafe]
  · rw [modeReq_enters hb hp hm ht, if_neg hne, if_neg hsafe]
  · have hmode : t.top.mode = s.top.mode := congrArg _ (started_top h s)
    have hleaves : t.top.mode ≠ m := hmode ▸ hne.symm
    rw [enterMode_eq_setMode hleaves (modeTarget_of_ne_safe ht hsafe) (hlinks.imp_left hmode.trans)]
    obtain ⟨hnew, hprev, hthreads, hmems⟩ := setMode_changes hleaves
    exact ⟨hnew, hprev.trans hmode, hthreads.trans (started_threads h s), hmems.trans (started_mems h s)⟩

end Sys2Proof.Proofs

/-! PROOF. Doorbells, and the transmit and receive rings of the hosts (R334, R457, R471 to R473). -/

namespace Sys2Proof.Proofs

open Sys2Proof Sys2Proof.Machine Sys2Proof.Laws

/-! ### Doorbells (R457) -/

/-- A ring that is on, at an endpoint that takes doorbells, is served. -/
theorem not_unserved {s : State} {p : Nat} {on : Bool} (hd : s.doorOk p = true) (hon : on = true) :
    ¬((!s.doorOk p) = true ∨ (!on) = true) := by
  simp [hd, hon]

section
variable {s : State} {p i v : Nat} (hd : s.doorOk p = true) (hon : s.cmdOn p i = true)
include hd hon

theorem piDoor_taken (h : sub16 (v % 65536) (s.cmdCh p i) ≤ s.cmdSize p i) :
    s.piDoor p i v = (s.setRegN (aHstCmdq p i + 20) (v % 65536)).badHeads p i (s.cmdSize p i) := by
  unfold State.piDoor
  dsimp only
  rw [if_neg (not_unserved hd hon), if_neg (Nat.not_lt.2 h)]

theorem piDoor_ignored (h : s.cmdSize p i < sub16 (v % 65536) (s.cmdCh p i)) : s.piDoor p i v = s.doorIgnored p := by
  unfold State.piDoor
  dsimp only
  rw [if_neg (not_unserved hd hon), if_pos h]

theorem chDoor_taken (h : sub16 (s.cmdPi p i) (v % 65536) ≤ s.cmdSize p i) :
    s.chDoor p i v = s.setRegN (aHstCmdq p i + 28) (v % 65536) := by
  unfold State.chDoor
  dsimp only
  rw [if_neg (not_unserved hd hon), if_neg (Nat.not_lt.2 h)]

theorem chDoor_ignored (h : s.cmdSize p i < sub16 (s.cmdPi p i) (v % 65536)) : s.chDoor p i v = s.doorIgnored p := by
  unfold State.chDoor
  dsimp only
  rw [if_neg (not_unserved hd hon), if_pos h]

end

section
variable {s : State} {p a v : Nat} (hd : s.doorOk p = true) (hon : s.dmaOn a = true)
include hd hon

theorem tailDoor_taken (h : sub16 v (s.dmaHead a) ≤ s.dmaSize a) : s.tailDoor p a v = s.setRegN (a + 12) (v % 65536) := by
  unfold State.tailDoor
  rw [if_neg (not_unserved hd hon), if_neg (Nat.not_lt.2 h)]

theorem tailDoor_ignored (h : s.dmaSize a < sub16 v (s.dmaHead a)) : s.tailDoor p a v = s.doorIgnored p := by
  unfold State.tailDoor
  rw [if_neg (not_unserved hd hon), if_pos h]

end

/-! ### Descriptors taken from a transmit ring (R334, R472, R473) -/

/-- From `s` to `t` nothing has changed but the rings of the hosts and counters. -/
def OnlyRings (s t : State) : Prop := t = { s with host := t.host, cnt := t.cnt, regs := t.regs }

theorem OnlyRings.after {s t u : State} (h2 : OnlyRings t u) (h1 : OnlyRings s t) : OnlyRings s u := by
  unfold OnlyRings at *
  rw [h2, h1]

theorem onlyRings_of_onlyCounters {s t : State} (h : OnlyCounters s t) : OnlyRings s t := by
  unfold OnlyRings
  rw [h.1]

theorem OnlyRings.frame {s t : State} (h : OnlyRings s t) :
    t.mems = s.mems ∧ t.races = s.races ∧ t.pkts = s.pkts ∧ t.nextPkt = s.nextPkt := by
  rw [h]
  exact ⟨rfl, rfl, rfl, rfl⟩

theorem host_of_onlyCounters {s t : State} (h : OnlyCounters s t) : t.host = s.host := by rw [h.1]

theorem txs_setTxs_self (s : State) (key : Nat) (l : List TxSlot) : (s.setTxs key l).txs key = l := mget_mset_self _ _ _ _

theorem dmaRead_only (s : State) (n : Nat) : OnlyCounters s (s.dmaRead n) := occur_only s 105 _ _ (by decide)

/-- The position of the descriptor that comes next on a transmit ring. -/
def nextTxPos (s : State) (p j : Nat) : Nat := (s.dmaHead (aHstTxq p j) + (s.txs (p * 64 + j)).length) % 65536

/-- The descriptor `d` has been taken at position `pos` of its ring: it is read, and its entry joins those that are to be
written back. -/
def tookTx (t : State) (p j pos : Nat) (d : TxDesc) (st : Option Nat) : State :=
  let u := (t.dmaRead 32).dmaRead (if d.hb then 4 * d.count else if st = some stOk then d.len else 0)
  u.setTxs (p * 64 + j) (u.txs (p * 64 + j) ++ [{ pos := pos, status := st, irq := bitOf d.ctl 3 }])

section
variable (t : State) (p j pos : Nat) (d : TxDesc) (st : Option Nat)

theorem tookTx_rings : OnlyRings t (tookTx t p j pos d st) :=
  OnlyRings.after rfl (onlyRings_of_onlyCounters (onlyCounters_trans (dmaRead_only _ _) (dmaRead_only _ _)))

theorem txs_tookTx : (tookTx t p j pos d st).txs (p * 64 + j) =
    t.txs (p * 64 + j) ++ [{ pos := pos, status := st, irq := bitOf d.ctl 3 }] := by
  unfold tookTx
  rw [txs_setTxs_self]
  unfold State.txs
  rw [host_of_onlyCounters (dmaRead_only _ _), host_of_onlyCounters (dmaRead_only _ _)]

theorem txWait_tookTx : (tookTx t p j pos d st).host.txWait = t.host.txWait := by
  change ((t.dmaRead 32).dmaRead _).host.txWait = _
  rw [host_of_onlyCounters (dmaRead_only _ _), host_of_onlyCounters (dmaRead_only _ _)]

end

/-- The frame joins what race 0's descriptor switch holds. -/
theorem switch_txQueue (s : State) (p : Nat) (d : TxDesc) (x : Desc) :
    ((s.txQueue p d x).race 0).switch.length = (s.race 0).switch.length + 1 := by
  unfold State.txQueue State.leave
  rw [race_setRace_self]
  exact List.length_append

theorem txQueue_frame (s : State) (p : Nat) (d : TxDesc) (x : Desc) :
    (s.txQueue p d x).host = s.host ∧ (s.txQueue p d x).mems = s.mems ∧ (s.txQueue p d x).pkts = s.pkts ∧
      (s.txQueue p d x).nextPkt = s.nextPkt := ⟨rfl, rfl, rfl, rfl⟩

/-- Reading buffers uses free values only, for the bytes that were never written (log 7). -/
theorem bufFrame_clk (s : State) (hs : List Nat) (len : Nat) :
    (s.bufFrame hs len).2 = { s with clk := (s.bufFrame hs len).2.clk } :=
  List.foldlRecOn (motive := fun x : List Byte × State => x.2 = { s with clk := x.2.clk }) hs _ rfl fun x hx h _ => by
    rw [State.bufBytes_, hx]

theorem bufFrame_frame (s : State) (hs : List Nat) (len : Nat) :
    (s.bufFrame hs len).2.host = s.host ∧ (s.bufFrame hs len).2.mems = s.mems ∧
      (s.bufFrame hs len).2.races = s.races ∧ (s.bufFrame hs len).2.pkts = s.pkts := by
  rw [bufFrame_clk]
  exact ⟨rfl, rfl, rfl, rfl⟩

theorem txs_of_host {s t : State} (h : t.host = s.host) (key : Nat) : t.txs key = s.txs key := by
  unfold State.txs
  rw [h]

theorem race_of_races {s t : State} (h : t.races = s.races) (r : Nat) : t.race r = s.race r := by
  unfold State.race
  rw [h]

theorem pkt_of_pkts {s t : State} (h : t.pkts = s.pkts) (k : Nat) : t.pkt k = s.pkt k := by
  unfold State.pkt
  rw [h]

/-- The frame `f` of descriptor `d` stands in `cells`: it is injected, or joins the switch as a packet of its own. -/
def txCopied (t : State) (p j : Nat) (d : TxDesc) (f : List Byte) (cells : List Nat) : State :=
  if d.inject then t.txInject p d.dest f cells
  else
    let gen := (t.cell (cells.headD 0)).gen
    let a := t.addPkt { kind := .hostTx p j, frame := f, arrived := f.length, ended := true, cells := cells, gen := gen,
                        owner := 4096 + p }
    a.2.txQueue p d { pkt := a.1, cell := cells.headD 0, gen := gen, frame := f }

/-- What a transmit ring does with its next descriptor `d`, at position `pos`: it refuses it, sends it from its buffers,
asks the Hopper for cells, or, once asked, copies the frame into them. -/
def txServed (s : State) (p j pos : Nat) (d : TxDesc) (asked : Bool) : State :=
  match s.txRefused p d with
  | some st =>
    let u := (tookTx s p j pos d (some st)).bump (aHstPcnt p 5) 1
    if st = stDenied then u.deny p 5 pos else u
  | none =>
    if d.hb = true ∧ (!d.inject) = true then
      let b := s.bufFrame (s.txHandles p d) d.len
      (tookTx b.2 p j pos d none).txQueue p d
        { pkt := noPkt, frame := b.1, hostTx := some (p * 64 + j, pos)
          hostBufs := (s.txHandles p d).map (fun h => (h, (b.2.bufAt h).gen)) }
    else if !asked then s.askHopper islHost (srcHost p) (4096 + p) (.hostTx p j)
    else
      let f := if d.hb then s.bufFrame (s.txHandles p d) d.len else (s.hostRead p d.addr d.len, s)
      match f.2.hostCells p f.1 with
      | .inr i => (s.bump (aHopCnt i) 1).setTxWait (s.host.txWait ++ [p * 64 + j])
      | .inl (cells, s2) => txCopied (tookTx s2 p j pos d (some stOk)) p j d f.1 cells

section
variable {s : State} {p j : Nat} (hready : TxReady s p j)
include hready

theorem txReady_takes : ¬((!s.doorOk p) = true ∨ (!s.runs) = true ∨ (!s.dmaOn (aHstTxq p j)) = true ∨
    nextTxPos s p j = s.dmaTail (aHstTxq p j)) := by
  obtain ⟨hdoor, hruns, hon, hpos⟩ := hready
  simpa [hdoor, hruns, hon, nextTxPos] using hpos

/-- What becomes of the next descriptor, by its checks and its form (R472, R473). -/
theorem txTake_of_ready (asked : Bool) :
    s.txTake p j asked = txServed s p j (nextTxPos s p j) (nextTx s p j) asked := by
  unfold State.txTake txServed
  dsimp only
  exact if_neg (txReady_takes hready)

/-- A descriptor refused with REJECT is taken with that status; the packets, races and memories do not change. -/
theorem txTake_rejected (asked : Bool) (h : s.txRefused p (nextTx s p j) = some stReject) :
    let u := s.txTake p j asked
    u.txs (p * 64 + j) = s.txs (p * 64 + j) ++
        [{ pos := nextTxPos s p j, status := some stReject, irq := bitOf (nextTx s p j).ctl 3 }] ∧
      u.host.txWait = s.host.txWait ∧ u.mems = s.mems ∧ u.races = s.races ∧ u.pkts = s.pkts := by
  let took := tookTx s p j (nextTxPos s p j) (nextTx s p j) (some stReject)
  have hcount := bump_only took (aHstPcnt p 5) 1
  have hhost := host_of_onlyCounters hcount
  intro u
  have hu : u = took.bump (aHstPcnt p 5) 1 := by
    unfold u
    rw [txTake_of_ready hready, txServed, h]
    exact if_neg (by decide)
  obtain ⟨hmems, hraces, hpkts, -⟩ := ((onlyRings_of_onlyCounters hcount).after (tookTx_rings _ _ _ _ _ _)).frame
  rw [hu]
  refine ⟨(txs_of_host hhost _).trans (txs_tookTx _ _ _ _ _ _), ?_, hmems, hraces, hpkts⟩
  exact (congrArg HostS.txWait hhost).trans (txWait_tookTx _ _ _ _ _ _)

variable (h : s.txRefused p (nextTx s p j) = none)
include h

theorem txTake_asks (hform : (nextTx s p j).hb = false ∨ (nextTx s p j).inject = true) :
    s.txTake p j false = s.askHopper islHost (srcHost p) (4096 + p) (.hostTx p j) := by
  have hcells : ¬((nextTx s p j).hb = true ∧ (!(nextTx s p j).inject) = true) := by
    rcases hform with h | h <;> simp [h]
  rw [txTake_of_ready hready, txServed, h]
  exact (if_neg hcells).trans (if_pos rfl)

/-- A frame in host buffers joins the switch at once, and its status comes when the buffers have been read. -/
theorem txTake_queues (asked : Bool) (hhb : (nextTx s p j).hb = true) (hinj : (nextTx s p j).inject = false) :
    let u := s.txTake p j asked
    u.txs (p * 64 + j) = s.txs (p * 64 + j) ++
        [{ pos := nextTxPos s p j, status := none, irq := bitOf (nextTx s p j).ctl 3 }] ∧
      (u.race 0).switch.length = (s.race 0).switch.length + 1 ∧ u.pkts = s.pkts ∧ u.mems = s.mems := by
  let read := s.bufFrame (s.txHandles p (nextTx s p j)) (nextTx s p j).len
  let took := tookTx read.2 p j (nextTxPos s p j) (nextTx s p j) none
  obtain ⟨hhostR, hmemsR, hracesR, hpktsR⟩ := bufFrame_frame s (s.txHandles p (nextTx s p j)) (nextTx s p j).len
  obtain ⟨hmems, hraces, hpkts, -⟩ := (tookTx_rings read.2 p j (nextTxPos s p j) (nextTx s p j) none).frame
  have hu : ∃ x, s.txTake p j asked = took.txQueue p (nextTx s p j) x := by
    rw [txTake_of_ready hready, txServed, h]
    exact ⟨_, if_pos ⟨hhb, by simp [hinj]⟩⟩
  obtain ⟨x, hu⟩ := hu
  obtain ⟨hhostQ, hmemsQ, hpktsQ, -⟩ := txQueue_frame took p (nextTx s p j) x
  intro u
  unfold u
  rw [hu]
  refine ⟨?_, ?_, hpktsQ.trans (hpkts.trans hpktsR), hmemsQ.trans (hmems.trans hmemsR)⟩
  · rw [txs_of_host hhostQ, txs_tookTx, txs_of_host hhostR]
  · rw [switch_txQueue, race_of_races (hraces.trans hracesR)]

/-- Once its cells are granted, a frame is copied into them as a packet of its own, which joins the switch. -/
theorem txTake_copies {cells : List Nat} {s1 : State} (hhb : (nextTx s p j).hb = false)
    (hinj : (nextTx s p j).inject = false)
    (hgrant : s.hostCells p (s.hostRead p (nextTx s p j).addr (nextTx s p j).len) = .inl (cells, s1)) :
    let u := s.txTake p j true
    u.txs (p * 64 + j) = s1.txs (p * 64 + j) ++
        [{ pos := nextTxPos s p j, status := some stOk, irq := bitOf (nextTx s p j).ctl 3 }] ∧
      (u.pkt s1.nextPkt).frame = s.hostRead p (nextTx s p j).addr (nextTx s p j).len ∧ (u.pkt s1.nextPkt).cells = cells ∧
      u.nextPkt = s1.nextPkt + 1 ∧ (u.race 0).switch.length = (s1.race 0).switch.length + 1 := by
  let took := tookTx s1 p j (nextTxPos s p j) (nextTx s p j) (some stOk)
  let frame := s.hostRead p (nextTx s p j).addr (nextTx s p j).len
  let sent : Packet := { kind := .hostTx p j, frame := frame, arrived := frame.length, ended := true, cells := cells
                         gen := (took.cell (cells.headD 0)).gen, owner := 4096 + p }
  obtain ⟨-, hraces, -, hnext⟩ := (tookTx_rings s1 p j (nextTxPos s p j) (nextTx s p j) (some stOk)).frame
  have hu : ∃ x, s.txTake p j true = (took.addPkt sent).2.txQueue p (nextTx s p j) x := by
    rw [txTake_of_ready hready, txServed, h, hhb]
    dsimp only
    rw [if_neg (by simp), if_neg (by simp), if_neg (by simp), hgrant]
    exact ⟨_, if_neg (by simp [hinj])⟩
  obtain ⟨x, hu⟩ := hu
  obtain ⟨hhostQ, -, hpktsQ, hnextQ⟩ := txQueue_frame (took.addPkt sent).2 p (nextTx s p j) x
  have hpkt : (s.txTake p j true).pkt s1.nextPkt = sent := by
    rw [hu, pkt_of_pkts hpktsQ, ← hnext]
    exact pkt_addPkt took sent
  have hadd : (took.addPkt sent).2.host = took.host ∧ (took.addPkt sent).2.races = took.races ∧
    (took.addPkt sent).2.nextPkt = took.nextPkt + 1 := ⟨rfl, rfl, rfl⟩
  obtain ⟨hhostA, hracesA, hnextA⟩ := hadd
  refine ⟨?_, congrArg Packet.frame hpkt, congrArg Packet.cells hpkt, ?_, ?_⟩
  · rw [hu, txs_of_host (hhostQ.trans hhostA), txs_tookTx]
  · rw [hu, hnextQ, hnextA, hnext]
  · rw [hu, switch_txQueue, race_of_races (hracesA.trans hraces)]

end

theorem txDescriptor_takes {part : Part} {ring : Fin 64} {s : State} (h : s.txHeld part.val ring.val = false) :
    exec (.txDescriptor part ring) s = .next (s.txTake part.val ring.val false) :=
  if_neg (Bool.eq_false_iff.1 h)

/-- The ring that has waited longest asks again. That it acts whenever it is commanded is the model's choice (log 68). -/
theorem hostTxRetry_takes {part : Part} {j : Nat} {s : State} (hj : j < 64)
    (h : s.host.txWait.find? (fun k => decide (k / 64 = part.val)) = some (part.val * 64 + j)) :
    exec (.hostTxRetry part) s =
      .next ((s.setTxWait (s.host.txWait.erase (part.val * 64 + j))).txTake part.val j false) := by
  have hring : (part.val * 64 + j) % 64 = j := by omega
  change execHostTxRetry part s = _
  unfold execHostTxRetry
  rw [h]
  dsimp only
  rw [hring]

/-! ### Descriptors written back (R473) -/

theorem hostWrite_only (s : State) (p a : Nat) (l : List Byte) :
    OnlyCounters { s with mems := { s.mems with host := setBytes s.mems.host (hostKey p a) l } } (s.hostWrite p a l) :=
  occur_only _ 105 _ _ (by decide)

theorem hostRead_hostWrite (s : State) (p a : Nat) (l : List Byte) : (s.hostWrite p a l).hostRead p a l.length = l := by
  unfold State.hostRead
  rw [mems_of_onlyCounters (hostWrite_only s p a l)]
  exact getBytes_setBytes l _ _

theorem irq_cnt (s : State) (p src : Nat) : (s.irq p src).cnt = s.cnt := by
  unfold State.irq
  dsimp only
  split <;> rfl

theorem irq_host (s : State) (p src : Nat) : (s.irq p src).host = s.host := by
  unfold State.irq
  dsimp only
  split <;> rfl

/-- The status that a taken descriptor may be written back with: its own, or OK once its buffers have been read. -/
def txStatus (s : State) (key : Nat) (x : TxSlot) : Option Nat :=
  if (x.status.isNone && (s.host.txDone.contains (key, x.pos) &&
      !s.liveDescs.any (fun d => decide (d.hostTx = some (key, x.pos))))) = true then some stOk else x.status

/-- The oldest taken descriptor `x` of transmit ring `j` is written back with status `st`. -/
def wroteTx (s : State) (p j st : Nat) (x : TxSlot) (l : List TxSlot) : State :=
  let a := aHstTxq p j
  let key := p * 64 + j
  let w := s.hostWrite p (s.dmaAddr a x.pos + 0x1C) [BitVec.ofNat 8 st, 0x80]
  let w := (w.setTxs key l).setRegN (a + 16) ((w.dmaHead a + 1) % 65536)
  { w with host := { w.host with txDone := w.host.txDone.filter (· ≠ (key, x.pos)) } }

theorem txs_wroteTx (s : State) (p j st : Nat) (x : TxSlot) (l : List TxSlot) : (wroteTx s p j st x l).txs (p * 64 + j) = l :=
  txs_setTxs_self _ _ _

theorem hostRead_wroteTx (s : State) (p j st : Nat) (x : TxSlot) (l : List TxSlot) :
    (wroteTx s p j st x l).hostRead p (s.dmaAddr (aHstTxq p j) x.pos + 0x1C) 2 = [BitVec.ofNat 8 st, 0x80] :=
  hostRead_hostWrite s p _ [BitVec.ofNat 8 st, 0x80]

/-- HEAD moves on by one. -/
theorem dmaHead_wroteTx (s : State) (p j st : Nat) (x : TxSlot) (l : List TxSlot) :
    (wroteTx s p j st x l).dmaHead (aHstTxq p j) = (s.dmaHead (aHstTxq p j) + 1) % 65536 := by
  have hovf : NotOvf (aHstTxq p j + 16) := fun u hu => by unfold aHstTxq aCntOvf; omega
  have hhead : (s.hostWrite p (s.dmaAddr (aHstTxq p j) x.pos + 0x1C) [BitVec.ofNat 8 st, 0x80]).dmaHead (aHstTxq p j) =
      s.dmaHead (aHstTxq p j) := congrArg BitVec.toNat ((hostWrite_only _ _ _ _).2 _ hovf)
  refine (regN_setRegN _ _ _ _).trans ((if_pos rfl).trans ?_)
  refine Eq.trans ?_ (congrArg (fun n => (n + 1) % 65536) hhead)
  exact Nat.mod_eq_of_lt ((Nat.mod_lt _ (by decide)).trans (by decide))

/-- No event of the host's DMA counts a descriptor as sent. -/
theorem count_wroteTx (s : State) (p j st : Nat) (x : TxSlot) (l : List TxSlot) :
    (wroteTx s p j st x l).count (aHstPcnt p 4) = s.count (aHstPcnt p 4) :=
  count_occur_ne _ _ _ fun i hi => by unfold aHstPcnt aCntVal; omega

section
variable {part : Part} {ring : Fin 64} {s : State} {x : TxSlot} {l : List TxSlot}
  (hl : s.txs (part.val * 64 + ring.val) = x :: l) (hd : s.doorOk part.val = true)
include hl hd

theorem txWriteback_writes {st : Nat} (hst : txStatus s (part.val * 64 + ring.val) x = some st) :
    let w := wroteTx s part.val ring.val st x l
    let w := if st = stOk then w.bump (aHstPcnt part.val 4) 1 else w
    exec (.txWriteback part ring) s = .next (if x.irq then w.irq part.val (68 + ring.val) else w) := by
  change execTxWriteback part ring s = _
  unfold execTxWriteback
  dsimp only
  rw [hl]
  dsimp only
  unfold txStatus at hst
  rw [hst]
  exact if_neg (by simp [hd])

/-- A refused descriptor leaves the ring with its status, and counts as none sent. -/
theorem txWriteback_rejects (hst : x.status = some stReject) :
    ∃ u, exec (.txWriteback part ring) s = .next u ∧ u.txs (part.val * 64 + ring.val) = l ∧
      u.dmaHead (aHstTxq part.val ring.val) = (s.dmaHead (aHstTxq part.val ring.val) + 1) % 65536 ∧
      u.hostRead part.val (s.dmaAddr (aHstTxq part.val ring.val) x.pos + 0x1C) 2 = [BitVec.ofNat 8 stReject, 0x80] ∧
      u.count (aHstPcnt part.val 4) = s.count (aHstPcnt part.val 4) := by
  have hstatus : txStatus s (part.val * 64 + ring.val) x = some stReject := by simp [txStatus, hst]
  have htxs := txs_wroteTx s part.val ring.val stReject x l
  have hhead := dmaHead_wroteTx s part.val ring.val stReject x l
  have hread := hostRead_wroteTx s part.val ring.val stReject x l
  have hcount := count_wroteTx s part.val ring.val stReject x l
  refine ⟨_, txWriteback_writes hl hd hstatus, ?_⟩
  rw [if_neg (show ¬stReject = stOk by decide)]
  split
  · refine ⟨(txs_of_host (irq_host _ _ _) _).trans htxs, ?_, ?_, ?_⟩
    · exact (regN_irq_ne (by unfold aHstTxq aHstIpend; omega)).trans hhead
    · unfold State.hostRead at hread ⊢
      rw [irq_mems, hread]
    · unfold State.count at hcount ⊢
      rw [irq_cnt, hcount]
  · exact ⟨htxs, hhead, hread, hcount⟩

end

/-! ### Packets for a receive ring (R471) -/

/-- May the endpoint write to a receive ring: is it served, on, and holds it a free descriptor? -/
def rxReady (s : State) (p j : Nat) : Prop :=
  s.doorOk p = true ∧ s.dmaOn (aHstRxq p j) = true ∧ s.dmaTail (aHstRxq p j) ≠ s.dmaHead (aHstRxq p j)

theorem not_rxReady_iff {s : State} {p j : Nat} : ¬rxReady s p j ↔ (!s.doorOk p) = true ∨
    (!s.dmaOn (aHstRxq p j)) = true ∨ s.dmaTail (aHstRxq p j) = s.dmaHead (aHstRxq p j) := by
  simp only [rxReady, not_and_or, Bool.not_eq_true, Bool.not_eq_true', ne_eq, not_not]

/-- The next receive descriptor has been taken. -/
def rxTaken (s : State) (p j : Nat) (y : RxItem) : State :=
  ((s.takeRx y).setRegN (aHstRxq p j + 16) ((s.dmaHead (aHstRxq p j) + 1) % 65536)).dmaRead 32

/-- The next receive descriptor completes: without a frame where its buffer is malformed, else with as much of the frame as
the buffer takes. -/
def rxWritten (s : State) (p j : Nat) (y : RxItem) : State :=
  let at_ := s.dmaAddr (aHstRxq p j) (s.dmaHead (aHstRxq p j))
  let addr := s.hostLe p at_ 8
  let size := s.hostLe p (at_ + 8) 2
  let t := rxTaken s p j y
  if addr % 64 ≠ 0 ∨ size < 64 ∨ 16384 < size ∨ size % 64 ≠ 0 then
    (t.hostWrite p (at_ + 0x10) (s.rxBack y 0 2)).bump (aHstPcnt p 7) 1
  else
    let u := (t.hostWrite p addr (y.frame.take size)).hostWrite p (at_ + 0x10)
      (s.rxBack y y.frame.length (natBool (decide (size < y.frame.length))))
    if size < y.frame.length then u.bump (aHstPcnt p 3) 1 else u

section
variable {part : Part} {ring : Fin 64} {s : State} {y : RxItem}
  (hfind : s.rx.find? (fun z => z.part = part.val && z.ring = ring.val) = some y)
  (hruns : s.runs = true ∨ s.top.mode = .safe)
include hfind hruns

theorem rxPacketWrite_serves :
    exec (.rxPacketWrite part ring) s =
      if (s.pkt y.pkt).bad then .next ((s.takeRx y).rxLeave y)
      else if (!s.doorOk part.val) = true ∨ (!s.dmaOn (aHstRxq part.val ring.val)) = true ∨
          s.dmaTail (aHstRxq part.val ring.val) = s.dmaHead (aHstRxq part.val ring.val) then
        .next (((s.takeRx y).bump (aHstPcnt part.val 2) 1).rxLeave y)
      else if !((s.pkt y.pkt).ended && (s.pkt y.pkt).want = 0) then .next s
      else .next (((rxWritten s part.val ring.val y).rxLeave y).irq part.val (4 + ring.val)) := by
  change execRxPacketWrite part ring s = _
  unfold execRxPacketWrite
  dsimp only
  rw [hfind]
  exact if_neg (by rcases hruns with h | h <;> simp [h])

theorem rxPacketWrite_bad (hbad : (s.pkt y.pkt).bad = true) :
    exec (.rxPacketWrite part ring) s = .next ((s.takeRx y).rxLeave y) := by
  rw [rxPacketWrite_serves hfind hruns, if_pos hbad]

variable (hgood : (s.pkt y.pkt).bad = false)
include hgood

theorem rxPacketWrite_dropped (hnone : ¬rxReady s part.val ring.val) :
    exec (.rxPacketWrite part ring) s = .next (((s.takeRx y).bump (aHstPcnt part.val 2) 1).rxLeave y) := by
  rw [rxPacketWrite_serves hfind hruns, if_neg (Bool.eq_false_iff.1 hgood), if_pos (not_rxReady_iff.1 hnone)]

theorem rxPacketWrite_written (hready : rxReady s part.val ring.val) (hended : (s.pkt y.pkt).ended = true)
    (hwant : (s.pkt y.pkt).want = 0) :
    exec (.rxPacketWrite part ring) s =
      .next (((rxWritten s part.val ring.val y).rxLeave y).irq part.val (4 + ring.val)) := by
  rw [rxPacketWrite_serves hfind hruns, if_neg (Bool.eq_false_iff.1 hgood), if_neg fun h => not_rxReady_iff.2 h hready,
    if_neg (by simp [hended, hwant])]

end

section
variable {s : State} {p j addr size : Nat} {y : RxItem}
  (haddr : s.hostLe p (s.dmaAddr (aHstRxq p j) (s.dmaHead (aHstRxq p j))) 8 = addr)
  (hsize : s.hostLe p (s.dmaAddr (aHstRxq p j) (s.dmaHead (aHstRxq p j)) + 8) 2 = size)
include haddr hsize

theorem rxWritten_malformed (h : ¬(addr % 64 = 0 ∧ 64 ≤ size ∧ size ≤ 16384 ∧ size % 64 = 0)) :
    rxWritten s p j y = ((rxTaken s p j y).hostWrite p (s.dmaAddr (aHstRxq p j) (s.dmaHead (aHstRxq p j)) + 0x10)
      (s.rxBack y 0 2)).bump (aHstPcnt p 7) 1 := by
  unfold rxWritten
  dsimp only
  rw [haddr, hsize, if_pos (by omega)]

variable (h : addr % 64 = 0 ∧ 64 ≤ size ∧ size ≤ 16384 ∧ size % 64 = 0)
include h

theorem rxWritten_whole (hlen : y.frame.length ≤ size) :
    rxWritten s p j y = ((rxTaken s p j y).hostWrite p addr y.frame).hostWrite p
      (s.dmaAddr (aHstRxq p j) (s.dmaHead (aHstRxq p j)) + 0x10) (s.rxBack y y.frame.length 0) := by
  unfold rxWritten
  dsimp only
  rw [haddr, hsize, if_neg (by omega), if_neg (Nat.not_lt.2 hlen), List.take_of_length_le hlen,
    decide_eq_false (Nat.not_lt.2 hlen)]
  rfl

theorem rxWritten_cut (hlen : size < y.frame.length) :
    rxWritten s p j y = (((rxTaken s p j y).hostWrite p addr (y.frame.take size)).hostWrite p
      (s.dmaAddr (aHstRxq p j) (s.dmaHead (aHstRxq p j)) + 0x10) (s.rxBack y y.frame.length 1)).bump (aHstPcnt p 3) 1 := by
  unfold rxWritten
  dsimp only
  rw [haddr, hsize, if_neg (by omega), if_pos hlen, decide_eq_true hlen]
  rfl

end

/-- Settles O46. A ring that is served takes the doorbells that fit; the next transmit descriptor is taken as `txServed`
says (`txTake_of_ready`), the oldest taken one is written back (`txWriteback_writes`), and a receive descriptor as
`rxWritten` says. A retry whenever it is commanded, and BADCMD for unknown heads at the doorbell, are the model's choices
(log 68). -/
theorem ringsAreServedInOrder : Obligations.RingsAreServedInOrder := by
  intro part ring q v cells x l y s s1 p i n a b key pos d
  have congrNext {u w : State} (h : u = w) : (Host.Outcome.next u : Host.Outcome State Fault Refusal) = .next w := congrArg _ h
  refine ⟨fun hd hon => ⟨fun h => congrNext (piDoor_taken hd hon h), fun h => congrNext (piDoor_ignored hd hon h),
      fun h => congrNext (chDoor_taken hd hon h), fun h => congrNext (chDoor_ignored hd hon h)⟩,
    fun hd hon => ⟨fun h => congrNext (tailDoor_taken hd hon h), fun h => congrNext (tailDoor_ignored hd hon h)⟩,
    fun hd hon => ⟨fun h => congrNext (tailDoor_taken hd hon h), fun h => congrNext (tailDoor_ignored hd hon h)⟩,
    fun hready => ⟨txDescriptor_takes, fun hfree href => ?_, fun hfree href hform => ?_, fun hfree href hhb hinj => ?_,
      fun href hhb hinj hgrant => txTake_copies hready href hhb hinj hgrant, fun hwait href => ?_⟩,
    hostTxRetry_takes q.isLt, fun st hl hst hd => txWriteback_writes hl hd hst,
    fun hl hst hd _ => txWriteback_rejects hl hd hst, ?_⟩
  · obtain ⟨htxs, -, hmems, hraces, hpkts⟩ := txTake_rejected hready false href
    exact ⟨_, txDescriptor_takes hfree, htxs, hmems, hraces, hpkts⟩
  · exact (txDescriptor_takes hfree).trans (congrNext (txTake_asks hready href hform))
  · exact ⟨_, txDescriptor_takes hfree, txTake_queues hready href false hhb hinj⟩
  · obtain ⟨htxs, hwaits, -, -, hpkts⟩ :=
      txTake_rejected (s := s.setTxWait (s.host.txWait.erase key)) (p := p) (j := q.val) hready false href
    exact ⟨_, hostTxRetry_takes q.isLt hwait, hwaits, htxs, hpkts⟩
  · intro k t ready hfind hruns
    refine ⟨rxPacketWrite_bad hfind hruns, rxPacketWrite_dropped hfind hruns, fun hgood hready hended hwant => ?_⟩
    intro at_ addr size len t2 fits
    have hexec := rxPacketWrite_written hfind hruns hgood hready hended hwant
    refine ⟨fun hbad => ?_, fun hfits hlen => ?_, fun hfits hlen => ?_⟩
    · rw [hexec, rxWritten_malformed rfl rfl hbad]
      rfl
    · rw [hexec, rxWritten_whole rfl rfl hfits hlen]
      rfl
    · rw [hexec, rxWritten_cut rfl rfl hfits hlen]
      rfl

end Sys2Proof.Proofs

/-! PROOF. Ports and their gates: what a port does when its line is idle, how a frame's transmission ends (R365, R368, R411,
R414), the gate lists and the pauses of priority flow control (R374, R377, R378, R415). -/

namespace Sys2Proof.Proofs

open Sys2Proof Sys2Proof.Machine Sys2Proof.Laws

/-! ### What stays off the lines -/

/-- From `s` to `t` no port, no frame that has left, no packet and no memory has changed. -/
structure OffLines (s t : State) : Prop where
  ports : t.eg.ports = s.eg.ports
  sent : t.eg.sent = s.eg.sent
  pkts : t.pkts = s.pkts
  mems : t.mems = s.mems

theorem offLines_refl (s : State) : OffLines s s := ⟨rfl, rfl, rfl, rfl⟩

theorem OffLines.after {s t u : State} (h2 : OffLines t u) (h1 : OffLines s t) : OffLines s u :=
  ⟨h2.ports.trans h1.ports, h2.sent.trans h1.sent, h2.pkts.trans h1.pkts, h2.mems.trans h1.mems⟩

theorem OffLines.portS {s t : State} (h : OffLines s t) (n : Nat) : t.portS n = s.portS n :=
  congrArg (mget dPortS · n) h.ports

theorem offLines_foldl {α : Type} {f : State → α → State} (hf : ∀ s x, OffLines s (f s x)) (l : List α) (s : State) :
    OffLines s (l.foldl f s) :=
  List.foldlRecOn (motive := OffLines s) l f (offLines_refl s) fun t ht x _ => (hf t x).after ht

theorem offLines_ite {s t u : State} {p : Prop} [Decidable p] (h1 : OffLines s t) (h2 : OffLines s u) :
    OffLines s (if p then t else u) := by
  split
  · exact h1
  · exact h2

theorem offLines_of_onlySignals {s t : State} (h : OnlySignals s t) : OffLines s t := by
  rw [h]
  exact ⟨rfl, rfl, rfl, rfl⟩

theorem bump_offLines (s : State) (a n : Nat) : OffLines s (s.bump a n) := offLines_of_onlySignals (bump_signals s a n)

theorem setQueue_offLines (s : State) (q : Nat) (x : Queue) : OffLines s (s.setQueue q x) := ⟨rfl, rfl, rfl, rfl⟩

theorem setDeficit_offLines (s : State) (i v : Nat) : OffLines s (s.setDeficit i v) := ⟨rfl, rfl, rfl, rfl⟩

/-- Credits stand in the queues. -/
theorem settleCbs_offLines (s : State) (n : Nat) : OffLines s (s.settleCbs n) :=
  offLines_foldl (fun t _ => offLines_ite (setQueue_offLines t _ _) (offLines_refl t)) _ s

theorem gateEvent_offLines (s : State) (n q : Nat) : OffLines s (s.gateEvent n q) := by
  have hdue (t : State) (code kind i : Nat) : OffLines t (t.dueC code kind i) := ⟨rfl, rfl, rfl, rfl⟩
  exact (hdue _ _ _ _).after ((offLines_of_onlySignals (safety_signals _ _ _ _ _)).after (bump_offLines s _ _))

theorem freePage_offLines (s : State) (k : Nat) : OffLines s (s.freePage k) :=
  offLines_ite ⟨rfl, rfl, rfl, rfl⟩ (offLines_ite ⟨rfl, rfl, rfl, rfl⟩ ⟨rfl, rfl, rfl, rfl⟩)

theorem pieceRead_offLines (s : State) (q k : Nat) : OffLines s (s.pieceRead q k) := by
  have hread (y : CellSt) : OffLines s (s.setPage k y) := ⟨rfl, rfl, rfl, rfl⟩
  unfold State.pieceRead
  refine offLines_ite ((freePage_offLines _ k).after ?_) (hread _)
  split
  · exact offLines_ite ((setQueue_offLines _ _ _).after (hread _)) (hread _)
  · exact hread _

/-- A copy's cells or pages go back through the Hopper. -/
theorem letGo_offLines (s : State) (d : Desc) : OffLines s (s.letGo d) :=
  offLines_ite (offLines_foldl (fun t k => pieceRead_offLines t d.queue k) _ s)
    (offLines_ite (offLines_refl s) ⟨rfl, rfl, rfl, rfl⟩)

theorem hostRead_offLines (s : State) (d : Desc) : OffLines s (s.hostRead_ d) := by
  unfold State.hostRead_
  split
  · exact ⟨rfl, rfl, rfl, rfl⟩
  · exact offLines_refl s

theorem tsqPost_offLines (s : State) (p : Nat) (e : TsqEntry) : OffLines s (s.tsqPost p e) :=
  offLines_ite
    (offLines_ite ((offLines_of_onlySignals (irq_signals _ p 134)).after ⟨rfl, rfl, rfl, rfl⟩) ⟨rfl, rfl, rfl, rfl⟩)
    ((offLines_of_onlySignals (setRegN_signals _ _ _)).after (bump_offLines s _ _))

theorem dropCopy_offLines (s : State) (d : Desc) (port : Nat) : OffLines s (s.dropCopy d port) := by
  have hgone := (hostRead_offLines _ d).after (letGo_offLines s d)
  unfold State.dropCopy
  dsimp only
  split
  · exact (tsqPost_offLines _ _ _).after hgone
  · exact hgone

/-- A queue that has emptied loses deficits only. -/
theorem emptied_offLines (s : State) (q : Nat) : OffLines s (s.emptied q) := by
  have off (p : Prop) [Decidable p] (t : State) (i : Nat) : OffLines t (if p then t else t.setDeficit i 0) :=
    offLines_ite (offLines_refl t) (setDeficit_offLines t i 0)
  unfold State.emptied
  refine offLines_ite (offLines_refl s) (offLines_ite ?_ (setDeficit_offLines s _ 0))
  exact (off _ _ _).after ((off _ _ _).after ((off _ _ _).after (setDeficit_offLines s _ 0)))

/-- From `s` to `t` nothing has changed but ports, queues and counters. -/
def OnlyEgress (s t : State) : Prop := t = { s with eg := t.eg, cnt := t.cnt, regs := t.regs }

theorem OnlyEgress.after {s t u : State} (h2 : OnlyEgress t u) (h1 : OnlyEgress s t) : OnlyEgress s u := by
  unfold OnlyEgress at *
  rw [h2, h1]

theorem bump_egress (s : State) (a n : Nat) : OnlyEgress s (s.bump a n) := by
  unfold OnlyEgress
  rw [(bump_only s a n).1]

theorem setPortS_egress (s : State) (n : Nat) (x : PortS) : OnlyEgress s (s.setPortS n x) := rfl

theorem settleCbs_egress (s : State) (n : Nat) : OnlyEgress s (s.settleCbs n) :=
  List.foldlRecOn (motive := OnlyEgress s) _ _ rfl fun t ht c _ => by
    refine OnlyEgress.after (t := t) ?_ ht
    dsimp only
    split <;> rfl

theorem lateEnd_of_egress {s u : State} (h : OnlyEgress s u) (t : Tx) : u.lateEnd t = s.lateEnd t := by
  rw [h]
  rfl

theorem portS_setPortS_ne (s : State) (x : PortS) {n m : Nat} (h : m ≠ n) : (s.setPortS n x).portS m = s.portS m :=
  mget_mset_ne _ _ _ h

/-! ### Selecting at a port (R19, R366 to R377, R414) -/

/-- What a port that runs decides on: the tier's selection stands, and the credits are those of now. -/
def selecting (s : State) (n : Nat) : State := (s.settleCbs n).tierKeeps n

/-- The pause frames that a port may send now. -/
def pausesNow (z : State) (n : Nat) : List (Nat × Nat) := if z.passing n then z.pausesDue n else []

/-- Is a preemptable frame under way to give up the line? -/
def mustCut (z : State) (n : Nat) (t : Tx) : Prop :=
  (z.portS n).preempts = true ∧ t.express = false ∧ (pausesNow z n ≠ [] ∨ (z.pickPort n true).isSome = true)

theorem mustCut_iff (z : State) (n : Nat) (t : Tx) : mustCut z n t ↔
    ((z.portS n).preempts && !t.express && (pausesNow z n ≠ [] || (z.pickPort n true).isSome)) = true := by
  simp [mustCut, and_assoc]

section
variable {port : PortId} {s : State}

theorem portSelect_stopped (h : s.tailRuns port.val = false) : exec (.portSelect port) s = .next (s.finish port.val) :=
  if_pos (by rw [h]; rfl)

variable (hruns : s.tailRuns port.val = true)
include hruns

section
variable {t : Tx} (htx : ((selecting s port.val).portS port.val).tx = some t)
include htx

theorem portSelect_sending : exec (.portSelect port) s =
    if ((selecting s port.val).portS port.val).preempts && !t.express &&
        (pausesNow (selecting s port.val) port.val ≠ [] || ((selecting s port.val).pickPort port.val true).isSome) then
      .next ((selecting s port.val).preempt port.val t)
    else .next (selecting s port.val) := by
  change execPortSelect port s = _
  unfold execPortSelect
  dsimp only
  unfold selecting at htx ⊢
  rw [if_neg (by simp [hruns]), htx]
  rfl

theorem portSelect_cuts (h : mustCut (selecting s port.val) port.val t) :
    exec (.portSelect port) s = .next ((selecting s port.val).preempt port.val t) :=
  (portSelect_sending hruns htx).trans (if_pos ((mustCut_iff _ _ _).1 h))

theorem portSelect_goes_on (h : ¬mustCut (selecting s port.val) port.val t) :
    exec (.portSelect port) s = .next (selecting s port.val) :=
  (portSelect_sending hruns htx).trans (if_neg fun hcut => h ((mustCut_iff _ _ _).2 hcut))

end

section
variable (hidle : ((selecting s port.val).portS port.val).tx = none)
  (hfree : ((selecting s port.val).portS port.val).busy ≤ (selecting s port.val).clk.gtc)
include hidle hfree

theorem portSelect_idle : exec (.portSelect port) s =
    let z := selecting s port.val
    if pausesNow z port.val ≠ [] then .next (z.sendPause port.val (pausesNow z port.val))
    else
      match (z.portS port.val).sel with
      | some q =>
        if z.selGoes port.val q then .next (z.trySend port.val q)
        else .next ((z.setPortS port.val { z.portS port.val with sel := none }).choose port.val)
      | none => .next (z.choose port.val) := by
  change execPortSelect port s = _
  unfold execPortSelect
  dsimp only
  unfold selecting at hidle hfree ⊢
  rw [if_neg (by simp [hruns]), hidle]
  exact if_neg (Nat.not_lt.2 hfree)

theorem portSelect_pauses (hdue : pausesNow (selecting s port.val) port.val ≠ []) : exec (.portSelect port) s =
    .next ((selecting s port.val).sendPause port.val (pausesNow (selecting s port.val) port.val)) :=
  (portSelect_idle hruns hidle hfree).trans (if_pos hdue)

variable (hnone : pausesNow (selecting s port.val) port.val = [])
include hnone

theorem portSelect_chooses (hsel : ((selecting s port.val).portS port.val).sel = none) :
    exec (.portSelect port) s = .next ((selecting s port.val).choose port.val) := by
  rw [portSelect_idle hruns hidle hfree]
  dsimp only
  rw [if_neg (not_not.2 hnone), hsel]

variable {q : Nat} (hsel : ((selecting s port.val).portS port.val).sel = some q)
include hsel

theorem portSelect_selected : exec (.portSelect port) s =
    let z := selecting s port.val
    if z.selGoes port.val q then .next (z.trySend port.val q)
    else .next ((z.setPortS port.val { z.portS port.val with sel := none }).choose port.val) := by
  rw [portSelect_idle hruns hidle hfree]
  dsimp only
  rw [if_neg (not_not.2 hnone), hsel]

end

end

/-! ### The end of a transmission (R338, R411, R427) -/

/-- The frame of `t` is counted and leaves port `n`; `bad` says that its FCS is inverted, `own` that its cells were still
its owner's. That an inverted one counts too, and a last fragment for itself, is the model's choice (log 50). -/
def frameLeaves (s : State) (n : Nat) (t : Tx) (bad own : Bool) : State :=
  let v := (s.settleCbs n).setPortS n { s.portS n with tx := none }
  let v := (v.bump (aPortCnt n 8) 1).bump (aPortCnt n 9) t.len
  let v := if bad then v.bump (aPortCnt n 11) 1 else v
  let v := if t.sent = 0 then v else v.bump (aPortCnt n 14) 1
  let v := if own then v else v.ownFault n t.d
  let v := if v.lateEnd t then v.gateEvent n t.d.queue else v
  v.sendOut { port := n, frame := t.frame, ok := !bad }

/-- A two-step request of the frame is answered with its stamp (R429). -/
def stampAnswered (v : State) (n : Nat) (t : Tx) : State :=
  match t.d.twoStep with
  | some id => v.tsqPost t.d.part { id := id, port := n, secs := t.stampS, ns := t.stampNs }
  | none => v

/-- Does the frame leave with an inverted FCS (R341, R653)? -/
def sentBad (s : State) (t : Tx) : Bool :=
  t.crcBad || !s.allReadsOk t.d || (t.d.pages = [] && t.d.hostBufs = [] && (s.pkt t.d.pkt).bad)

/-- A frame of one piece that meets no fault and no late close is counted, and leaves. -/
theorem frameLeaves_plain (s : State) (n : Nat) {t : Tx} (hsent : t.sent = 0) (hlate : s.lateEnd t = false) :
    ∃ v, OffLines ((s.settleCbs n).setPortS n { s.portS n with tx := none }) v ∧
      frameLeaves s n t false true = v.sendOut { port := n, frame := t.frame, ok := true } := by
  let v := (s.settleCbs n).setPortS n { s.portS n with tx := none }
  refine ⟨(v.bump (aPortCnt n 8) 1).bump (aPortCnt n 9) t.len, (bump_offLines _ _ _).after (bump_offLines _ _ _), ?_⟩
  have hcounted : OnlyEgress s ((v.bump (aPortCnt n 8) 1).bump (aPortCnt n 9) t.len) :=
    (bump_egress _ _ _).after ((bump_egress _ _ _).after ((setPortS_egress _ _ _).after (settleCbs_egress s n)))
  have hstill := (lateEnd_of_egress hcounted t).trans hlate
  unfold frameLeaves
  dsimp only
  rw [if_neg Bool.false_ne_true, if_pos hsent, if_pos rfl, if_neg (Bool.eq_false_iff.1 hstill)]
  rfl

/-- What is done once the frame has left concerns no line. -/
theorem frameLeft_offLines (v : State) (n : Nat) (t : Tx) :
    OffLines v (((stampAnswered v n t).letGo t.d).hostRead_ t.d) := by
  refine (hostRead_offLines _ _).after ((letGo_offLines _ _).after ?_)
  unfold stampAnswered
  split
  · exact tsqPost_offLines _ _ _
  · exact offLines_refl v

section
variable {port : PortId} {s : State} {t : Tx} (htx : (s.portS port.val).tx = some t) (hpiece : t.piece = none)
  (hover : t.until_ ≤ s.clk.gtc) (hwhole : s.whole t.d = true)
include htx hpiece hover hwhole

theorem frameTxDone_ends : exec (.frameTxDone port) s =
    .next (((stampAnswered (frameLeaves s port.val t (sentBad s t) (s.allReadsOk t.d)) port.val t).letGo t.d).hostRead_
      t.d) := by
  change execFrameTxDone port s = _
  unfold execFrameTxDone
  dsimp only
  rw [htx]
  exact if_neg (by simp [hpiece, hover, hwhole])

/-- A frame with nothing amiss leaves its port's line, with a right FCS. -/
theorem frameTxDone_leaves (hown : s.allReadsOk t.d = true) (hbad : sentBad s t = false) (hsent : t.sent = 0)
    (hlate : s.lateEnd t = false) :
    ∃ u, exec (.frameTxDone port) s = .next u ∧ (u.portS port.val).tx = none ∧
      u.eg.sent = s.eg.sent ++ [{ port := port.val, frame := t.frame, ok := true }] ∧ u.pkts = s.pkts ∧ u.mems = s.mems := by
  obtain ⟨v, hv, hleaves⟩ := frameLeaves_plain s port.val hsent hlate
  have hsettled := settleCbs_offLines s port.val
  have hleft := frameLeft_offLines (v.sendOut { port := port.val, frame := t.frame, ok := true }) port.val t
  refine ⟨_, frameTxDone_ends htx hpiece hover hwhole, ?_⟩
  rw [hbad, hown, hleaves]
  refine ⟨?_, ?_, hleft.pkts.trans (hv.pkts.trans hsettled.pkts), hleft.mems.trans (hv.mems.trans hsettled.mems)⟩
  · rw [hleft.portS]
    refine (congrArg PortS.tx (hv.portS port.val)).trans ?_
    rw [portS_setPortS_self]
  · exact hleft.sent.trans (congrArg (· ++ [_]) (hv.sent.trans hsettled.sent))

end

/-- Settles O26: a port selects as its line stands (`portSelect_sending`, `portSelect_idle`), and a transmission that is
over ends as `frameLeaves` says. That PORT_CNT[8] and [9] count frames with an inverted FCS too, and PORT_CNT[14] the last
fragment, is the model's choice (log 50). -/
theorem portsSendTheirFrames : Obligations.PortsSendTheirFrames := by
  intro port q t s n z due
  refine ⟨portSelect_stopped, fun hr htx => ⟨portSelect_cuts hr htx, portSelect_goes_on hr htx⟩,
    fun hr hidle hfree => ⟨portSelect_pauses hr hidle hfree, portSelect_chooses hr hidle hfree, fun hnone hsel =>
      ⟨fun hgoes => ?_, fun hgoes => ?_⟩⟩,
    fun htx hpiece hover hwhole => ?_, fun htx hpiece hover hwhole hown hcrc hbad hsent _ hlate _ => ?_⟩
  · exact (portSelect_selected hr hidle hfree hnone hsel).trans (if_pos hgoes)
  · exact (portSelect_selected hr hidle hfree hnone hsel).trans (if_neg (Bool.eq_false_iff.1 hgoes))
  · exact frameTxDone_ends htx hpiece hover hwhole
  · exact frameTxDone_leaves htx hpiece hover hwhole hown (by simp [sentBad, hcrc, hown, hbad]) hsent hlate

/-! ### What a port keeps in force -/

/-- The operating and the pending list of a port, its gates, and whether its cycles run. -/
def inForce (x : PortS) : GateList × Option GateList × Nat × Bool := (x.op, x.pend, x.gates, x.started)

/-- From `s` to `t` port `n` keeps its lists and gates, and no packet and no memory has changed. -/
structure KeepsGates (n : Nat) (s t : State) : Prop where
  lists : inForce (t.portS n) = inForce (s.portS n)
  pkts : t.pkts = s.pkts
  mems : t.mems = s.mems

theorem keepsGates_refl (n : Nat) (s : State) : KeepsGates n s s := ⟨rfl, rfl, rfl⟩

theorem KeepsGates.after {n : Nat} {s t u : State} (h2 : KeepsGates n t u) (h1 : KeepsGates n s t) : KeepsGates n s u :=
  ⟨h2.lists.trans h1.lists, h2.pkts.trans h1.pkts, h2.mems.trans h1.mems⟩

theorem OffLines.keepsGates {s t : State} (h : OffLines s t) (n : Nat) : KeepsGates n s t :=
  ⟨congrArg inForce (h.portS n), h.pkts, h.mems⟩

theorem keepsGates_ite {n : Nat} {s t u : State} {p : Prop} [Decidable p] (h1 : KeepsGates n s t) (h2 : KeepsGates n s u) :
    KeepsGates n s (if p then t else u) := by
  split
  · exact h1
  · exact h2

theorem setPortS_keepsGates (n : Nat) {m : Nat} {s : State} {x : PortS} (h : inForce x = inForce (s.portS m)) :
    KeepsGates n s (s.setPortS m x) := by
  refine ⟨?_, rfl, rfl⟩
  by_cases hm : n = m
  · rw [hm, portS_setPortS_self, h]
  · rw [portS_setPortS_ne _ _ hm]

section
variable (n : Nat) (s : State)

/-- A fragment's end frees the line. -/
theorem suspend_keepsGates (b : Nat) (t : Tx) : KeepsGates n s (s.suspend n b t) := by
  have hfreed (u : Nat) (rest : Tx) :
      KeepsGates n s ((s.setPortS n { s.portS n with tx := none, susp := some rest, busy := u }).bump (aPortCnt n 14) 1) :=
    ((bump_offLines _ _ 1).keepsGates n).after (setPortS_keepsGates n rfl)
  exact keepsGates_ite (((gateEvent_offLines _ _ _).keepsGates n).after (hfreed _ _)) (hfreed _ _)

theorem preempt_keepsGates (t : Tx) : KeepsGates n s (s.preempt n t) :=
  keepsGates_ite (suspend_keepsGates n s _ t) (keepsGates_refl n s)

theorem closeCut_keepsGates : KeepsGates n s (s.closeCut n) := by
  unfold State.closeCut
  dsimp only
  split
  · split
    · exact keepsGates_ite (keepsGates_refl n s)
        (((bump_offLines _ _ 1).keepsGates n).after (suspend_keepsGates n s _ _))
    · exact keepsGates_refl n s
  · exact keepsGates_refl n s

theorem holdOp_keepsGates (op : Nat) : KeepsGates n s (s.holdOp n op) := by
  have hheld (b : Bool) : KeepsGates n s (s.setPortS n { s.portS n with hold := b }) := setPortS_keepsGates n rfl
  unfold State.holdOp
  refine keepsGates_ite ?_ (keepsGates_ite (hheld false) (keepsGates_refl n s))
  dsimp only
  split
  · exact keepsGates_ite (hheld true) ((preempt_keepsGates n _ _).after (hheld true))
  · exact hheld true

/-- A copy taken from a queue may have been selected at its port. -/
theorem unqueue_keepsGates (q : Nat) (d : Desc) : KeepsGates n s (s.unqueue q d) := by
  have hsettled := settleCbs_offLines s (s.queuePort q)
  have hempty (x : Queue) :=
    (emptied_offLines ((s.settleCbs (s.queuePort q)).setQueue q x) q).after (setQueue_offLines _ q x)
  unfold State.unqueue
  refine (setPortS_keepsGates n ?_).after (((hempty _).after hsettled).keepsGates n)
  refine Eq.trans ?_ (congrArg inForce ((hempty _).portS _)).symm
  rfl

theorem oversizeAt_keepsGates (c i slot q : Nat) : KeepsGates n s (s.oversizeAt n c i slot q) := by
  have hnoted (v : SMap (Option (Nat × Nat))) : KeepsGates n s (s.setPortS n { s.portS n with oversize := v }) :=
    setPortS_keepsGates n rfl
  have hdropped (t : State) (d : Desc) : KeepsGates n t (((t.unqueue q d).bump (aGateOversize n) 1).dropCopy d n) :=
    (((dropCopy_offLines _ _ _).after (bump_offLines _ _ _)).keepsGates n).after (unqueue_keepsGates n t q d)
  unfold State.oversizeAt
  dsimp only
  split
  · exact keepsGates_refl n s
  · exact keepsGates_ite (keepsGates_ite ((hdropped _ _).after (hnoted _)) (hnoted _)) (hnoted _)

/-- The heads that fit no window leave their queues. -/
theorem oversizes_keepsGates (i old : Nat) : KeepsGates n s (s.oversizes n i old) :=
  List.foldlRecOn (motive := KeepsGates n s) _ _ (keepsGates_refl n s) fun t ht c _ => by
    have hdirect := oversizeAt_keepsGates n t c i c (directBase + 8 * n + c)
    refine KeepsGates.after (keepsGates_ite (keepsGates_ite ?_ hdirect) (keepsGates_refl n t)) ht
    split
    · exact (oversizeAt_keepsGates n _ _ _ _ _).after hdirect
    · exact hdirect

/-- Entry `i` of the operating list is in force, and the cycles run. -/
theorem inForce_enterGate (k i : Nat) :
    inForce ((s.enterGate n k i).portS n) =
      ((s.portS n).op, (s.portS n).pend, (s.portS n).op.gatesOf i, true) := by
  have hport := (settleCbs_offLines s n).portS n
  unfold State.enterGate
  dsimp only
  rw [((oversizes_keepsGates n _ _ _).after ((holdOp_keepsGates n _ _).after (closeCut_keepsGates n _))).lists,
    portS_setPortS_self, hport]
  rfl

end

/-! ### Gate lists in time (R374, R377, R378) -/

/-- Cycle and entry that come into force next at a port. -/
def nextEntry (x : PortS) : Nat × Nat :=
  if !x.started then (0, 0) else if x.ent + 1 < x.op.ents.length then (x.cyc, x.ent + 1) else (x.cyc + 1, 0)

/-- The pending list of port `n` is its operating one, from T_change on. -/
def listSwitched (s : State) (n : Nat) (l : GateList) : State :=
  let x := s.portS n
  ((s.settleCbs n).setPortS n
    { x with op := l, pend := none, runAt := x.chg, lastChg := x.chg, cyc := 0, ent := 0, started := false, restart := false
             oversize := [] }).bump (aGateCnt (n / 32) 1) 1

theorem portS_listSwitched (s : State) (n : Nat) (l : GateList) :
    ((listSwitched s n l).portS n).op = l ∧ ((listSwitched s n l).portS n).pend = none := by
  unfold listSwitched
  rw [(bump_offLines _ _ _).portS, portS_setPortS_self]
  exact ⟨rfl, rfl⟩

theorem listSwitched_memories (s : State) (n : Nat) (l : GateList) :
    (listSwitched s n l).pkts = s.pkts ∧ (listSwitched s n l).mems = s.mems := by
  have hcounted (t : State) (a : Nat) := bump_offLines t a 1
  have hsettled := settleCbs_offLines s n
  exact ⟨(hcounted _ _).pkts.trans hsettled.pkts, (hcounted _ _).mems.trans hsettled.mems⟩

section
variable {port : PortId} {l : GateList} {s : State} (hruns : s.runs = true)
include hruns

theorem gateEntryAdvance_enters {k i : Nat} (hen : (s.portS port.val).op.en = true)
    (hnext : nextEntry (s.portS port.val) = (k, i))
    (hdue : (s.portS port.val).runAt + k * (s.portS port.val).op.cycle + (s.portS port.val).op.offset i ≤ s.ptpNs) :
    exec (.gateEntryAdvance port) s = .next (s.enterGate port.val k i) := by
  change execGateEntryAdvance port s = _
  unfold execGateEntryAdvance
  unfold nextEntry at hnext
  dsimp only
  rw [hen, hruns, hnext]
  exact if_pos hdue

variable (hpend : (s.portS port.val).pend = some l) (hchg : (s.portS port.val).chg ≤ s.ptpNs)
include hpend hchg

theorem gateListSwitch_switches : exec (.gateListSwitch port) s =
    if l.en then .next ((listSwitched s port.val l).enterGate port.val 0 0)
    else
      let u := (listSwitched s port.val l).closeCut port.val
      .next (u.setPortS port.val { u.portS port.val with gates := 255, hold := false }) := by
  change execGateListSwitch port s = _
  unfold execGateListSwitch
  dsimp only
  rw [hpend]
  exact if_pos (by simp [hruns, hchg])

/-- A list that is off opens all gates. That it clears Set-And-Hold too is the model's choice (log 52). -/
theorem gateListSwitch_opens (hen : l.en = false) :
    ∃ u, exec (.gateListSwitch port) s = .next u ∧ (u.portS port.val).op = l ∧ (u.portS port.val).pend = none ∧
      (u.portS port.val).gates = 255 ∧ (u.portS port.val).hold = false ∧ u.pkts = s.pkts ∧ u.mems = s.mems := by
  obtain ⟨hop, hnone⟩ := portS_listSwitched s port.val l
  obtain ⟨hpkts, hmems⟩ := listSwitched_memories s port.val l
  have hcut := closeCut_keepsGates port.val (listSwitched s port.val l)
  refine ⟨_, (gateListSwitch_switches hruns hpend hchg).trans (if_neg (Bool.eq_false_iff.1 hen)), ?_⟩
  rw [portS_setPortS_self]
  exact ⟨(congrArg (·.1) hcut.lists).trans hop, (congrArg (·.2.1) hcut.lists).trans hnone, rfl, rfl,
    hcut.pkts.trans hpkts, hcut.mems.trans hmems⟩

/-- Another list comes into force with its entry 0. -/
theorem gateListSwitch_starts (hen : l.en = true) :
    ∃ u, exec (.gateListSwitch port) s = .next u ∧ (u.portS port.val).op = l ∧ (u.portS port.val).pend = none ∧
      (u.portS port.val).gates = l.gatesOf 0 ∧ (u.portS port.val).started = true := by
  obtain ⟨hop, hnone⟩ := portS_listSwitched s port.val l
  have hforce := inForce_enterGate port.val (listSwitched s port.val l) 0 0
  rw [hop, hnone] at hforce
  exact ⟨_, (gateListSwitch_switches hruns hpend hchg).trans (if_pos hen), congrArg (·.1) hforce,
    congrArg (·.2.1) hforce, congrArg (·.2.2.1) hforce, congrArg (·.2.2.2) hforce⟩

end

/-! ### Pauses received and kept up (R414, R415) -/

/-- A fold that writes the keys below `k` that `p` picks. -/
theorem mget_foldl_upTo (p : Nat → Bool) (f : Nat → Nat) (m : SMap Nat) (c k : Nat) :
    mget zeroN ((upTo k).foldl (fun m j => if p j then mset zeroN m j (f j) else m) m) c =
      if c < k ∧ p c = true then f c else mget zeroN m c := by
  induction k with
  | zero => rw [if_neg (by omega)]; rfl
  | succ k ih =>
    have hsplit : upTo (k + 1) = upTo k ++ [k] := List.range_succ
    rw [hsplit, List.foldl_append, List.foldl_cons, List.foldl_nil]
    by_cases hp : p k = true
    · rw [if_pos hp, mget_mset, ih]
      by_cases hc : c = k
      · rw [if_pos hc, if_pos ⟨by omega, hc ▸ hp⟩, hc]
      · rw [if_neg hc]
        exact if_congr (and_congr_left fun _ => by omega) rfl rfl
    · rw [if_neg hp, ih]
      refine if_congr ⟨fun ⟨h, h'⟩ => ⟨by omega, h'⟩, fun ⟨h, h'⟩ => ⟨?_, h'⟩⟩ rfl rfl
      have hc : c ≠ k := fun hc => hp (hc ▸ h')
      omega

section
variable {port : PortId} {c : Fin 8} {s : State}

/-- Of a received frame the classes that the port accepts pause, each to the end of its time rounded up to a count, or
resume. The rounding is the model's. -/
theorem pfcFrameReceived_pauses {mask : Byte} {times : BitVec 128} (hpass : s.passing port.val = true) :
    let n := port.val
    let time := bitsOf times.toNat (16 * c.val) 16
    ∃ u, exec (.pfcFrameReceived port mask times) s = .next u ∧
      mget zeroN (u.portS n).rxPause c.val =
        (if bitOf (mask.toNat &&& s.cfld (aPortMac n) 0 8) c.val then
          (if time = 0 then 0 else s.clk.gtc + (time * 2048 + s.portRate n - 1) / s.portRate n)
         else mget zeroN (s.portS n).rxPause c.val) ∧
      (∀ m, m ≠ n → u.portS m = s.portS m) ∧ u.pkts = s.pkts ∧ u.mems = s.mems := by
  intro n time
  have hoff : OffLines s ((s.settleCbs n).bump (aPortCnt n 5) 1) := (bump_offLines _ _ _).after (settleCbs_offLines s n)
  have honly : OnlyEgress s ((s.settleCbs n).bump (aPortCnt n 5) 1) := (bump_egress _ _ _).after (settleCbs_egress s n)
  refine ⟨_, if_pos hpass, ?_, fun m hm => ?_, hoff.pkts, hoff.mems⟩
  · unfold State.pfcIn
    dsimp only
    rw [portS_setPortS_self, mget_foldl_upTo, hoff.portS, honly]
    refine if_congr ⟨fun h => h.2, fun h => ⟨c.isLt, h⟩⟩ rfl rfl
  · exact (portS_setPortS_ne _ _ hm).trans (hoff.portS m)

theorem pfcPauseExpire_ends (hpaused : mget zeroN (s.portS port.val).rxPause c.val ≠ 0)
    (hover : mget zeroN (s.portS port.val).rxPause c.val ≤ s.clk.gtc) :
    ∃ u, exec (.pfcPauseExpire port c) s = .next u ∧ mget zeroN (u.portS port.val).rxPause c.val = 0 ∧
      (∀ m, m ≠ port.val → u.portS m = s.portS m) ∧ u.pkts = s.pkts ∧ u.mems = s.mems := by
  have hoff := settleCbs_offLines s port.val
  refine ⟨_, if_pos ⟨hpaused, hover⟩, ?_, fun m hm => (portS_setPortS_ne _ _ hm).trans (hoff.portS m), hoff.pkts, hoff.mems⟩
  rw [portS_setPortS_self]
  dsimp only
  rw [mget_mset_self]

theorem pfcRefresh_asks (hkeeps : (s.own (8 * port.val + c.val)).pause = true)
    (hsent : mget zeroN (s.portS port.val).txPause c.val ≠ 0)
    (hhalf : (mget zeroN (s.portS port.val).txPause c.val - 1) * s.portRate port.val +
      s.cfld (aPortMac port.val) 16 16 * 1024 ≤ s.clk.gtc * s.portRate port.val)
    (hnone : s.hop.pauseTx.any (fun e => e.1 = port.val && e.2.1 = c.val) = false) :
    exec (.pfcRefresh port c) s = .next { s with hop := { s.hop with
      pauseTx := s.hop.pauseTx ++ [(port.val, c.val, s.cfld (aPortMac port.val) 16 16)] } } := by
  change execPfcRefresh port c s = _
  unfold execPfcRefresh
  dsimp only
  rw [hkeeps, hnone, decide_eq_true ⟨hsent, hhalf⟩]
  rfl

end

/-- Settles O27: the entry due (`nextEntry`) and a list at its change time come into force, and no drop or cut that
follows moves them (`inForce_enterGate`). That a list with EN = 0 clears Set-And-Hold is the model's choice (log 52), and so
is the rounding of a pause's end up to a count. -/
theorem gatesAndPausesFollowTheirTimes : Obligations.GatesAndPausesFollowTheirTimes := by
  refine ⟨fun port l s hruns => ⟨fun hen hst hlt hdue => ?_, fun hen hst hdue => ?_, fun hen hst hle hdue => ?_,
      gateListSwitch_opens hruns, gateListSwitch_starts hruns⟩,
    fun port mask times c s => ⟨pfcFrameReceived_pauses, pfcPauseExpire_ends, pfcRefresh_asks⟩⟩
  · exact gateEntryAdvance_enters hruns hen (by simp [nextEntry, hst, hlt]) hdue
  · exact gateEntryAdvance_enters hruns hen (by simp [nextEntry, hst]) hdue
  · exact gateEntryAdvance_enters hruns hen (by simp [nextEntry, hst, Nat.not_lt.2 hle]) hdue

end Sys2Proof.Proofs

/-! PROOF. Settings staged and committed: the end of a commit, the commits of blocks, gate lists and ports, and DISCARD
(R378, R410, R477, R478). -/

namespace Sys2Proof.Proofs

open Sys2Proof Sys2Proof.Machine Sys2Proof.Laws

/-! ### What leaves settings as they are -/

/-- From `s` to `t` no committed word and no register but overflow bits has changed. -/
def KeepsSettings (s t : State) : Prop := t.committed = s.committed ∧ ∀ a, NotOvf a → t.regN a = s.regN a

theorem keepsSettings_refl (s : State) : KeepsSettings s s := ⟨rfl, fun _ _ => rfl⟩

theorem KeepsSettings.after {s t u : State} (h2 : KeepsSettings t u) (h1 : KeepsSettings s t) : KeepsSettings s u :=
  ⟨h2.1.trans h1.1, fun a ha => (h2.2 a ha).trans (h1.2 a ha)⟩

theorem keepsSettings_foldl {α : Type} {f : State → α → State} (hf : ∀ s x, KeepsSettings s (f s x)) (l : List α)
    (s : State) : KeepsSettings s (l.foldl f s) :=
  List.foldlRecOn (motive := KeepsSettings s) l f (keepsSettings_refl s) fun t ht x _ => (hf t x).after ht

theorem keepsSettings_ite {s t u : State} {p : Prop} [Decidable p] (h1 : KeepsSettings s t) (h2 : KeepsSettings s u) :
    KeepsSettings s (if p then t else u) := by
  split
  · exact h1
  · exact h2

theorem bump_keepsSettings (s : State) (a n : Nat) : KeepsSettings s (s.bump a n) :=
  ⟨bump_committed s a n, fun _ => regN_bump a n⟩

theorem setRace_keepsSettings (s : State) (r : Nat) (x : Race) : KeepsSettings s (s.setRace r x) := ⟨rfl, fun _ _ => rfl⟩

theorem pauses_keepsSettings (s : State) (r : Nat) : KeepsSettings s (s.pauses r) := by
  have count (p : Bool) (t : State) (a : Nat) : KeepsSettings t (if p then t.bump a 1 else t) :=
    keepsSettings_ite (bump_keepsSettings t a 1) (keepsSettings_refl t)
  exact (count _ _ _).after ((count _ _ _).after ((count _ _ _).after (setRace_keepsSettings s r _)))

theorem pauseEnds_keepsSettings (s : State) : KeepsSettings s s.pauseEnds := by
  have hend (t : State) (o : Nat) : KeepsSettings t (t.pauseEnd o) :=
    keepsSettings_ite ⟨rfl, fun _ _ => rfl⟩ (keepsSettings_refl t)
  exact keepsSettings_foldl (fun (t : State) (e : Nat × OwnerUse) => hend t e.1) _ s

theorem eventAny_keepsSettings (s : State) (src code : Nat) : KeepsSettings s (s.eventAny src code) := by
  refine ⟨?_, fun a ha => regN_event s.useFree src code _ ha⟩
  rw [eventAny_signals]
  rfl

theorem timerGone_keepsSettings (s : State) (r : Nat) (d : Delayed) : KeepsSettings s (s.timerGone r d) := by
  have hout (t : State) (v w : Nat) : KeepsSettings t (t.verOut v w) :=
    keepsSettings_ite ⟨rfl, fun _ _ => rfl⟩ ⟨rfl, fun _ _ => rfl⟩
  have hwithdrawn (f : ReqFor → Bool) : KeepsSettings s (s.withdraw f) := ⟨rfl, fun _ _ => rfl⟩
  unfold State.timerGone
  split
  · dsimp only
    split
    · exact keepsSettings_ite (hwithdrawn _) ((hout _ _ _).after (hwithdrawn _))
    · exact hwithdrawn _
  · exact keepsSettings_refl s

/-- Keepalive timers stand in the races' lists. -/
theorem timersFollow_keepsSettings (s old : State) : KeepsSettings s (s.timersFollow old) :=
  keepsSettings_foldl (fun t r => (keepsSettings_foldl (fun u _ => setRace_keepsSettings u r _) _ _).after
    ((setRace_keepsSettings _ r _).after (keepsSettings_foldl (fun u d => timerGone_keepsSettings u r d) _ t))) _ s

/-! ### The end of a commit (R477) -/

/-- The status word of the COMMIT register at `a`. -/
theorem regN_commitEnd (s : State) (a st c : Nat) : (s.commitEnd a st).regN c =
    if c = a + 4 then ((s.fld (a + 4) 8 16 + 1) % 65536 * 256 + st) % 2 ^ 32 else s.regN c :=
  regN_setRegN s (a + 4) c _

/-- STATUS is the code given, and SEQ has risen. -/
theorem fld_commitEnd (s : State) (a : Nat) {st : Nat} (h : st < 256) :
    (s.commitEnd a st).fld (a + 4) 0 8 = st ∧
      (s.commitEnd a st).fld (a + 4) 8 16 = (s.fld (a + 4) 8 16 + 1) % 65536 := by
  have hword := (regN_commitEnd s a st (a + 4)).trans (if_pos rfl)
  unfold State.fld at hword ⊢
  rw [hword]
  unfold bitsOf
  generalize (s.regN (a + 4) / 2 ^ 8 % 2 ^ 16 + 1) = seq
  omega

/-! ### COMMIT registers -/

/-- No status word of a COMMIT register holds overflow bits. -/
theorem notOvf_commitStatus {addr p : Nat} (haddr : commitWriter addr = some p) : NotOvf (addr + 4) := by
  intro u hu he
  rw [commitWriter_eq_none (by unfold aCntOvf at he; unfold aPortCommit aHstCommit; omega)] at haddr
  cases haddr

section
variable {m : Master} {addr p : Nat} {s : State} (hmay : s.mayAct m = true) (haddr : commitWriter addr = some p)
  (hm : masterIs m p = true)
include haddr hm

theorem commitWrite_go (v : Nat) (hgo : bitOf v 31 = true) : s.commitWrite m addr v = (s.commitGo addr p).2 := by
  unfold State.commitWrite
  rw [haddr]
  dsimp only
  rw [if_neg (by simp [hm]), if_pos hgo]

theorem commitWrite_discard (v : Nat) (hgo : bitOf v 31 = false) (hdiscard : bitOf v 30 = true) :
    s.commitWrite m addr v = s.discardIf (s.setOf addr) := by
  unfold State.commitWrite
  rw [haddr]
  dsimp only
  rw [if_neg (by simp [hm]), if_neg (Bool.eq_false_iff.1 hgo), if_pos hdiscard]

include hmay

theorem stagedCommitGo_commits : exec (.stagedCommitGo m addr) s = .next (s.commitGo addr p).2 :=
  (if_pos hmay).trans (congrArg _ (commitWrite_go haddr hm _ (by decide)))

theorem stagedCommitDiscard_discards : exec (.stagedCommitDiscard m addr) s = .next (s.discardIf (s.setOf addr)) :=
  (if_pos hmay).trans (congrArg _ (commitWrite_discard haddr hm _ (by decide) (by decide)))

end

/-! ### Commits of a block (R478) -/

section
variable {s : State} {a : Nat}

/-- What follows from new settings changes none. -/
theorem blockCommit_accepted (h : s.commitOk a = true) :
    ∃ t, KeepsSettings (s.commitIf (s.setOf a)) t ∧ s.blockCommit a = (stOk, t.commitEnd a stOk) := by
  have htold (t : State) (p : Prop) [Decidable p] : KeepsSettings t (if p then t.eventAny (srcHost 0) 0x8030 else t) :=
    keepsSettings_ite (eventAny_keepsSettings _ _ _) (keepsSettings_refl _)
  have hends (t : State) (p : Prop) [Decidable p] : KeepsSettings t (if p then t.pauseEnds else t) :=
    keepsSettings_ite (pauseEnds_keepsSettings _) (keepsSettings_refl _)
  have htimers (t : State) (p : Prop) [Decidable p] :
      KeepsSettings t (if p then (upTo 16).foldl (fun t r => t.pauses r) (t.timersFollow s) else t) :=
    keepsSettings_ite ((keepsSettings_foldl pauses_keepsSettings _ _).after (timersFollow_keepsSettings t s))
      (keepsSettings_refl t)
  exact ⟨_, (htold _ _).after ((hends _ _).after (htimers _ _)), if_pos h⟩

theorem blockCommit_refused (h : s.commitOk a = false) : s.blockCommit a = (stReject, s.commitEnd a stReject) :=
  if_neg (Bool.eq_false_iff.1 h)

/-- The staged words become the committed ones, and SEQ rises. -/
theorem blockCommit_commits {p : Nat} (haddr : commitWriter a = some p) (h : s.commitOk a = true) :
    (s.blockCommit a).1 = stOk ∧ (s.blockCommit a).2.committed = (s.commitIf (s.setOf a)).committed ∧
      (s.blockCommit a).2.fld (a + 4) 0 8 = stOk ∧
      (s.blockCommit a).2.fld (a + 4) 8 16 = (s.fld (a + 4) 8 16 + 1) % 65536 := by
  obtain ⟨t, ⟨hcommitted, hregs⟩, hcommit⟩ := blockCommit_accepted h
  obtain ⟨hstatus, hseq⟩ := fld_commitEnd t a (st := stOk) (by decide)
  have hfld : t.fld (a + 4) 8 16 = s.fld (a + 4) 8 16 :=
    congrArg (bitsOf · 8 16) (hregs _ (notOvf_commitStatus haddr))
  rw [hcommit]
  exact ⟨rfl, hcommitted, hstatus, hseq.trans (by rw [hfld])⟩

end

/-! ### Commits of a gate list (R378) -/

theorem commitWriter_gate (part : Part) : commitWriter (aGateCommit part.val) = some part.val := by
  revert part; decide

theorem commitWriter_port (part : Part) : commitWriter (aPortCommit part.val) = some part.val := by
  revert part; decide

theorem blockOf_gate (part : Part) : blockOf (aGateCommit part.val) = 0x00A := by
  revert part; decide

theorem blockOf_port (part : Part) : blockOf (aPortCommit part.val) = 0x00B := by
  revert part; decide

/-- A pending list that is discarded leaves the operating one. -/
theorem portS_discardList (s : State) (n : Nat) :
    ((s.discardList n).portS n).pend = none ∧ ((s.discardList n).portS n).op = (s.portS n).op := by
  unfold State.discardList
  dsimp only
  split
  next h => exact ⟨Option.isNone_iff_eq_none.1 h, rfl⟩
  next =>
    split
    · rw [portS_setPortS_self]
      exact ⟨rfl, rfl⟩
    · rw [portS_setPortS_self]
      exact ⟨rfl, rfl⟩

/-- A list waits at port `n` for its first start, 10 us from now or later. -/
def listPends (s : State) (n : Nat) (l : GateList) : State :=
  s.setPortS n { s.portS n with
    pend := some l, chg := l.nextStart ((s.ptpNow + 10000 * nsUnit + nsUnit - 1) / nsUnit) }

theorem portS_listPends (s : State) (n : Nat) (l : GateList) :
    ((listPends s n l).portS n).pend = some l ∧
      ((listPends s n l).portS n).chg = l.nextStart ((s.ptpNow + 10000 * nsUnit + nsUnit - 1) / nsUnit) ∧
      ((listPends s n l).portS n).op = (s.portS n).op ∧ ∀ k, k ≠ n → (listPends s n l).portS k = s.portS k := by
  refine ⟨?_, ?_, ?_, fun k hk => portS_setPortS_ne s _ hk⟩ <;> rw [listPends, portS_setPortS_self]

/-- The port that partition p's staged list is for. -/
def stagedPort (s : State) (p : Nat) : Nat := bitsOf (s.regN (aGateStgCfg p)) 0 9

section
variable {part : Part} {s : State} (howner : s.portOwner (stagedPort s part.val) = part.val)
include howner

/-- A list that passes the checks is pending. -/
theorem gateCommit_pends (hcancel : bitOf (s.regN (aGateStgCfg part.val)) 30 = false)
    (hfree : (s.portS (stagedPort s part.val)).pend = none) (hen : (s.stagedList part.val).en = true)
    (hform : (s.stagedList part.val).wellFormed (bitsOf (s.regN (aGateStgCfg part.val)) 16 9) = true)
    (hfits : ∀ c < 8, (s.stagedList part.val).admits c (s.classSdu (stagedPort s part.val) c)
      (s.portRate (stagedPort s part.val)) = true) :
    s.gateCommit part.val = (stOk, ((listPends s (stagedPort s part.val) (s.stagedList part.val)).commitIf
      (s.setOf (aGateCommit part.val))).commitEnd (aGateCommit part.val) stOk) := by
  have hany : (upTo 8).any (fun c => !(s.stagedList part.val).admits c (s.classSdu (stagedPort s part.val) c)
      (s.portRate (stagedPort s part.val))) = false :=
    List.any_eq_false.2 fun c hc => by simp [hfits c (List.mem_range.1 hc)]
  unfold stagedPort at *
  unfold State.gateCommit State.stg
  dsimp only
  rw [if_neg (not_not.2 howner), if_neg (Bool.eq_false_iff.1 hcancel), if_neg (by simp [hfree]),
    if_neg (by simp [hform, hany]), if_pos hen]
  rfl

theorem gateCommit_cancels (hcancel : bitOf (s.regN (aGateStgCfg part.val)) 30 = true) :
    s.gateCommit part.val = (stOk, ((s.discardList (stagedPort s part.val)).commitIf
      (s.setOf (aGateCommit part.val))).commitEnd (aGateCommit part.val) stOk) := by
  unfold stagedPort at *
  unfold State.gateCommit State.stg
  dsimp only
  rw [if_neg (not_not.2 howner), if_pos hcancel]

end

section
variable {m : Master} {part : Part} {v : Word32} {s : State} (hmay : s.mayAct m = true) (hm : masterIs m part.val = true)
include hmay hm

section
variable (hgo : bitOf v.toNat 31 = true)
include hgo

theorem gateCommit_goes : exec (.gateCommit m part v) s = .next (s.gateCommit part.val).2 := by
  refine (if_pos hmay).trans (congrArg Host.Outcome.next ((commitWrite_go (commitWriter_gate part) hm _ hgo).trans ?_))
  rw [State.commitGo, if_pos (blockOf_gate part)]

theorem portCommit_goes : exec (.portCommit m part v) s = .next (s.portCommit part.val).2 := by
  refine (if_pos hmay).trans (congrArg Host.Outcome.next ((commitWrite_go (commitWriter_port part) hm _ hgo).trans ?_))
  rw [State.commitGo, blockOf_port part, if_neg (by decide), if_pos rfl]

end

section
variable (hgo : bitOf v.toNat 31 = false) (hdiscard : bitOf v.toNat 30 = true)
include hgo hdiscard

theorem gateCommit_discards : exec (.gateCommit m part v) s = .next (s.discardIf (s.setOf (aGateCommit part.val))) :=
  (if_pos hmay).trans (congrArg _ (commitWrite_discard (commitWriter_gate part) hm _ hgo hdiscard))

theorem portCommit_discards : exec (.portCommit m part v) s = .next (s.discardIf (s.setOf (aPortCommit part.val))) :=
  (if_pos hmay).trans (congrArg _ (commitWrite_discard (commitWriter_port part) hm _ hgo hdiscard))

end

end

/-- Settles O47: what follows from a commit changes no setting (`KeepsSettings`), and each commit ends with its status and
SEQ (`fld_commitEnd`). -/
theorem stagedSettingsAreCommitted : Obligations.StagedSettingsAreCommitted := by
  intro m part addr p v s g cfg n x list hmay
  refine ⟨fun haddr hm => ⟨fun hgate hport => ?_, _, stagedCommitDiscard_discards hmay haddr hm, rfl, rfl⟩,
    fun hm hgo howner hcancel hfree hen hform hfits => ?_, fun hm hgo howner hcancel => ?_,
    fun hm hgo => gateCommit_goes hmay hm hgo,
    fun hm hgo hdiscard => ⟨gateCommit_discards hmay hm hgo hdiscard, portCommit_discards hmay hm hgo hdiscard⟩,
    fun hm hgo => portCommit_goes hmay hm hgo⟩
  · have hblock : s.commitGo addr p = s.blockCommit addr := (if_neg hgate).trans (if_neg hport)
    have hexec := stagedCommitGo_commits hmay haddr hm
    rw [hblock] at hexec
    refine ⟨fun hok => ⟨hexec, blockCommit_commits haddr hok⟩, fun hok => ?_⟩
    obtain ⟨hstatus, hseq⟩ := fld_commitEnd s addr (st := stReject) (by decide)
    refine ⟨_, hexec.trans (by rw [blockCommit_refused hok]), rfl, hstatus, hseq, fun c hc => ?_⟩
    rw [regN_commitEnd, if_neg hc]
  · refine ⟨_, gateCommit_goes hmay hm hgo, ?_⟩
    rw [gateCommit_pends howner hcancel hfree hen hform hfits]
    obtain ⟨hpend, hchg, hop, hothers⟩ := portS_listPends s n list
    exact ⟨hpend, hchg, hop, (fld_commitEnd _ g (st := stOk) (by decide)).1, hothers⟩
  · refine ⟨_, gateCommit_goes hmay hm hgo, ?_⟩
    rw [gateCommit_cancels howner hcancel]
    exact portS_discardList s n

end Sys2Proof.Proofs

/-! PROOF. Network time: writes of the PTP counter and the instant they are applied at, the time pins and the equipment
clock (R422 to R424, R430 to R437). -/

namespace Sys2Proof.Proofs

open Sys2Proof Sys2Proof.Machine Sys2Proof.Laws

/-! ### Words as written -/

theorem bitOf_toNat (v : Word32) (k : Nat) : bitOf v.toNat k = v.getLsbD k := bitOf_eq_testBit v.toNat k

theorem signed32_toNat (v : Word32) : signed32 v.toNat = v.toInt := by
  rw [signed32, BitVec.ofNat_toNat, BitVec.setWidth_eq]

theorem regN_setRegN_ne {a b : Nat} (s : State) (v : Nat) (h : b ≠ a) : (s.setRegN a v).regN b = s.regN b :=
  (regN_setRegN s a b v).trans (if_neg h)

/-! ### Requesting a change (R423, R484 case 13) -/

/-- From `s` to `u` the change `c` joins the ones that wait, noted with the present GTC, and the time itself stays. -/
def Requests (s u : State) (c : PtpChange) : Prop :=
  u.ptp.pend = s.ptp.pend ++ [(s.clk.gtc, c)] ∧ u.ptp.total = s.ptp.total ∧ u = { s with ptp := u.ptp, regs := u.regs }

section
variable {s t : State} {c : PtpChange} (ht : OnlyRegs s t)
include ht

theorem ptpPend_requests (h : s.ptp.pend.any (fun e => clashes e.1 s.clk.gtc e.2 c) = false) :
    Requests s (t.ptpPend c) c := by
  rw [ht, State.ptpPend, if_neg (Bool.eq_false_iff.1 h)]
  exact ⟨rfl, rfl, rfl⟩

/-- Whether or not it clashes with an earlier one, a request leaves the time, its rate and all but the list as they are. -/
theorem ptpPend_keeps : (t.ptpPend c).ptp.total = s.ptp.total ∧ (t.ptpPend c).ptp.rate = s.ptp.rate ∧
    t.ptpPend c = { s with ptp := (t.ptpPend c).ptp, regs := (t.ptpPend c).regs, clk := (t.ptpPend c).clk } := by
  rw [ht, State.ptpPend]
  dsimp only
  split
  · exact ⟨rfl, rfl, rfl⟩
  · exact ⟨rfl, rfl, rfl⟩

end

theorem mem_pend_ptpPend {s : State} {c : PtpChange} {e : Nat × PtpChange} (he : e ∈ (s.ptpPend c).ptp.pend) :
    e ∈ s.ptp.pend ∨ e = (s.clk.gtc, c) := by
  unfold State.ptpPend at he
  dsimp only at he
  split at he
  · dsimp only at he
    split at he
    · exact (List.mem_append.1 he).imp List.mem_of_mem_filter List.mem_singleton.1
    · exact .inl (List.mem_of_mem_filter he)
  · exact (List.mem_append.1 he).imp_right List.mem_singleton.1

/-- Whether a rate clashes does not turn on its value. Both values are variables, so that the kernel does not compute the
one that a write of PTP_RATE makes. -/
theorem no_clash_rate {pend : List (Nat × PtpChange)} {h : Nat} {q : Int} (r : Int)
    (hfree : pend.any (fun e => clashes e.1 h e.2 (.rate q)) = false) :
    pend.any (fun e => clashes e.1 h e.2 (.rate r)) = false := hfree

/-- A set is neither a rate nor a step, so it clashes with nothing. -/
theorem no_clash_set (pend : List (Nat × PtpChange)) (h secs ns : Nat) :
    pend.any (fun e => clashes e.1 h e.2 (.set secs ns)) = false := by
  simp [clashes, PtpChange.isRate, PtpChange.isStep]

/-! ### Writes of the PTP block (R422, R423, R430, R431) -/

section
variable {m : Master} {s : State} (hmay : s.mayAct m = true) (hm : masterIs m 0 = true)
include hmay hm

theorem ptpWrite_acts (a : Nat) (f : State → State) : s.atBus m (fun t => t.ptpWrite m a f) = .next (f s) :=
  (if_pos hmay).trans (congrArg _ (if_pos hm))

theorem exec_ptpRateWrite_low (v : Word32) : exec (.ptpRateWrite m false v) s = .next (s.setReg aPtpRate v) :=
  (ptpWrite_acts hmay hm _ _).trans (congrArg _ (setRegN_toNat s aPtpRate v))

theorem exec_ptpRateWrite_high (v : Word32) :
    exec (.ptpRateWrite m true v) s = .next ((s.setRegN (aPtpRate + 4) (v.toNat % 65536)).ptpPend
      (.rate (BitVec.ofNat 48 (s.regN aPtpRate + v.toNat % 65536 * 2 ^ 32)).toInt)) := by
  rw [← regN_setRegN_ne (a := aPtpRate + 4) (b := aPtpRate) s (v.toNat % 65536) (by decide)]
  exact ptpWrite_acts hmay hm _ _

theorem exec_ptpStepWrite (v : Word32) : exec (.ptpStepWrite m v) s = .next (s.ptpPend (.step v.toInt)) := by
  rw [← signed32_toNat]
  exact ptpWrite_acts hmay hm _ _

theorem exec_ptpSetWrite_ns (v : Word32) : exec (.ptpSetWrite m 0 v) s = .next (s.setRegN aPtpSet (v.toNat % 2 ^ 30)) :=
  ptpWrite_acts hmay hm _ _

theorem exec_ptpSetWrite_secs (v : Word32) : exec (.ptpSetWrite m 1 v) s = .next (s.setReg (aPtpSet + 4) v) :=
  (ptpWrite_acts hmay hm _ _).trans (congrArg _ (setRegN_toNat s (aPtpSet + 4) v))

theorem exec_ptpSetWrite_held {v : Word32} (h : v.getLsbD 31 = false) :
    exec (.ptpSetWrite m 2 v) s = .next (s.setRegN (aPtpSet + 8) (v.toNat % 65536)) :=
  (ptpWrite_acts hmay hm _ _).trans (congrArg _ (if_neg (Bool.eq_false_iff.1 ((bitOf_toNat v 31).trans h))))

theorem exec_ptpSetWrite_sets {v : Word32} (h : v.getLsbD 31 = true) :
    exec (.ptpSetWrite m 2 v) s = .next ((s.setRegN (aPtpSet + 8) (v.toNat % 65536)).ptpPend
      (.set (s.regN (aPtpSet + 4) + v.toNat % 65536 * 2 ^ 32) (s.regN aPtpSet))) := by
  rw [← regN_setRegN_ne (a := aPtpSet + 8) (b := aPtpSet + 4) s (v.toNat % 65536) (by decide),
    ← regN_setRegN_ne (a := aPtpSet + 8) (b := aPtpSet) s (v.toNat % 65536) (by decide)]
  exact (ptpWrite_acts hmay hm _ _).trans (congrArg _ (if_pos ((bitOf_toNat v 31).trans h)))

/-- What a write of PTP_EEC_CFG leaves: the word's fields, and a clock that is free without EN or acquires, unless it
stays locked. -/
theorem exec_eecCfgWrite (v : Word32) : ∃ u, exec (.eecCfgWrite m v) s = .next u ∧
    u.regN aPtpEecCfg = v.toNat &&& 0xCE0001FF ∧ (v.getLsbD 31 = false → u.ptp.eec = 0) ∧
    (v.getLsbD 31 = true → s.ptp.eec ≠ 2 → u.ptp.eec = 1) := by
  have hen : bitOf (v.toNat &&& 0xCE0001FF) 31 = v.getLsbD 31 := by
    rw [bitOf_eq_testBit, Nat.testBit_and, ← bitOf_eq_testBit, bitOf_toNat]
    exact Bool.and_true _
  refine ⟨_, ptpWrite_acts hmay hm _ _, ?_, fun h => ?_, fun h hfree => ?_⟩
  · refine (regN_setRegN s _ _ _).trans ((if_pos rfl).trans (Nat.mod_eq_of_lt ?_))
    exact Nat.and_lt_two_pow _ (by decide)
  · exact if_neg (Bool.eq_false_iff.1 (hen.trans h))
  · exact (if_pos (hen.trans h)).trans (if_neg (by simp [hfree]))

end

/-! ### The instant of a change (R380, R423) -/

theorem unpiece_egress (s : State) (n : Nat) : OnlyEgress s (s.unpiece n) := by
  unfold State.unpiece
  dsimp only
  split
  · split
    · rfl
    · exact setPortS_egress _ _ _
  · rfl

theorem gatesRestart_egress (s : State) : OnlyEgress s s.gatesRestart :=
  List.foldlRecOn (motive := OnlyEgress s) _ _ rfl fun t ht e _ => by
    dsimp only
    split
    · exact (setPortS_egress _ _ _).after ((unpiece_egress _ _).after ((settleCbs_egress t e.1).after ht))
    · exact ht

theorem ptp_gatesRestart (s : State) : s.gatesRestart.ptp = s.ptp := by rw [gatesRestart_egress s]

theorem ptp_ptpChange_step (s : State) (g : Nat) (ns : Int) : (s.ptpChange g (.step ns)).ptp = { s.ptp with
    total := (((s.ptpTotal g : Int) + ns * (nsUnit : Int)) % (ptpWrap : Int)).toNat
    at_ := g, steps := (s.ptp.steps + 1) % 65536, lastStep := g } := by
  have hwrap : (((s.ptpTotal g : Int) + ns * (nsUnit : Int)) % (ptpWrap : Int)).toNat < ptpWrap :=
    (Int.toNat_lt' (by decide)).2 (Int.emod_lt_of_pos _ (by decide))
  refine (ptp_gatesRestart _).trans ?_
  rw [State.ptpStepped, Nat.mod_eq_of_lt hwrap]

/-- What a set at GTC count `g` shows. The total is a variable, so that the kernel does not compute a set's own products. -/
theorem gatesRestart_shows_set (s : State) (g total : Nat) {u : State}
    (hu : u = State.gatesRestart { s.ptpStepped g total with ptp := { (s.ptpStepped g total).ptp with set_ := true } }) :
    u.ptp.pend = s.ptp.pend ∧ u.ptp.set_ = true ∧ u.ptp.total = total % ptpWrap ∧ u.ptp.at_ = g := by
  rw [hu, ptp_gatesRestart]
  exact ⟨rfl, rfl, rfl, rfl⟩

theorem ptpChange_set_shows (s : State) (g secs ns : Nat) :
    (s.ptpChange g (.set secs ns)).ptp.pend = s.ptp.pend ∧ (s.ptpChange g (.set secs ns)).ptp.set_ = true ∧
      (s.ptpChange g (.set secs ns)).ptp.total = (secs * secUnit + ns * nsUnit) % ptpWrap ∧
      (s.ptpChange g (.set secs ns)).ptp.at_ = g :=
  gatesRestart_shows_set s g (secs * secUnit + ns * nsUnit) rfl

theorem ptpChangeApply_due {s : State} {g : Nat} {c : PtpChange} {l : List (Nat × PtpChange)}
    (hdue : ptpDue g ≤ s.clk.gtc) (hpend : s.ptp.pend = (g, c) :: l) :
    exec .ptpChangeApply s = .next ({ s with ptp := { s.ptp with pend := l } }.ptpChange (ptpDue g) c) := by
  change execPtpChangeApply s = _
  rw [execPtpChangeApply, hpend]
  exact if_pos hdue

/-! ### The time pins (R433 to R437) -/

section
variable {s : State}

theorem ppsInEdge_captures (hrun : s.clk.run = true) (hgap : s.ptp.ppsGtc = 0 ∨ s.ptp.ppsGtc - 1 + 2000000000 ≤ s.clk.gtc) :
    exec .ppsInEdge s = .next { s with ptp := { s.ptp with
      ppsTotal := s.ptpNow, ppsGtc := s.clk.gtc + 1, ppsCnt := (s.ptp.ppsCnt + 1) % 65536 } } :=
  if_pos (by simp [hrun, hgap])

theorem ppsOutEdge_rises (hrun : s.clk.run = true) (hen : (s.reg aPtpPpsout).getLsbD 31 = true)
    (hnear : s.ppsTime % secUnit * 2 < 5 * nsUnit) (hgap : s.ptp.ppsSec = 0 ∨ s.ptp.ppsOutGtc + 400000000 ≤ s.clk.gtc) :
    exec .ppsOutEdge s = .next { s with ptp := { s.ptp with
      ppsSec := s.ppsTime / secUnit + 1, ppsOutGtc := s.clk.gtc, todDue := (s.reg aPtpTodTx).getLsbD 31 } } := by
  have hbit : bitOf (s.regN aPtpPpsout) 31 = true := (bitOf_toNat _ 31).trans hen
  rw [← bitOf_toNat]
  exact if_pos (by simp [hbit, hrun, hnear, hgap])

theorem todTxMessage_sends (hdue : s.ptp.todDue = true) (htod : (s.reg aPtpTodTx).getLsbD 31 = true)
    (hpps : (s.reg aPtpPpsout).getLsbD 31 = true) (hms : s.ptp.ppsOutGtc + 4000000 ≤ s.clk.gtc) :
    exec .todTxMessage s = .next { s with ptp := { s.ptp with
      todDue := false, todSent := s.ptp.todSent ++ [s.todMessage (s.ptp.ppsSec - 1)] } } := by
  have htodBit : bitOf (s.regN aPtpTodTx) 31 = true := (bitOf_toNat _ 31).trans htod
  have hppsBit : bitOf (s.regN aPtpPpsout) 31 = true := (bitOf_toNat _ 31).trans hpps
  exact if_pos (by simp [hdue, htodBit, hppsBit, hms])

theorem todRxMessage_received {bytes : List Byte} (h : todOk bytes = true) :
    exec (.todRxMessage bytes) s = .next { s with ptp := { s.ptp with todRx := some (bytes, s.clk.gtc - 6250000) } } :=
  if_pos h

theorem todRxMessage_bad {bytes : List Byte} (h : todOk bytes = false) :
    exec (.todRxMessage bytes) s = .next { s with ptp := { s.ptp with todBad := s.ptp.todBad + 1 } } :=
  if_neg (Bool.eq_false_iff.1 h)

/-! ### The equipment clock (R431, R432) -/

theorem eecLocked_locks (h : s.ptp.eec = 1) : ∃ u, exec .eecLocked s = .next u ∧ u.ptp.eec = 2 ∧
    u = { s with ptp := u.ptp, regs := u.regs, clk := u.clk } :=
  ⟨_, if_pos h, rfl, rfl⟩

theorem eecReferenceLoss_holds (h : s.ptp.eec = 1 ∨ s.ptp.eec = 2) :
    exec .eecReferenceLoss s = .next (State.irq { s with ptp := { s.ptp with eec := 3 } } 0 135) :=
  if_pos h

end

/-! ### The statement on network time -/

/-- Settles O52: a write requests its change (`ptpPend_requests`, and `ptpPend_keeps` where two writes clash), and the change at
the head of the list is applied at its instant (`ptpChangeApply_due`), where a step and a set restart gates but leave the
counter's own state (`ptp_gatesRestart`). -/
theorem networkTimeIsSetAndShown : Obligations.NetworkTimeIsSetAndShown := by
  intro m v bytes g r ns secs n l s
  refine ⟨fun hmay hm => ⟨exec_ptpRateWrite_low hmay hm v, fun hfree => ?_, fun hfree => ?_, fun _ => ?_, fun _ => ?_,
      exec_ptpSetWrite_held hmay hm, exec_ptpSetWrite_ns hmay hm v, exec_ptpSetWrite_secs hmay hm v, fun hset => ?_,
      exec_eecCfgWrite hmay hm v⟩,
    fun hdue => ⟨fun hp => ?_, fun hp => ?_, fun hp => ?_⟩, ppsInEdge_captures,
    fun hrun hen hnear hgap => ⟨_, ppsOutEdge_rises hrun hen hnear hgap, rfl, rfl, rfl, rfl⟩, todTxMessage_sends,
    todRxMessage_received, todRxMessage_bad, eecLocked_locks, eecReferenceLoss_holds⟩
  · exact ⟨_, exec_ptpRateWrite_high hmay hm v, ptpPend_requests ((onlyRegs_refl s).setRegN _ _) (no_clash_rate _ hfree)⟩
  · exact ⟨_, exec_ptpStepWrite hmay hm v, ptpPend_requests (onlyRegs_refl s) hfree⟩
  · obtain ⟨htotal, -, honly⟩ := ptpPend_keeps (c := .step v.toInt) (onlyRegs_refl s)
    exact ⟨_, exec_ptpStepWrite hmay hm v, fun _ => mem_pend_ptpPend, htotal, honly⟩
  · exact ⟨_, exec_ptpRateWrite_high hmay hm v, ptpPend_keeps ((onlyRegs_refl s).setRegN _ _)⟩
  · exact ⟨_, exec_ptpSetWrite_sets hmay hm hset, ptpPend_requests ((onlyRegs_refl s).setRegN _ _) (no_clash_set _ _ _ _)⟩
  · exact ⟨_, ptpChangeApply_due hdue hp, rfl, rfl, rfl, rfl, rfl⟩
  · refine ⟨_, ptpChangeApply_due hdue hp, ?_⟩
    rw [ptp_ptpChange_step]
    exact ⟨rfl, rfl, rfl, rfl, rfl⟩
  · exact ⟨_, ptpChangeApply_due hdue hp, ptpChange_set_shows _ _ secs n⟩

end Sys2Proof.Proofs

/-! PROOF. What every command keeps: the queue of waiting commands and the form of the byte memories. One lemma for each
function that gives a state, from counters to the parser; a chain `h.f.g` follows the calls of the body it is about. -/

namespace Sys2Proof.Proofs

open Sys2Proof Sys2Proof.Machine Sys2Proof.Laws

/-! ### Keeping the queue and the memories -/

/-- From `s` to `t` no command has joined or left the queue, and byte memories in canonical form have kept it. -/
def Keeps (s t : State) : Prop := t.pending = s.pending ∧ (MemsWf s.mems → MemsWf t.mems)

theorem Keeps.refl (s : State) : Keeps s s := ⟨rfl, id⟩

/-- An update of any of the other fields; a proof takes one `.same` for each update that its state is written with. -/
theorem Keeps.same {s t : State} {clk : Clk} {top : Top} {regs committed latch tab rdata : SMap Word32} {cnt refreshed : SMap Nat}
    {threads : SMap Thread} {clusters : SMap Cluster} {races : SMap Race} {cls : Cls} {ucs : Ucs} {comps : List Completion}
    {nextTask nextPkt : Nat} {pkts : SMap Packet} {rx : List RxItem} {evr : Evr} {msix : List (Nat × Nat)} {link : SMap Bool}
    {hop : Hop} {weirq : List MeterOp} {ptp : Ptp} {em : SMap EmEntry} {host : HostS} {mst : Mst} {walks : Walks}
    {weir : SMap Meter} {eg : Egress} {coll : Coll} {saf : Saf} {smb : Smb} {dbg : Dbg} (h : Keeps s t) :
    Keeps s { t with
      clk := clk, top := top, regs := regs, committed := committed, cnt := cnt, latch := latch, threads := threads
      clusters := clusters, races := races, cls := cls, ucs := ucs, comps := comps, nextTask := nextTask, pkts := pkts
      nextPkt := nextPkt, rx := rx, evr := evr, msix := msix, link := link, hop := hop, weirq := weirq, ptp := ptp, em := em
      host := host, mst := mst, walks := walks, weir := weir, refreshed := refreshed, tab := tab, eg := eg, coll := coll
      saf := saf, smb := smb, dbg := dbg, rdata := rdata } := h

theorem Keeps.ite {s t u : State} {p : Prop} [Decidable p] (ht : Keeps s t) (hu : Keeps s u) : Keeps s (if p then t else u) := by
  split
  · exact ht
  · exact hu

theorem Keeps.rfl {t : State} : Keeps t t := .refl t

theorem Keeps.after {s t u : State} (hu : Keeps t u) (h : Keeps s t) : Keeps s u := ⟨hu.1.trans h.1, hu.2 ∘ h.2⟩

theorem Keeps.opt {s t u : State} {p : Prop} [Decidable p] (h : Keeps s t) (hu : Keeps t u) : Keeps s (if p then u else t) :=
  .ite (hu.after h) h

theorem Keeps.unless {s t u : State} {p : Prop} [Decidable p] (h : Keeps s t) (hu : Keeps t u) : Keeps s (if p then t else u) :=
  .ite h (hu.after h)

theorem Keeps.foldl {α : Type} {s t : State} {f : State → α → State} {l : List α} (h : Keeps s t)
    (hf : ∀ u x, Keeps s u → Keeps s (f u x)) : Keeps s (l.foldl f t) :=
  List.foldlRecOn (motive := Keeps s) l f h fun u hu x _ => hf u x hu

theorem Keeps.foldl_with {α β : Type} {s : State} {f : β × State → α → β × State} {l : List α} {a : β × State}
    (h : Keeps s a.2) (hf : ∀ a x, Keeps s a.2 → Keeps s (f a x).2) : Keeps s (l.foldl f a).2 :=
  List.foldlRecOn (motive := fun a => Keeps s a.2) l f h fun a ha x _ => hf a x ha

theorem Keeps.foldl_fst {α β : Type} {s : State} {f : State × β → α → State × β} {l : List α} {a : State × β}
    (h : Keeps s a.1) (hf : ∀ a x, Keeps s a.1 → Keeps s (f a x).1) : Keeps s (l.foldl f a).1 :=
  List.foldlRecOn (motive := fun a => Keeps s a.1) l f h fun a ha x _ => hf a x ha

theorem Keeps.snd {α : Type} {s u : State} {a : α} {p : α × State} (h : Keeps s p.2) (hp : p = (a, u)) : Keeps s u := by
  subst hp
  exact h

theorem Keeps.fst {α : Type} {s u : State} {a : α} {p : State × α} (h : Keeps s p.1) (hp : p = (u, a)) : Keeps s u := by
  subst hp
  exact h

theorem Keeps.mid {α β : Type} {s u : State} {a : α} {b : β} {p : α × State × β} (h : Keeps s p.2.1) (hp : p = (a, u, b)) :
    Keeps s u := by
  subst hp
  exact h

theorem Keeps.last {α β : Type} {s u : State} {a : α} {b : β} {p : α × β × State} (h : Keeps s p.2.2) (hp : p = (a, b, u)) :
    Keeps s u := by
  subst hp
  exact h

theorem Keeps.wf {s t u : State} (h : Keeps s t) (hm : MemsWf t.mems → MemsWf u.mems) (hp : u.pending = t.pending := by rfl) :
    Keeps s u :=
  ⟨hp.trans h.1, hm ∘ h.2⟩

/-- A command that comes out at a next state keeps the queue and the form of the memories. -/
def Leads (s : State) (o : Host.Outcome State Fault Refusal) : Prop := ∀ u, o = .next u → Keeps s u

theorem Keeps.next {s t : State} (h : Keeps s t) : Leads s (.next t) := fun u hu => by
  cases hu
  exact h

theorem Leads.after {s t : State} {o : Host.Outcome State Fault Refusal} (ho : Leads t o) (h : Keeps s t) : Leads s o :=
  fun u hu => (ho u hu).after h

theorem Leads.ite {s : State} {p : Prop} [Decidable p] {a b : Host.Outcome State Fault Refusal} (ha : Leads s a) (hb : Leads s b) :
    Leads s (if p then a else b) := by
  split
  · exact ha
  · exact hb

section

variable {s t : State}

/-! ### Counters -/

theorem Keeps.progAdd {u i n : Nat} (h : Keeps s t) : Keeps s (t.progAdd u i n) := .ite h (.ite h.same h.same.same)
theorem Keeps.occur {u ev n : Nat} (h : Keeps s t) : Keeps s (t.occur u ev n) := h.foldl fun _ _ h1 => .ite h1.progAdd h1

theorem Keeps.bump {a n : Nat} (h : Keeps s t) : Keeps s (t.bump a n) := by
  unfold State.bump
  refine .ite h ?_
  split
  · exact h.same.occur
  · exact h.same

/-! ### Records, interrupts, safety events and modes -/

theorem Keeps.irq {p src : Nat} (h : Keeps s t) : Keeps s (t.irq p src) := .ite h.same.same h.same
theorem Keeps.irqAll {src : Nat} (h : Keeps s t) : Keeps s (t.irqAll src) := h.irq.irq.irq.irq
theorem Keeps.event {src code detail : Nat} (h : Keeps s t) : Keeps s (t.event src code detail) :=
  .ite h (.ite h.bump h.same)
theorem Keeps.eventAny {src code : Nat} (h : Keeps s t) : Keeps s (t.eventAny src code) := h.same.event
theorem Keeps.safety {src code detail bit : Nat} (h : Keeps s t) : Keeps s (t.safety src code detail bit) :=
  h.event.same.bump.same.same.same.irqAll.same
theorem Keeps.coverage {cause : Nat} (h : Keeps s t) : Keeps s (t.coverage cause) := .ite h.same h.same.event

theorem Keeps.debugCover (h : Keeps s t) : Keeps s t.debugCover := by
  unfold State.debugCover
  split
  · exact .ite h.same h.coverage
  · exact h.same

theorem Keeps.setMode {m : Mode} (h : Keeps s t) : Keeps s (t.setMode m) :=
  .ite h <| .opt h.same.eventAny.irqAll.debugCover Keeps.rfl.same
theorem Keeps.degrade {bit : Nat} (h : Keeps s t) : Keeps s (t.degrade bit) := .ite h.same.setMode h.same

/-! ### Commands of the hosts -/

theorem Keeps.deny {p kind addr : Nat} (h : Keeps s t) : Keeps s (t.deny p kind addr) := h.same.same.same.same.bump.irq
theorem Keeps.hostWrite {p a : Nat} {l : List Byte} (h : Keeps s t) : Keeps s (t.hostWrite p a l) :=
  Keeps.occur (h.wf fun ⟨hp, hd, hs, hn, hh⟩ => ⟨hp, hd, hs, hn, setBytes_wf l _ _ hh⟩)
theorem Keeps.dmaRead {n : Nat} (h : Keeps s t) : Keeps s (t.dmaRead n) := h.occur
theorem Keeps.cmdForget {c : CmdRef} (h : Keeps s t) : Keeps s (t.cmdForget c) := h.same.same
theorem Keeps.cmdDone {c : CmdRef} {status detail : Nat} (h : Keeps s t) : Keeps s (t.cmdDone c status detail) :=
  .ite h.cmdForget <| .opt (.opt h.cmdForget.hostWrite.same.bump Keeps.rfl.deny) Keeps.rfl.irq

theorem Keeps.startCmd {c : HostCmd} {op : Nat} {kind : CmdKind} {issuer mode : Bool} {body : CmdRef → State → State}
    (h : Keeps s t) (hb : ∀ c u, Keeps s u → Keeps s (body c u)) : Keeps s (t.startCmd c op kind issuer mode body) := by
  unfold State.startCmd
  have hs {a v u ev n k : Nat} : Keeps s (((t.setRegN a v).occur u ev n).dmaRead k) := h.same.occur.dmaRead
  exact .ite (.ite hs.cmdDone <| .ite hs.cmdDone <| .ite hs.cmdDone (hb _ _ hs)) h

/-! ### Placing -/

theorem Keeps.pickUp {p j sub : Nat} {item : List Byte} (h : Keeps s t) : Keeps s (t.pickUp p j sub item) := by
  unfold State.pickUp
  split
  · exact h.same
  · exact h

theorem Keeps.passedOver {l : List (Option Nat)} (h : Keeps s t) : Keeps s (t.passedOver l) := by
  unfold State.passedOver
  refine .foldl h fun _ _ h1 => ?_
  split
  · exact h1.bump
  · exact h1

/-! ### Ends of tasks and packets -/

theorem Keeps.verOut {d v : Nat} (h : Keeps s t) : Keeps s (t.verOut d v) := .ite h.same h.same

theorem Keeps.refInc {c : Nat} {u : State} (h : Keeps s t) (hu : t.refInc c = some u) : Keeps s u := by
  obtain ⟨-, hu⟩ := Option.ite_none_left_eq_some.1 hu
  cases hu
  exact h.same

theorem Keeps.releasePkt {k : Nat} (h : Keeps s t) : Keeps s (t.releasePkt k) := .ite h h.same
theorem Keeps.pauses {r : Nat} (h : Keeps s t) : Keeps s (t.pauses r) :=
  .opt (.opt (.ite h.same.bump h.same) Keeps.rfl.bump) Keeps.rfl.bump

theorem Keeps.leave {r : Nat} {x : Leaving} (h : Keeps s t) : Keeps s (t.leave r x) := by
  cases x with
  | toQueue d => exact h.same
  | toRing i => exact h.same

theorem Keeps.leaveAll {r : Nat} {l : List Leaving} (h : Keeps s t) : Keeps s (t.leaveAll r l) :=
  h.foldl fun _ _ h1 => h1.leave
theorem Keeps.robRun {r : Nat} (h : Keeps s t) : Keeps s (t.robRun r) := h.same.leaveAll.pauses
theorem Keeps.robDrop {r k : Nat} (h : Keeps s t) : Keeps s (t.robDrop r k) := h.same.same.robRun
theorem Keeps.robEnd {r k : Nat} {l : List Leaving} (h : Keeps s t) : Keeps s (t.robEnd r k l) :=
  .ite h.same.same.robRun h.leaveAll

theorem Keeps.dropPkt {k : Nat} (h : Keeps s t) : Keeps s (t.dropPkt k) := by
  unfold State.dropPkt
  exact h.robDrop.verOut.releasePkt

theorem Keeps.trapNow {k ring code kind : Nat} (h : Keeps s t) : Keeps s (t.trapNow k ring code kind) := by
  unfold State.trapNow
  exact h.robDrop.verOut.leave

theorem Keeps.join {n prio : Nat} (h : Keeps s t) : Keeps s (t.join n prio) := h.same.same
theorem Keeps.haltCover (h : Keeps s t) : Keeps s t.haltCover := .ite h h.same
theorem Keeps.freeThread {n : Nat} (h : Keeps s t) : Keeps s (t.freeThread n) := h.same.same.same.haltCover
theorem Keeps.excEnd {k code : Nat} (h : Keeps s t) : Keeps s (t.excEnd k code) := .ite h.bump.trapNow h.bump.dropPkt
theorem Keeps.isolEnd {k : Nat} (h : Keeps s t) : Keeps s (t.isolEnd k) := h.bump.dropPkt

theorem Keeps.exception {n code : Nat} (h : Keeps s t) : Keeps s (t.exception n code) := by
  unfold State.exception
  split
  · exact h.freeThread.excEnd
  · exact h

theorem Keeps.startOn {n : Nat} {c : Ctx} (h : Keeps s t) : Keeps s (t.startOn n c) := h.same.same.join

theorem Keeps.endService {n : Nat} (h : Keeps s t) : Keeps s (t.endService n) := by
  unfold State.endService
  dsimp only
  split
  · exact .ite ((Keeps.ite h.same.haltCover.same h.same.haltCover).same) h.same.haltCover
  · exact h

theorem Keeps.threadEnd {n : Nat} {f : State → Nat → State} (h : Keeps s t) (hf : ∀ u k, Keeps s u → Keeps s (f u k)) :
    Keeps s (t.threadEnd n f) := by
  unfold State.threadEnd
  split
  · exact hf _ _ h.freeThread
  · exact h.endService

theorem Keeps.engineEnd {k e : Nat} {isolated : Bool} (h : Keeps s t) : Keeps s (t.engineEnd k e isolated) :=
  h.foldl fun _ _ h1 => (h1.threadEnd fun _ _ h2 => .ite h2.isolEnd h2.excEnd).same

theorem Keeps.clusterOff {k : Nat} (h : Keeps s t) : Keeps s (t.clusterOff k) := by
  unfold State.clusterOff
  exact ((h.foldl fun _ _ h1 => h1.engineEnd).same.foldl fun _ _ h1 => h1.isolEnd).same.event

theorem Keeps.isolateEngine {k e : Nat} (h : Keeps s t) : Keeps s (t.isolateEngine k e) :=
  .ite h.same.same <| .ite h <| .opt
      ((Keeps.unless (.ite h.engineEnd.same (.ite h.engineEnd h.engineEnd.same)) Keeps.rfl.same.same).event.degrade)
      Keeps.rfl.clusterOff

theorem Keeps.placeDelay {n u count : Nat} {c : Ctx} (h : Keeps s t) : Keeps s (t.placeDelay n u count c) :=
  h.freeThread.same

/-! ### Flow records -/

theorem Keeps.setRecWords {i : Nat} {l : List Word64} (h : Keeps s t) : Keeps s (t.setRecWords i l) :=
  h.foldl fun _ _ h1 => h1.same
theorem Keeps.useRec {sl i : Nat} {dirty : Bool} (h : Keeps s t) : Keeps s (t.useRec sl i dirty).2 := h.same
theorem Keeps.useBkt {sl g : Nat} {dirty : Bool} (h : Keeps s t) : Keeps s (t.useBkt sl g dirty).2 := h.same

theorem Keeps.readRec {sl i : Nat} {alloc : Bool} (h : Keeps s t) : Keeps s (t.readRec sl i alloc).2 := by
  unfold State.readRec
  dsimp only
  split
  · split
    · exact h.useRec.bump
    · exact h.useRec
  · exact h

theorem Keeps.dirtyRec {sl i : Nat} {alloc : Bool} (h : Keeps s t) : Keeps s (t.dirtyRec sl i alloc) := .ite h.useRec h

theorem Keeps.readBkt {sl g : Nat} (h : Keeps s t) : Keeps s (t.readBkt sl g).2 := by
  have hu : Keeps s (t.useBkt sl g false).2 := h.useBkt
  unfold State.readBkt
  split
  next m u he =>
    rw [he] at hu
    extract_lets v k _ w x _ y
    have hv : Keeps s v := .unless hu Keeps.rfl.bump
    clear_value v
    split
    · have hx : Keeps s x := Keeps.foldl hv.same fun _ _ h => h.same
      clear_value x
      have hy : Keeps s y := hx.same
      clear_value y
      exact hy.bump.safety
    · exact hv

theorem Keeps.findIn {sl p fp : Nat} {key : List Word64} {xs : List Nat} {m : Bool} (h : Keeps s t) :
    Keeps s (t.findIn sl p fp key xs m).2.1 := by
  induction xs generalizing t m with
  | nil => exact h
  | cons x xs ih =>
    unfold State.findIn
    dsimp only
    split
    · split
      · exact h.readRec
      · split
        · exact h.readRec
        · exact ih h.readRec.bump
    · exact ih h

theorem Keeps.findKey {sl p : Nat} {key : List Word64} (h : Keeps s t) : Keeps s (t.findKey sl p key).2.1 := by
  unfold State.findKey
  dsimp only
  exact h.readBkt.readBkt.findIn

theorem Keeps.jchange {l : List JEntry} (h : Keeps s t) : Keeps s (t.jchange l) :=
  (h.foldl fun _ _ h1 => h1.same).bump.occur
theorem Keeps.jInsert {i : Nat} (h : Keeps s t) : Keeps s (t.jInsert i) := h.jchange
theorem Keeps.jDelete {i : Nat} (h : Keeps s t) : Keeps s (t.jDelete i) := h.jchange
theorem Keeps.jWrite {i w : Nat} (h : Keeps s t) : Keeps s (t.jWrite i w) := h.jchange

theorem Keeps.fMove {sl x y : Nat} (h : Keeps s t) : Keeps s (t.fMove sl x y) := by
  unfold State.fMove
  dsimp only
  refine .useBkt (.opt (.same (.same ?_)) Keeps.rfl.useBkt)
  split
  · exact h.pickUp
  · exact h

theorem Keeps.fMoves {sl : Nat} {l : List Nat} (h : Keeps s t) : Keeps s (t.fMoves sl l) := by
  unfold State.fMoves
  dsimp only
  refine .foldl h fun _ _ h1 => ?_
  split
  · exact h1.fMove.occur
  · exact h1

theorem Keeps.fSearch {sl v n g : Nat} {alloc m : Bool} {path : List Nat} (h : Keeps s t) :
    Keeps s (t.fSearch sl v alloc n g path m).st := by
  induction n generalizing t g path m with
  | zero => exact h
  | succ n ih =>
    unfold State.fSearch
    dsimp only
    split
    · exact h.passedOver
    · have hr {l : List (Option Nat)} {i : Nat} : Keeps s ((t.passedOver l).readRec sl i alloc).2 := h.passedOver.readRec
      split
      · exact hr
      · split
        · exact hr.readBkt
        · exact ih hr.readBkt

theorem Keeps.fPlace {sl : Nat} {e : FEntry} {key : List Word64} {alloc : Bool} (h : Keeps s t) :
    Keeps s (t.fPlace sl e key alloc).2.1 := by
  unfold State.fPlace
  dsimp only
  split
  · exact h.same.same.useBkt
  · exact h.same.same.useBkt
  · split
    · exact h.same.fSearch
    · split
      · exact h.same.fSearch.fMoves.same.useBkt
      · exact h.same.fSearch.fMoves
    · split
      · exact h.same.fSearch.same
      · exact h.same.fSearch

theorem Keeps.fDrain {sl g : Nat} (h : Keeps s t) : Keeps s (t.fDrain sl g) := by
  unfold State.fDrain
  dsimp only
  split
  · exact h.passedOver.fMove
  · exact h.passedOver

theorem Keeps.fDeleteM {sl i : Nat} {alloc : Bool} (h : Keeps s t) : Keeps s (t.fDeleteM sl i alloc).2 := by
  unfold State.fDeleteM
  dsimp only
  split
  · exact (Keeps.ite h.readBkt.readBkt.jDelete h.readBkt.readBkt).same.dirtyRec.same.same
  · exact .opt ((Keeps.ite h.readBkt.readBkt.jDelete h.readBkt.readBkt).same.dirtyRec.same.same.same)
        Keeps.rfl.useBkt.fDrain

theorem Keeps.fDelete {sl i : Nat} {alloc : Bool} (h : Keeps s t) : Keeps s (t.fDelete sl i alloc) := h.fDeleteM

theorem Keeps.recEcc {sl i : Nat} {miss alloc : Bool} (h : Keeps s t) : Keeps s (t.recEcc sl i miss alloc).st := by
  unfold State.recEcc
  refine .safety (.bump ?_)
  split
  · exact h.same.fDeleteM
  · exact h.same

theorem Keeps.byIndex {sl : Nat} {o : FlowOp} {f : Nat → Bool → State → OpRes} (h : Keeps s t)
    (hf : ∀ i m u, Keeps s u → Keeps s (f i m u).st) : Keeps s (t.byIndex sl o f).st := by
  have hr {i : Nat} := h.readRec (sl := sl) (i := i) (alloc := true)
  unfold State.byIndex
  dsimp only
  split
  · exact h
  · split
    · exact hr.recEcc
    · split
      · exact hr
      · split
        · exact hr
        · exact hf _ _ _ hr

theorem Keeps.byKey {sl : Nat} {o : FlowOp} {g : Bool → State → OpRes} {f : Nat → Bool → State → OpRes} (h : Keeps s t)
    (hg : ∀ m u, Keeps s u → Keeps s (g m u).st) (hf : ∀ i m u, Keeps s u → Keeps s (f i m u).st) :
    Keeps s (t.byKey sl o g f).st := by
  have hk {m : Bool} {u : State} {x : Found} (hu : t.findKey sl o.part (o.view.take 6) = (m, u, x)) : Keeps s u := by
    have := h.findKey (sl := sl) (p := o.part) (key := o.view.take 6)
    rwa [hu] at this
  unfold State.byKey
  split
  · exact hg _ _ (hk ‹_›)
  · exact hf _ _ _ (hk ‹_›)
  · exact (hk ‹_›).recEcc

theorem Keeps.noRecord {m : Bool} (h : Keeps s t) : Keeps s (noRecord m t).st := h
theorem Keeps.putW {sl i w : Nat} {v : Word64} (h : Keeps s t) : Keeps s (t.putW sl i w v) := h.same.dirtyRec
theorem Keeps.writeW {sl i w : Nat} {v : Word64} (h : Keeps s t) : Keeps s (t.writeW sl i w v) := .ite h.putW.jWrite h.putW

theorem Keeps.opAdd {sl : Nat} {mode : BitVec 2} {w : Nat} {v : Word64} {pkts i : Nat} {m : Bool} (h : Keeps s t) :
    Keeps s (t.opAdd sl mode w v pkts i m).st := by
  unfold State.opAdd
  split
  · exact h.putW.putW.putW
  · split
    · exact h
    · exact h.writeW

theorem Keeps.opCas {sl w : Nat} {cmp new : Word64} {uncond : Bool} {i : Nat} {m : Bool} (h : Keeps s t) :
    Keeps s (t.opCas sl w cmp new uncond i m).st := by
  unfold State.opCas
  dsimp only
  split
  · exact h
  · split
    · exact h.writeW
    · exact h

theorem Keeps.insertNew {sl : Nat} {o : FlowOp} {pers lb m : Bool} (h : Keeps s t) :
    Keeps s (t.insertNew sl o pers lb m).st := by
  unfold State.insertNew
  dsimp only
  split
  · exact h
  · split
    · exact h.bump
    · split
      · exact .opt (.opt ((h.same.fPlace.mid ‹_›).setRecWords.dirtyRec.same) Keeps.rfl.jInsert) Keeps.rfl.bump
      · exact (h.same.fPlace.mid ‹_›).same.bump
      · exact (h.same.fPlace.mid ‹_›).same.recEcc

theorem Keeps.opIns {sl : Nat} {o : FlowOp} {pers : Bool} (h : Keeps s t) : Keeps s (t.opIns sl o pers).st := by
  unfold State.opIns
  extract_lets lb absent present
  refine h.byKey (fun m u h => ?_) fun i m u h => .opt h Keeps.rfl.bump
  unfold absent
  split
  · exact h.bump
  · exact h.insertNew

theorem Keeps.opDel {sl i : Nat} {m : Bool} (h : Keeps s t) : Keeps s (opDel sl i m t).st := by
  unfold Machine.opDel
  dsimp only
  exact h.fDeleteM

theorem Keeps.opMeter {sl : Nat} {o : FlowOp} {bytes : Nat} {aware : Bool} {colour : Nat} (h : Keeps s t) :
    Keeps s (t.opMeter sl o bytes aware colour).st := by
  unfold State.opMeter
  extract_lets r
  have hr : Keeps s r.st := h.byIndex fun i m u h => by
    dsimp only
    split
    · exact h
    · exact Keeps.bump (.ite h h.putW.putW)
  split
  · exact hr
  · exact hr.bump

theorem Keeps.opSearch {i : Nat} {m : Bool} (h : Keeps s t) : Keeps s (opSearch i m t).st := h

theorem Keeps.ckptClose (h : Keeps s t) : Keeps s t.ckptClose := by
  unfold State.ckptClose
  split
  · exact .ite h.same h
  · exact h

theorem Keeps.opCkpt {sl i : Nat} (h : Keeps s t) : Keeps s (t.opCkpt sl i).st := by
  unfold State.opCkpt
  dsimp only
  split
  · refine .ckptClose (.same ?_)
    split
    · exact h.readRec.recEcc
    · split
      · exact h.readRec.same
      · exact h.readRec
  · exact h

theorem Keeps.applyOp {sl : Nat} {o : FlowOp} (h : Keeps s t) : Keeps s (t.applyOp sl o).st := by
  have none_ (m : Bool) (u : State) (h : Keeps s u) : Keeps s (Machine.noRecord m u).st := h
  unfold State.applyOp
  split
  · exact h.byKey none_ fun _ _ _ h => h
  · exact h.byIndex fun _ _ _ h => h.opAdd
  · exact h.byIndex fun _ _ _ h => h.opCas
  · exact h.opIns
  · exact h.byIndex fun _ _ _ h => h.opDel
  · exact h.opMeter
  · split
    · exact h.byIndex fun _ _ _ h => h.opSearch
    · exact h.byKey none_ fun _ _ _ h => h.opSearch
  · split
    · exact h.byIndex fun _ _ _ h => h.opDel
    · exact h.byKey none_ fun _ _ _ h => h.opDel
  · exact h.opCkpt

/-! ### Exact-match entries -/

theorem Keeps.emLookup {r p type : Nat} {key : Word64} (h : Keeps s t) : Keeps s (t.emLookup r p type key).2 := by
  unfold State.emLookup
  split
  · exact h.same
  · exact h

theorem Keeps.emMove {r x y : Nat} (h : Keeps s t) : Keeps s (t.emMove r x y) := by
  unfold State.emMove
  dsimp only
  refine .same (.same ?_)
  split
  · exact h.pickUp
  · exact h

theorem Keeps.emPlace {r : Nat} {e : EmEntry} (h : Keeps s t) : Keeps s (t.emPlace r e).1 := by
  unfold State.emPlace
  dsimp only
  split
  · exact h.passedOver.same.same
  · split
    · refine .same (.bump (.foldl h.passedOver.same fun _ _ h1 => ?_))
      split
      · exact h1.emMove
      · exact h1
    · refine .bump (.foldl h.passedOver.same fun _ _ h1 => ?_)
      split
      · exact h1.emMove
      · exact h1
  · split
    · exact h.passedOver.same
    · split
      · exact h.passedOver.same.same.bump
      · exact h.passedOver.same

theorem Keeps.emDrain {r g : Nat} (h : Keeps s t) : Keeps s (t.emDrain r g) := by
  unfold State.emDrain
  dsimp only
  split
  · exact h.passedOver.emMove
  · exact h.passedOver

theorem Keeps.emDelete {r x : Nat} (h : Keeps s t) : Keeps s (t.emDelete r x) := .ite h.same.emDrain h.same

/-! ### Operands -/

theorem Keeps.hit {r a : Nat} (h : Keeps s t) : Keeps s (t.hit r a).2 := by
  unfold State.hit
  dsimp only
  split
  · exact h.same.same
  · split
    · exact h.same
    · exact h.same.same

theorem Keeps.watchAll {n : Nat} {write : Bool} {space : Nat} {spans : List (Nat × Nat)} (h : Keeps s t) :
    Keeps s (t.watchAll n write space spans) :=
  h.foldl fun _ _ h1 => .ite (.ite h1.hit.same h1.hit) h1

theorem Keeps.watch {n : Nat} {write : Bool} {space off len : Nat} (h : Keeps s t) :
    Keeps s (t.watch n write space off len) :=
  h.watchAll

/-! ### Engine instructions -/

theorem Keeps.turn {n prio : Nat} (h : Keeps s t) : Keeps s (t.turn n prio) := .ite h.join h
theorem Keeps.haltThread {n : Nat} {y : HaltCause} (h : Keeps s t) : Keeps s (t.haltThread n y) := h.same.same.coverage

theorem Keeps.boundary {n task : Nat} (h : Keeps s t) : Keeps s (t.boundary n task) := by
  unfold State.boundary
  dsimp only
  split
  · exact h
  · refine .ite h ?_
    split
    · exact h.same.turn.haltThread
    · exact .ite h.same.turn.haltThread h.same.turn

theorem Keeps.csFaultAt {n m : Nat} (h : Keeps s t) : Keeps s (t.csFaultAt n m) :=
  .opt ((h.same.threadEnd fun _ _ h1 => h1.excEnd).safety) Keeps.rfl.same
theorem Keeps.slotsSpent {n : Nat} {c : Ctx} {w : Word32} (h : Keeps s t) : Keeps s (t.slotsSpent n c w) := h.occur
theorem Keeps.issued {n : Nat} {c : Ctx} {w : Word32} (h : Keeps s t) : Keeps s (t.issued n c w) := .ite h h.slotsSpent

theorem Keeps.anything {n : Nat} {c : Ctx} (h : Keeps s t) : Keeps s (t.anything n c) := by
  unfold State.anything
  split
  · exact h.same
  · exact .ite h.same h.same.freeThread.bump.dropPkt
  · exact h.same.same

theorem Keeps.effect {n : Nat} {c : Ctx} {w : Word32} {bad : Bool} {body : Nat → Ctx → State → State} (h : Keeps s t)
    (hb : ∀ n c u, Keeps s u → Keeps s (body n c u)) : Keeps s (t.effect n c w bad body) :=
  (Keeps.ite h.anything (hb n c t h)).issued.boundary

theorem Keeps.issue {i : ThreadId} {w : Word32} {bad : Bool} {body : Nat → Ctx → State → State} (h : Keeps s t)
    (hb : ∀ n c u, Keeps s u → Keeps s (body n c u)) : Leads s (issue i w bad t body) := by
  unfold Machine.issue
  dsimp only
  split
  · exact h.next
  · split
    · split
      · exact h.csFaultAt.next
      · split
        · exact h.exception.safety.next
        · split
          · exact .ite h.hit.haltThread.next (h.hit.same.effect hb).next
          · exact (h.effect hb).next
    · exact h.next

theorem Keeps.goTo {n : Nat} {c : Ctx} {a : ℤ} (h : Keeps s t) : Keeps s (t.goTo n c a) := .ite h.same h.exception
theorem Keeps.retire {n : Nat} {c : Ctx} (h : Keeps s t) : Keeps s (t.retire n c) := h.goTo
theorem Keeps.waitAt {n : Nat} {g : Gate} (h : Keeps s t) : Keeps s (t.waitAt n g) := h.same.same

theorem Keeps.doAlu {rd : GReg} {f : Bool} {fn : Nat} {a b : Word64} {n : Nat} {c : Ctx} (h : Keeps s t) :
    Keeps s (doAlu rd f fn a b n c t) :=
  h.retire

theorem Keeps.codeEcc {n a : Nat} (h : Keeps s t) : Keeps s (t.codeEcc n a) := h.exception.safety

theorem Keeps.execLd {th : ThreadId} {rd : GReg} {space size : BitVec 2} {x : Bool} {ra : GReg} {off : Byte}
    (h : Keeps s t) : Leads s (execLd th rd space size x ra off t) := by
  unfold Machine.execLd
  refine .issue h fun _ _ _ h1 => ?_
  refine .ite h1.exception (.ite h1.waitAt ?_)
  split
  · exact h1.codeEcc
  · exact (Keeps.ite h1.watch h1).retire

theorem Keeps.storeBytes {c : Ctx} {sp a k : Nat} {v : Word64} (h : Keeps s t) : Keeps s (storeBytes t c sp a k v).2 := by
  unfold Machine.storeBytes
  dsimp only
  split
  · exact h.same
  · split <;> exact h

theorem Keeps.execTstamp {th : ThreadId} {rd : GReg} {sel : BitVec 3} {off : Byte} (h : Keeps s t) :
    Leads s (execTstamp th rd sel off t) := by
  unfold Machine.execTstamp
  refine .issue h fun _ _ _ h1 => ?_
  split <;> exact h1.retire

theorem Keeps.outstanding {c : Ctx} {tag : Nat} (h : Keeps s t) : Keeps s (t.outstanding c tag).2 := by
  unfold State.outstanding
  split
  · exact h.same
  · exact h

theorem Keeps.asyncIssue {n : Nat} {c : Ctx} {rd tag : GReg} {send : OpSrc → State → State} (h : Keeps s t)
    (hs : ∀ o u, Keeps s u → Keeps s (send o u)) : Keeps s (t.asyncIssue n c rd tag send) :=
  .ite h.waitAt (hs _ _ h.outstanding).retire

theorem Keeps.complete {via : Nat} {src : OpSrc} {res : Word64} {code : Nat} {fv : List (Nat × Word64)} {ecc : Bool}
    (h : Keeps s t) : Keeps s (t.complete via src res code fv ecc) := by
  unfold State.complete
  split
  · exact h.same
  · exact h

theorem Keeps.flowIssue {n : Nat} {c : Ctx} {rd tag : GReg} {sl : Nat} {kind : FlowKind} {i : Word64} (h : Keeps s t) :
    Keeps s (t.flowIssue n c rd tag sl kind i) :=
  .ite h.waitAt <| .ite h.same.waitAt h.outstanding.same.retire

theorem Keeps.execFlowAdd {th : ThreadId} {rd tag ra rb : GReg} {word : BitVec 4} {mode : BitVec 2} (h : Keeps s t) :
    Leads s (execFlowAdd th rd tag ra rb word mode t) :=
  h.issue fun _ _ _ h1 => .after (.ite (.ite Keeps.rfl.same.waitAt Keeps.rfl.same.retire) Keeps.rfl.flowIssue)
      (.ite h1 h1.watch)

theorem Keeps.execLkpLpm {th : ThreadId} {rd tag ra : GReg} {v6 : Bool} {off : Byte} (h : Keeps s t) :
    Leads s (execLkpLpm th rd tag ra v6 off t) :=
  h.issue fun _ _ _ h1 => .ite h1.exception <| .ite h1.waitAt <| (Keeps.ite h1 h1.watch).asyncIssue fun _ _ h2 => h2.same

theorem Keeps.issueHash {th : ThreadId} {op : Nat} {kind : HashKind} {rd tag : GReg} {space : BitVec 2} {len off : Byte}
    (h : Keeps s t) : Leads s (issueHash th op kind rd tag space len off t) := by
  unfold Machine.issueHash
  refine .issue h fun _ _ _ h1 => ?_
  refine .ite h1.exception (.ite h1.waitAt ?_)
  split
  · exact h1.codeEcc
  · exact (Keeps.ite h1.watch h1).asyncIssue fun _ _ h2 => h2.same

theorem Keeps.execMeter {th : ThreadId} {rd tag ra rb : GReg} {f c' : Bool} (h : Keeps s t) :
    Leads s (execMeter th rd tag ra rb f c' t) :=
  h.issue fun _ _ _ h1 => .after (.ite Keeps.rfl.flowIssue <| Keeps.rfl.asyncIssue fun _ _ h2 => h2.same) (.ite h1.watch h1)

theorem Keeps.execWait {th : ThreadId} {kind : BitVec 2} {cnt : BitVec 9} (h : Keeps s t) :
    Leads s (execWait th kind cnt t) := by
  unfold Machine.execWait
  refine .issue h fun _ _ _ h1 => ?_
  split
  · exact .ite h1.retire h1.waitAt
  · exact .ite h1.retire h1.waitAt
  · exact .ite h1.waitAt h1.retire

theorem Keeps.execDelay {th : ThreadId} {unit : BitVec 2} {x : Bool} {ra : GReg} {count : Half} (h : Keeps s t) :
    Leads s (execDelay th unit x ra count t) :=
  h.issue fun _ _ _ h1 => .ite h1.waitAt <| .ite h1.join.retire <| .ite h1.exception (.ite h1.placeDelay h1.bump.waitAt)

theorem Keeps.endThread {n : Nat} (h : Keeps s t) : Keeps s (t.endThread n) := h.freeThread

theorem Keeps.mirrorOf {d : Desc} {session : Nat} (h : Keeps s t) : Keeps s (t.mirrorOf d session).1 := by
  unfold State.mirrorOf
  split
  · exact h
  · split
    · exact (h.refInc ‹_›)
    · exact h.bump

theorem Keeps.execEmit {th : ThreadId} {q m : Bool} {ra : GReg} (h : Keeps s t) : Leads s (execEmit th q m ra t) := by
  unfold Machine.execEmit
  dsimp only
  refine .issue h fun _ _ _ h1 => ?_
  refine .ite h1.waitAt (.ite h1.exception ?_)
  split
  · exact h1.exception
  · refine .ite (.verOut (.robEnd (.endThread ?_))) h1.exception
    split
    · exact h1.mirrorOf
    · exact h1

theorem Keeps.execTrap {th : ThreadId} {ring : BitVec 6} {code : Byte} (h : Keeps s t) :
    Leads s (execTrap th ring code t) := by
  unfold Machine.execTrap
  refine .issue h fun _ _ _ h1 => ?_
  refine .ite h1.waitAt (.ite h1.exception ?_)
  split
  · exact h1.exception
  · exact h1.endThread.robEnd.verOut

theorem Keeps.execRecirc {th : ThreadId} (h : Keeps s t) : Leads s (execRecirc th t) := by
  unfold Machine.execRecirc
  refine .issue h fun _ _ _ h1 => ?_
  refine .ite h1.waitAt (.ite h1.exception (.ite h1.exception ?_))
  split
  · exact h1.exception
  · exact .ite h1.endThread.bump.dropPkt h1.endThread.same.same.pauses

/-! ### The Hopper -/

theorem Keeps.cacheReturn {k : Nat} (h : Keeps s t) : Keeps s (t.cacheReturn k) := h.foldl fun _ _ h1 => h1.same.same
theorem Keeps.cacheLevel (h : Keeps s t) : Keeps s t.cacheLevel := .ite h.cacheReturn (.ite h.cacheReturn h)

theorem Keeps.ringPurge {f : Nat} (h : Keeps s t) : Keeps s (t.ringPurge f) := by
  induction f generalizing t with
  | zero => exact h
  | succ f ih =>
    unfold State.ringPurge
    split
    · exact .ite (ih h.same) h
    · exact h

theorem Keeps.purge (h : Keeps s t) : Keeps s t.purge := h.ringPurge

theorem Keeps.ringTake {c : Nat} {u : State} (h : Keeps s t) (hu : t.ringTake = some (c, u)) : Keeps s u := by
  unfold State.ringTake at hu
  split at hu
  · cases hu
    exact h.same.purge
  · cases hu

theorem Keeps.cacheTake {r n : Nat} (h : Keeps s t) : Keeps s (t.cacheTake r n) := by
  induction n generalizing t with
  | zero => exact h
  | succ n ih =>
    unfold State.cacheTake
    split
    · exact ih (h.ringTake ‹_›).same
    · exact h

theorem Keeps.cacheFill {r : Nat} (h : Keeps s t) : Keeps s (t.cacheFill r) := .ite (.ite h.cacheTake h.same.same.purge) h

theorem Keeps.cacheHit {k : Nat} {x : Nat × State} (h : Keeps s t)
    (hx : (match runTake (t.cache k) with
      | some (c, l) => some (c, t.setCache k l)
      | none => none) = some x) : Keeps s x.2 := by
  split at hx
  · cases hx
    exact h.same
  · cases hx

theorem Keeps.takeCell {r : Option Nat} {c : Nat} {u : State} (h : Keeps s t) (hu : t.takeCell r = some (c, u)) :
    Keeps s u := by
  have refill (r : Option Nat) (v : State) (hv : Keeps s v) : Keeps s (match r with
      | some r => (v.cacheFill r).cacheLevel
      | none => v.cacheLevel) := by
    cases r with
    | some r => exact hv.cacheFill.cacheLevel
    | none => exact hv.cacheLevel
  unfold State.takeCell at hu
  dsimp only at hu
  split at hu
  next hf =>
    cases hu
    obtain ⟨k, -, hk⟩ := Option.bind_eq_some_iff.1 hf
    exact refill r _ (h.cacheHit hk)
  next =>
    split at hu
    · cases hu
      exact refill r _ (h.ringTake ‹_›)
    · obtain ⟨k, -, hk⟩ := List.exists_of_findSome?_eq_some hu
      exact h.cacheHit hk

theorem Keeps.charge {o c ownp : Nat} {host head : Bool} {g : Grant} (h : Keeps s t) :
    Keeps s (t.charge o c ownp host head g) :=
  .opt h.same.occur.same Keeps.rfl.same

theorem Keeps.grant {o ownp c : Nat} {r : Option Nat} {host head : Bool} {u : State} (h : Keeps s t)
    (hu : t.grant o r ownp host head = .inl (c, u)) : Keeps s u := by
  unfold State.grant at hu
  split at hu
  · cases hu
  · split at hu
    · cases hu
      exact (h.takeCell ‹_›).charge
    · cases hu

theorem Keeps.grantAll {o ownp n : Nat} {host head : Bool} {l : List Nat} {u : State} (h : Keeps s t)
    (hu : t.grantAll o ownp host n head = .inl (l, u)) : Keeps s u := by
  induction n generalizing t head l with
  | zero =>
    cases hu
    exact h
  | succ n ih =>
    unfold State.grantAll at hu
    split at hu
    · cases hu
    · split at hu
      · cases hu
      · cases hu
        exact ih (h.grant ‹_›) ‹_›

theorem Keeps.pauseEnd {o : Nat} (h : Keeps s t) : Keeps s (t.pauseEnd o) := .ite h.same.same h
theorem Keeps.pauseEnds (h : Keeps s t) : Keeps s t.pauseEnds := h.foldl fun _ _ h1 => h1.pauseEnd
theorem Keeps.freeCell {c : Nat} (h : Keeps s t) : Keeps s (t.freeCell c) :=
  (Keeps.after (.ite Keeps.rfl.same Keeps.rfl.same) h.same.occur.same).pauseEnds
theorem Keeps.freePkt {k : Nat} (h : Keeps s t) : Keeps s (t.freePkt k) := (h.foldl fun _ _ h1 => h1.freeCell).same.same

theorem Keeps.quarCell {c : Nat} (h : Keeps s t) : Keeps s (t.quarCell c) := by
  unfold State.quarCell
  dsimp only
  split
  · exact h.same.same.same
  · exact h.same.purge

theorem Keeps.refFault {c : Nat} (h : Keeps s t) : Keeps s (t.refFault c) :=
  (h.foldl fun _ _ h1 => h1.quarCell).bump.safety.same

theorem Keeps.decRef {c gen : Nat} (h : Keeps s t) : Keeps s (t.decRef c gen) := by
  unfold State.decRef
  refine .ite h.refFault (.ite ?_ h.same)
  split
  · exact h.same.freePkt
  · exact h.same.freeCell

theorem Keeps.execRefRelease (h : Keeps s t) : Leads s (execRefRelease t) := by
  unfold Machine.execRefRelease
  split
  · exact h.next
  · exact .ite h.same.decRef.next h.next

theorem Keeps.linkCell {p : Packet} {c : Nat} (h : Keeps s t) : Keeps s (t.linkCell p c) := by
  unfold State.linkCell
  split
  · exact h.same
  · exact h

theorem Keeps.countRx {p : Packet} (h : Keeps s t) : Keeps s (t.countRx p) := h.bump.bump

theorem Keeps.frameDecide {owner k : Nat} (h : Keeps s t) : Keeps s (t.frameDecide owner k) := by
  unfold State.frameDecide
  dsimp only
  split
  · exact .opt ((h.grant ‹_›).linkCell.same) Keeps.rfl.countRx
  · exact h.bump.same.same

theorem Keeps.sluiceDrop {k : Nat} (h : Keeps s t) : Keeps s (t.sluiceDrop k) := h.same.verOut.freePkt

theorem Keeps.execNoCellDrop (h : Keeps s t) : Leads s (execNoCellDrop t) := by
  unfold Machine.execNoCellDrop
  split
  · exact h.next
  · exact .after (.ite Keeps.rfl.same.bump.next ((Keeps.ite Keeps.rfl.countRx Keeps.rfl).sluiceDrop.next))
        (.ite h.same.bump.bump h.same.bump)

/-! ### Threads and tasks -/

theorem Keeps.takeInt {n : Nat} {i : Ints} (h : Keeps s t) : Keeps s (t.takeInt n i) := by
  unfold State.takeInt
  refine .ite (.ite (.ite h.exception h.endService) h) ?_
  split
  · exact .ite h.exception.safety <| .ite h.exception <| .ite h.exception (.ite h.same.haltThread h.same)
  · split
    · exact h.same
    · exact .ite h.endService.safety <| .ite h.endService <| .ite h.same.haltThread (.ite h.endService h)

theorem Keeps.execInterruptTaken {th : ThreadId} {ecc : Bool} (h : Keeps s t) : Leads s (execInterruptTaken th ecc t) := by
  unfold Machine.execInterruptTaken
  refine .ite ?_ h.next
  split
  · exact h.csFaultAt.next
  · exact h.takeInt.next

theorem Keeps.execGateConditionTrue {th : ThreadId} (h : Keeps s t) : Leads s (execGateConditionTrue th t) := by
  unfold Machine.execGateConditionTrue
  dsimp only
  split
  · exact .ite (.ite h.same.next h.same.join.next) h.next
  · exact h.next

theorem Keeps.wrongAnswer {c : Ctx} {k : Completion} (h : Keeps s t) : Keeps s (t.wrongAnswer c k).2.2 := by
  unfold State.wrongAnswer
  split
  · exact h.same.same
  · exact h

theorem Keeps.execAsyncComplete {th : ThreadId} {tag : GReg} {ecc : Bool} (h : Keeps s t) :
    Leads s (execAsyncComplete th tag ecc t) := by
  unfold Machine.execAsyncComplete
  dsimp only
  split
  · exact h.next
  · refine .ite ?_ h.next
    split
    · exact h.same.next
    · exact .ite h.same.next <| .ite h.same.same.next h.same.wrongAnswer.watchAll.same.next

theorem Keeps.execHashApply {race : RaceId} {cluster : ClusterId} (h : Keeps s t) :
    Leads s (execHashApply race cluster t) := by
  unfold Machine.execHashApply
  dsimp only
  split
  · exact h.next
  · exact .ite h.same.complete.next h.next

theorem Keeps.begin_ {n : Nat} {c : Ctx} (h : Keeps s t) : Keeps s (t.begin_ n c) := .ite h.startOn.exception h.startOn

theorem Keeps.execTaskDeal {race : RaceId} (h : Keeps s t) : Leads s (execTaskDeal race t) := by
  unfold Machine.execTaskDeal
  dsimp only
  split
  · exact .ite h.same.begin_.occur.pauses.next h.next
  · exact h.next

theorem Keeps.execDueTaskTake {race : RaceId} {cluster : ClusterId} (h : Keeps s t) :
    Leads s (execDueTaskTake race cluster t) := by
  unfold Machine.execDueTaskTake
  dsimp only
  split
  · exact .ite h.same.startOn.next h.next
  · exact h.next

theorem Keeps.execHeldPassEnqueue {race : RaceId} (h : Keeps s t) : Leads s (execHeldPassEnqueue race t) := by
  unfold Machine.execHeldPassEnqueue
  dsimp only
  split
  · exact .ite h.same.pauses.next h.next
  · exact h.next

theorem Keeps.leaveList {r : Nat} {d : Delayed} (h : Keeps s t) : Keeps s (t.leaveList r d) :=
  .ite h.same.isolEnd h.same.same

theorem Keeps.execDelayEntryObtained {th : ThreadId} (h : Keeps s t) : Leads s (execDelayEntryObtained th t) := by
  unfold Machine.execDelayEntryObtained
  dsimp only
  split
  · exact .ite h.placeDelay.slotsSpent.next h.next
  · exact h.next

theorem Keeps.addPkt {p : Packet} (h : Keeps s t) : Keeps s (t.addPkt p).2 := h.same.same
theorem Keeps.replace {r j : Nat} (h : Keeps s t) : Keeps s (t.replace r j) := .ite h.same h.same.bump

theorem Keeps.stampOne {r : Nat} {d : Delayed} (h : Keeps s t) : Keeps s (t.stampOne r d) := by
  unfold State.stampOne
  split
  · exact .ite h.same h.same.same
  · exact h

theorem Keeps.stampFirings {r : Nat} (h : Keeps s t) : Keeps s (t.stampFirings r) := h.foldl fun _ _ h1 => h1.stampOne

theorem Keeps.skipFiring {r j cnt : Nat} {d : Delayed} (h : Keeps s t) : Keeps s (t.skipFiring r j cnt d) := by
  unfold State.skipFiring
  split
  · exact .ite h.bump.replace h.bump.replace.verOut
  · exact h.bump.replace

theorem Keeps.fireTimer {r j : Nat} {d : Delayed} (h : Keeps s t) : Keeps s (t.fireTimer r j d) := by
  unfold State.fireTimer
  split
  · exact h
  · refine .ite h.skipFiring ?_
    split
    · exact h.skipFiring
    · exact h.same

theorem Keeps.keepaliveDecide {r j : Nat} (h : Keeps s t) : Keeps s (t.keepaliveDecide r j) := by
  unfold State.keepaliveDecide
  dsimp only
  split
  · exact h
  · split
    · exact h.skipFiring
    · split
      · exact h.bump.skipFiring
      · exact (h.grant ‹_›).addPkt.same.replace.pauses

theorem Keeps.enterExpiry {r : Nat} {d : Delayed} (h : Keeps s t) : Keeps s (t.enterExpiry r d) := by
  unfold State.enterExpiry
  dsimp only
  split
  · exact h.same.bump.same
  · split
    · exact h.same.bump.same
    · exact h.same.same.same.same.pauses

theorem Keeps.enterBare {r : Nat} {d : Delayed} (h : Keeps s t) : Keeps s (t.enterBare r d) := by
  unfold State.enterBare
  refine .ite ?_ h
  split
  · exact h.fireTimer
  · exact h.enterExpiry

theorem Keeps.enterInOrder {r : Nat} {l : List Delayed} (h : Keeps s t) : Keeps s (t.enterInOrder r l) := by
  induction l generalizing t with
  | nil => exact h
  | cons d l ih => exact .ite (ih h.enterBare) h

theorem Keeps.execKeepaliveFire {race : RaceId} {timer : Fin 4096} (h : Keeps s t) :
    Leads s (execKeepaliveFire race timer t) := by
  unfold Machine.execKeepaliveFire
  dsimp only
  split
  · exact h.next
  · exact .ite h.stampFirings.enterBare.next h.next

theorem Keeps.execDueTaskEnqueue {race : RaceId} {unit : Fin 4} (h : Keeps s t) :
    Leads s (execDueTaskEnqueue race unit t) := by
  unfold Machine.execDueTaskEnqueue
  dsimp only
  split
  · exact h.stampFirings.next
  · exact h.stampFirings.enterBare.next

theorem Keeps.execReorderTimeout {race : RaceId} (h : Keeps s t) : Leads s (execReorderTimeout race t) := by
  unfold Machine.execReorderTimeout
  dsimp only
  split
  · exact h.next
  · refine .ite (.next (.robDrop ?_)) h.next
    split
    · exact h.same.bump.leaveAll
    · exact h.same.bump

theorem Keeps.execBudgetWatchdog {race : RaceId} {task : Nat} (h : Keeps s t) :
    Leads s (execBudgetWatchdog race task t) := by
  unfold Machine.execBudgetWatchdog
  refine .ite h.next ?_
  split
  · exact h.same.next
  · split
    · exact h.same.excEnd.next
    · exact h.next

/-! ### Parser and classifier -/

theorem Keeps.sideLookup {p : Packet} {k : ParseWalk} {sel type : Nat} (h : Keeps s t) :
    Keeps s (t.sideLookup p k sel type).2.2 := by
  unfold State.sideLookup
  dsimp only
  split <;> exact (h.emLookup.snd ‹_›).bump

theorem Keeps.enqueueTask {r : Nat} {y : Machine.Task} (h : Keeps s t) : Keeps s (t.enqueueTask r y) :=
  .ite h.same.pauses h.same.pauses

theorem Keeps.classify {k : Nat} {w : ParseWalk} {mal : Nat} (h : Keeps s t) : Keeps s (t.classify k w mal) := by
  unfold State.classify
  extract_lets p r vd hit u act0 act1 rule cls colour queue 
  have hu : Keeps s u := h.bump
  clear_value u
  have hl {v : State} {c : Prop} [Decidable c] {sel ty : Nat} (hv : Keeps s v) :
      Keeps s (if c then v.sideLookup p w sel ty else (0, 0, v)).2.2 := by
    split
    · exact hv.sideLookup
    · exact hv
  split
  next he =>
    have h0 := (hl hu).last he
    split
    next he =>
      have h1 := (hl h0).last he
      extract_lets entry v
      have hv : Keeps s v := .ite h1 h1.same
      clear_value v entry
      split
      · exact hv.bump.dropPkt
      · exact hv.enqueueTask

theorem Keeps.malformed {k : Nat} {w : ParseWalk} {code : Nat} (h : Keeps s t) : Keeps s (t.malformed k w code) := by
  unfold State.malformed
  dsimp only
  split
  · exact h.bump.dropPkt
  · exact h.bump.trapNow
  · exact h.bump.classify

theorem Keeps.admitPass {k : Nat} (h : Keeps s t) : Keeps s (t.admitPass k) := by
  unfold State.admitPass
  dsimp only
  refine .ite ?_ (.ite h.same.bump.dropPkt ?_)
  · split
    · exact h.malformed
    · exact h.classify
  · split
    · exact h.same.malformed
    · exact h.same.classify

theorem Keeps.execParserAdmit {race : RaceId} (h : Keeps s t) : Leads s (execParserAdmit race t) := by
  unfold Machine.execParserAdmit
  dsimp only
  split
  · exact h.next
  · exact .ite h.same.same.occur.pauses.admitPass.next h.next

theorem Keeps.execLeatAdmit {race : RaceId} (h : Keeps s t) : Leads s (execLeatAdmit race t) := by
  unfold Machine.execLeatAdmit
  dsimp only
  split
  · exact h.next
  · exact .ite h.same.occur.pauses.admitPass.next h.next

end

end Sys2Proof.Proofs

/-! PROOF. What every command keeps, of gates, queues, ports, settings, tables, network time and reads. -/

namespace Sys2Proof.Proofs

open Sys2Proof Sys2Proof.Machine Sys2Proof.Laws

section

variable {s t : State}

/-! ### Gates -/

theorem Keeps.settleCbs {n : Nat} (h : Keeps s t) : Keeps s (t.settleCbs n) := h.foldl fun _ _ h1 => .ite h1.same h1

/-! ### Shapers and queues -/

theorem Keeps.chargeNode {kind i len : Nat} (h : Keeps s t) : Keeps s (t.chargeNode kind i len) := by
  unfold State.chargeNode
  split
  · exact h
  · exact h.same

theorem Keeps.chargePath {q len : Nat} (h : Keeps s t) : Keeps s (t.chargePath q len) :=
  .ite h.chargeNode.chargeNode.chargeNode h.chargeNode
theorem Keeps.setPick {p : Picked} (h : Keeps s t) : Keeps s (t.setPick p) :=
  (h.foldl fun _ _ h1 => h1.same).foldl fun _ _ h1 => h1.same

theorem Keeps.tierKeeps {n : Nat} (h : Keeps s t) : Keeps s (t.tierKeeps n) := by
  unfold State.tierKeeps
  dsimp only
  split
  · exact .ite h h.setPick.same
  · exact h

theorem Keeps.pageFill {f : Nat} (h : Keeps s t) : Keeps s (t.pageFill f) := by
  induction f generalizing t with
  | zero => exact h
  | succ f ih => exact .ite (ih h.same) h

theorem Keeps.takePage {o ownp k : Nat} {host : Bool} {u : State} (h :
    Keeps s t) (hu : t.takePage o ownp host = some (k, u)) :
    Keeps s u := by
  unfold State.takePage at hu
  dsimp only at hu
  split at hu
  · split at hu
    · cases hu
      exact h.pageFill.same.pageFill.same
    · cases hu
  · cases hu

theorem Keeps.freePage {k : Nat} (h : Keeps s t) : Keeps s (t.freePage k) :=
  .unless h.same.same.same (.ite Keeps.rfl Keeps.rfl)

theorem Keeps.pieceRead {q k : Nat} (h : Keeps s t) : Keeps s (t.pieceRead q k) := by
  unfold State.pieceRead
  refine .ite (.freePage ?_) h.same
  split
  · exact .ite h.same.same h.same
  · exact h.same

theorem Keeps.tsqPost {p : Nat} {e : TsqEntry} (h : Keeps s t) : Keeps s (t.tsqPost p e) :=
  .ite (.ite h.same.irq h.same) h.bump.same
theorem Keeps.letGo {d : Desc} (h : Keeps s t) : Keeps s (t.letGo d) :=
  .ite (h.foldl fun _ _ h1 => h1.pieceRead) (.ite h h.same)

theorem Keeps.hostRead_ {d : Desc} (h : Keeps s t) : Keeps s (t.hostRead_ d) := by
  unfold State.hostRead_
  split
  · exact h.same
  · exact h

theorem Keeps.dropCopy {d : Desc} {port : Nat} (h : Keeps s t) : Keeps s (t.dropCopy d port) := by
  unfold State.dropCopy
  split
  · exact h.letGo.hostRead_.tsqPost
  · exact h.letGo.hostRead_

theorem Keeps.enqueue {d : Desc} {q : Nat} (h : Keeps s t) : Keeps s (t.enqueue d q) := by
  unfold State.enqueue
  refine .ite h.dropCopy ?_
  split
  · exact h.bump.dropCopy
  · exact .ite h.settleCbs.same.bump h.settleCbs.same

theorem Keeps.copyRef {d : Desc} {u : State} (h : Keeps s t) (hu : t.copyRef d = some u) : Keeps s u := by
  unfold State.copyRef at hu
  split at hu
  · exact h.refInc hu
  · cases hu
    exact h

theorem Keeps.copyTo {d : Desc} {q : Nat} (h : Keeps s t) : Keeps s (t.copyTo d q) := by
  unfold State.copyTo
  split
  · exact h.bump
  · exact .opt ((h.copyRef ‹_›).enqueue) Keeps.rfl.bump

theorem Keeps.replicate {d : Desc} {g : Nat} (h : Keeps s t) : Keeps s (t.replicate d g) :=
  (Keeps.ite h.bump <| .ite h.bump (h.foldl fun _ _ h1 => .ite h1 h1.copyTo)).letGo.hostRead_

/-! ### The Tailraces -/

theorem Keeps.execTailraceEnqueue {race : RaceId} (h : Keeps s t) : Leads s (execTailraceEnqueue race t) := by
  unfold Machine.execTailraceEnqueue
  dsimp only
  split
  · exact h.next
  · exact .ite h.next (.ite h.next h.same.enqueue.next)

theorem Keeps.execMulticastReplicate (h : Keeps s t) : Leads s (execMulticastReplicate t) := by
  unfold Machine.execMulticastReplicate
  dsimp only
  split
  · exact h.next
  · refine .ite ?_ h.next
    split
    · exact h.same.replicate.next
    · exact h.same.bump.letGo.next

theorem Keeps.emptied {q : Nat} (h : Keeps s t) : Keeps s (t.emptied q) :=
  .ite h <| .ite (.unless (.unless (.ite h.same h.same.same) Keeps.rfl.same) Keeps.rfl.same) h.same
theorem Keeps.unqueue {q : Nat} {d : Desc} (h : Keeps s t) : Keeps s (t.unqueue q d) := h.settleCbs.same.emptied.same
theorem Keeps.ownFault {n : Nat} {d : Desc} (h : Keeps s t) : Keeps s (t.ownFault n d) := .ite h.safety.same h.bump

theorem Keeps.hostFrame {d : Desc} (h : Keeps s t) : Keeps s (t.hostFrame d).2 := by
  unfold State.hostFrame
  dsimp only
  split
  · exact h.same
  · exact h

theorem Keeps.spillPieces {q owner part f : Nat} {bytes : List Byte} {ps : List (Nat × Nat × Nat)} (h : Keeps s t) :
    Keeps s (t.spillPieces q owner part f bytes ps).2.2 := by
  induction f generalizing t bytes ps with
  | zero => exact h
  | succ f ih =>
    unfold State.spillPieces
    dsimp only
    split
    · exact h
    · split
      · exact ih (h.wf fun ⟨hp, hd, hs, hn, hh⟩ => ⟨hp, setBytes_wf _ _ _ hd, hs, hn, hh⟩)
      · split
        · exact ih (h.takePage ‹_›).same
        · exact h

theorem Keeps.execSpillWrite {queue : Nat} (h : Keeps s t) : Leads s (execSpillWrite queue t) := by
  unfold Machine.execSpillWrite
  dsimp only
  split
  · exact h.next
  · exact .ite h.next <| .ite h.unqueue.dropCopy.next <| .ite h.unqueue.ownFault.dropCopy.next <|
        .ite h.hostFrame.spillPieces.same.letGo.hostRead_.next
        ((h.hostFrame.spillPieces.foldl fun _ _ h1 => h1.pieceRead).unqueue.bump.dropCopy.next)

theorem Keeps.payDeficits {q len : Nat} (h : Keeps s t) : Keeps s (t.payDeficits q len) := .ite h.same.same.same.same h.same
theorem Keeps.gateEvent {n q : Nat} (h : Keeps s t) : Keeps s (t.gateEvent n q) := h.bump.safety.same
theorem Keeps.startChecked {n q : Nat} (h : Keeps s t) : Keeps s (t.startChecked n q) := .ite h h.gateEvent
theorem Keeps.crcNoted {j : Nat} (h : Keeps s t) : Keeps s (t.crcNoted j) := .ite h.same.safety.same h.same
theorem Keeps.crcFailed {n : Nat} (h : Keeps s t) : Keeps s (t.crcFailed n) := h.safety.same.crcNoted

theorem Keeps.startTx {n q : Nat} (h : Keeps s t) : Keeps s (t.startTx n q) := by
  unfold State.startTx
  dsimp only
  split
  · exact h.same
  · exact .after (.ite Keeps.rfl.bump.dropCopy <| .ite Keeps.rfl.dropCopy <|
        .ite Keeps.rfl.ownFault.dropCopy
        ((Keeps.opt Keeps.rfl.hostFrame.same.chargePath.payDeficits.emptied Keeps.rfl.crcFailed).same.startChecked))
        h.same.emptied.occur.same

theorem Keeps.trySend {n q : Nat} (h : Keeps s t) : Keeps s (t.trySend n q) := by
  unfold State.trySend
  split
  · exact h.same
  · exact .ite h.startTx h.same

theorem Keeps.suspend {n b : Nat} {y : Tx} (h : Keeps s t) : Keeps s (t.suspend n b y) :=
  .ite h.same.bump.gateEvent h.same.bump
theorem Keeps.preempt {n : Nat} {y : Tx} (h : Keeps s t) : Keeps s (t.preempt n y) := .ite h.suspend h
theorem Keeps.resume {n : Nat} {y : Tx} (h : Keeps s t) : Keeps s (t.resume n y) := .ite h.same h
theorem Keeps.sendPause {n : Nat} {l : List (Nat × Nat)} (h : Keeps s t) : Keeps s (t.sendPause n l) :=
  h.same.same.same.bump

theorem Keeps.choose {n : Nat} (h : Keeps s t) : Keeps s (t.choose n) := by
  unfold State.choose
  split
  · exact h.setPick.trySend
  · split
    · exact h.resume
    · split
      · exact h.setPick.trySend
      · exact h

theorem Keeps.finish {n : Nat} (h : Keeps s t) : Keeps s (t.finish n) := by
  unfold State.finish
  dsimp only
  split
  · exact .ite h.settleCbs.resume h
  · exact h

theorem Keeps.execPortSelect {port : PortId} (h : Keeps s t) : Leads s (execPortSelect port t) := by
  unfold Machine.execPortSelect
  dsimp only
  refine .ite h.finish.next ?_
  split
  · exact .ite h.settleCbs.tierKeeps.preempt.next h.settleCbs.tierKeeps.next
  · refine .ite h.settleCbs.tierKeeps.next (.ite h.settleCbs.tierKeeps.sendPause.next ?_)
    split
    · exact .ite h.settleCbs.tierKeeps.trySend.next h.settleCbs.tierKeeps.same.choose.next
    · exact h.settleCbs.tierKeeps.choose.next

theorem Keeps.execFrameTxDone {port : PortId} (h : Keeps s t) : Leads s (execFrameTxDone port t) := by
  unfold Machine.execFrameTxDone
  dsimp only
  split
  · exact h.next
  · refine .ite h.next (.next (.hostRead_ (.letGo ?_)))
    split
    · exact (Keeps.opt (.unless (.unless (.opt h.settleCbs.same.bump.bump Keeps.rfl.bump) Keeps.rfl.bump)
          Keeps.rfl.ownFault) Keeps.rfl.gateEvent).same.tsqPost
    · exact (Keeps.opt (.unless (.unless (.opt h.settleCbs.same.bump.bump Keeps.rfl.bump) Keeps.rfl.bump)
          Keeps.rfl.ownFault) Keeps.rfl.gateEvent).same

theorem Keeps.closeCut {n : Nat} (h : Keeps s t) : Keeps s (t.closeCut n) := by
  unfold State.closeCut
  dsimp only
  split
  · split
    · exact .ite h h.suspend.bump
    · exact h
  · exact h

theorem Keeps.holdOp {n op : Nat} (h : Keeps s t) : Keeps s (t.holdOp n op) := by
  unfold State.holdOp
  refine .ite ?_ (.ite h.same h)
  split
  · exact .ite h.same h.same.preempt
  · exact h.same

theorem Keeps.oversizeAt {n c i slot q : Nat} (h : Keeps s t) : Keeps s (t.oversizeAt n c i slot q) := by
  unfold State.oversizeAt
  split
  · exact h
  · exact .ite (.ite h.same.unqueue.bump.dropCopy h.same) h.same

theorem Keeps.oversizes {n i old : Nat} (h : Keeps s t) : Keeps s (t.oversizes n i old) := by
  unfold State.oversizes
  refine .foldl h fun _ _ h1 => ?_
  refine .ite (.ite ?_ h1.oversizeAt) h1
  split
  · exact h1.oversizeAt.oversizeAt
  · exact h1.oversizeAt

theorem Keeps.enterGate {n k i : Nat} (h : Keeps s t) : Keeps s (t.enterGate n k i) :=
  (Keeps.ite h.settleCbs.bump h.settleCbs).same.closeCut.holdOp.oversizes

theorem Keeps.execGateListSwitch {port : PortId} (h : Keeps s t) : Leads s (execGateListSwitch port t) := by
  unfold Machine.execGateListSwitch
  dsimp only
  split
  · exact h.next
  · exact .ite (.after (.ite Keeps.rfl.enterGate.next Keeps.rfl.closeCut.same.next) h.settleCbs.same.bump) h.next

theorem Keeps.unpiece {n : Nat} (h : Keeps s t) : Keeps s (t.unpiece n) := by
  unfold State.unpiece
  dsimp only
  split
  · exact .ite h h.same
  · exact h

theorem Keeps.gatesRestart (h : Keeps s t) : Keeps s t.gatesRestart :=
  h.foldl fun _ _ h1 => .ite h1.settleCbs.unpiece.same h1

/-! ### Ports -/

theorem Keeps.askCells {n k : Nat} (h : Keeps s t) : Keeps s (t.askCells n k) := .ite h.same.same h

theorem Keeps.sluiceTake {n : Nat} {bytes : List Byte} (h : Keeps s t) : Keeps s (t.sluiceTake n bytes).2 := by
  unfold State.sluiceTake
  dsimp only
  split
  · exact h.bump
  · exact h.addPkt.same.same

theorem Keeps.rxBegin {n : Nat} {bytes : List Byte} (h : Keeps s t) : Keeps s (t.rxBegin n bytes).2 := by
  unfold State.rxBegin
  split
  · exact h
  · split
    · exact h.bump
    · exact h.sluiceTake

theorem Keeps.rxFail {f : RxFrame} (h : Keeps s t) : Keeps s (t.rxFail f) := by
  unfold State.rxFail
  split
  · exact h
  · exact .ite h (.ite h.same h.sluiceDrop)

theorem Keeps.pfcIn {n mask : Nat} {time : Nat → Nat} (h : Keeps s t) : Keeps s (t.pfcIn n mask time) :=
  h.settleCbs.bump.same
theorem Keeps.macControl {n : Nat} {l : List Byte} (h : Keeps s t) : Keeps s (t.macControl n l) := .ite h.pfcIn h.bump

theorem Keeps.rxEnd {n : Nat} {f : RxFrame} {fcsOk : Bool} (h : Keeps s t) : Keeps s (t.rxEnd n f fcsOk) := by
  unfold State.rxEnd
  refine .ite h.bump (.ite h.bump.rxFail (.ite h.bump.rxFail (.ite h.macControl ?_)))
  split
  · exact h.bump.bump
  · exact .ite h.bump.bump <| .ite h.same.askCells h.same.askCells.bump.bump

theorem Keeps.codewords {n : Nat} (h : Keeps s t) : Keeps s (t.codewords n) := .ite h h.same.bump.bump

theorem Keeps.rxLost {n : Nat} {preempt : Bool} {o : Option RxFrame} (h : Keeps s t) : Keeps s (t.rxLost n preempt o) := by
  cases o with
  | some f => exact .ite h.bump.rxFail h.rxEnd
  | none => exact h

theorem Keeps.execFrameReceive {port : PortId} {part : RxPart} {bytes : List Byte} {fcsOk preempt : Bool} (h : Keeps s t) :
    Leads s (execFrameReceive port part bytes fcsOk preempt t) := by
  unfold Machine.execFrameReceive
  refine .ite h.next ?_
  split
  · exact h.rxLost.rxBegin.same.codewords.rxEnd.next
  · refine .next ?_
    split
    · exact h.rxLost.rxBegin.same.askCells
    · exact h.rxLost.rxBegin.same
  · split
    · exact h.same.codewords.rxEnd.next
    · exact h.next

theorem Keeps.execHeaderBytesArrive {port : PortId} {k : Nat} (h : Keeps s t) :
    Leads s (execHeaderBytesArrive port k t) := by
  unfold Machine.execHeaderBytesArrive
  dsimp only
  split
  · split
    · exact .ite h.same.askCells.next h.next
    · exact h.next
  · exact h.next

theorem Keeps.verifyStart {n : Nat} (h : Keeps s t) : Keeps s (t.verifyStart n) := .ite h (.ite h.same h.same)
theorem Keeps.linkFall {n : Nat} (h : Keeps s t) : Keeps s (t.linkFall n) := .ite h.rxLost.rxLost.same.same.same h

theorem Keeps.denyMaster {m : Master} {kind a : Nat} (h : Keeps s t) : Keeps s (t.denyMaster m kind a) := by
  unfold State.denyMaster
  split
  · exact h.deny
  · exact h

theorem Keeps.atBus {m : Master} {f : State → State} (h : Keeps s t) (hf : ∀ u, Keeps s u → Keeps s (f u)) :
    Leads s (t.atBus m f) := .ite (hf t h).next h.next
theorem Keeps.modGo {m : Master} {k wr : Nat} (h : Keeps s t) : Keeps s (t.modGo m k wr) :=
  .ite h.denyMaster (.ite h h.same.same)

/-! ### Staged settings -/

theorem Keeps.timerGone {r : Nat} {d : Delayed} (h : Keeps s t) : Keeps s (t.timerGone r d) := by
  unfold State.timerGone
  split
  · split
    · exact .ite h.same h.same.verOut
    · exact h.same
  · exact h

theorem Keeps.timersFollow {old : State} (h : Keeps s t) : Keeps s (t.timersFollow old) :=
  h.foldl fun _ _ h1 => (h1.foldl fun _ _ h2 => h2.timerGone).same.foldl fun _ _ h2 => h2.same

theorem Keeps.blockCommit {a : Nat} (h : Keeps s t) : Keeps s (t.blockCommit a).2 := by
  unfold State.blockCommit
  split
  · exact (Keeps.opt (.opt (.ite (h.same.timersFollow.foldl fun _ _ h1 => h1.pauses) h.same) Keeps.rfl.pauseEnds)
        Keeps.rfl.eventAny).same
  · exact h.same

theorem Keeps.discardList {n : Nat} (h : Keeps s t) : Keeps s (t.discardList n) := by
  unfold State.discardList
  dsimp only
  refine .ite h ?_
  split <;> exact h.same

theorem Keeps.gateCommit {p : Nat} (h : Keeps s t) : Keeps s (t.gateCommit p).2 := by
  unfold State.gateCommit
  dsimp only
  split
  · exact h.same
  · split
    · exact h.discardList.same.same
    · split
      · exact h.same
      · split
        · exact h.same
        · exact h.same.same.same

theorem Keeps.portFollows {old : State} {n : Nat} (h : Keeps s t) : Keeps s (t.portFollows old n) :=
  .after (.ite Keeps.rfl.same (.ite Keeps.rfl.verifyStart Keeps.rfl)) (.ite h.linkFall h)

theorem Keeps.portCommit {p : Nat} (h : Keeps s t) : Keeps s (t.portCommit p).2 := by
  unfold State.portCommit
  dsimp only
  split
  · exact (h.same.foldl fun _ _ h1 => h1.portFollows).same
  · exact h.same

theorem Keeps.commitGo {a p : Nat} (h : Keeps s t) : Keeps s (t.commitGo a p).2 := by
  unfold State.commitGo
  split
  · exact h.gateCommit
  · split
    · exact h.portCommit
    · exact h.blockCommit

theorem Keeps.commitWrite {m : Master} {a v : Nat} (h : Keeps s t) : Keeps s (t.commitWrite m a v) := by
  unfold State.commitWrite
  split
  · exact h
  · exact .ite h.denyMaster (.ite h.commitGo (.ite h.same h))

/-! ### Tables at work -/

theorem Keeps.answer {sl : Nat} {o : FlowOp} {r : OpRes} (h : Keeps s t) : Keeps s (t.answer sl o r) := by
  unfold State.answer
  split
  · refine .cmdDone ?_
    split
    · exact .ite h.hostWrite h
    · exact h
  · exact h.complete

theorem Keeps.applyAt {sl : Nat} {o : FlowOp} {waited : Bool} (h : Keeps s t) : Keeps s (t.applyAt sl o waited) :=
  .ite ((Keeps.ite h.applyOp.bump.bump h.applyOp.bump).answer) (.ite h.same h.same.bump)

theorem Keeps.execFlowOpApply {slice : SliceId} (h : Keeps s t) : Leads s (execFlowOpApply slice t) := by
  unfold Machine.execFlowOpApply
  dsimp only
  refine .ite ?_ h.next
  split
  · exact h.next
  · split
    · exact h.same.bump.next
    · exact h.same.applyAt.next

theorem Keeps.releaseHeld {sl : Nat} {o : FlowOp} (h : Keeps s t) : Keeps s (t.releaseHeld sl o) := by
  unfold State.releaseHeld
  dsimp only
  split
  · split
    · exact (Keeps.unless h.same.same.slotsSpent Keeps.rfl.join).outstanding.retire.boundary
    · exact h.same
  · split
    · exact (Keeps.unless h.same.same.slotsSpent Keeps.rfl.join).retire.boundary
    · exact h.same
  · exact h.same

theorem Keeps.execMissQueueRoom {slice : SliceId} (h : Keeps s t) : Leads s (execMissQueueRoom slice t) := by
  unfold Machine.execMissQueueRoom
  dsimp only
  split
  · exact h.next
  · exact .ite (.ite h.same.releaseHeld.next h.same.next) h.next

theorem Keeps.execJournalRoom {slice : SliceId} (h : Keeps s t) : Leads s (execJournalRoom slice t) := by
  unfold Machine.execJournalRoom
  dsimp only
  split
  · exact h.next
  · exact .ite (.ite h.same.applyAt.next h.same.next) h.next

theorem Keeps.execEmLookupApply {race : RaceId} (h : Keeps s t) : Leads s (execEmLookupApply race t) := by
  unfold Machine.execEmLookupApply
  dsimp only
  split
  · exact h.next
  · refine .ite ?_ h.next
    split
    · exact .ite (.ite h.same.emLookup.bump.complete.next h.same.emLookup.same.complete.next) h.same.emLookup.complete.next
    · exact h.same.emLookup.complete.next

theorem Keeps.execLpmLookupApply {race : RaceId} (h : Keeps s t) : Leads s (execLpmLookupApply race t) := by
  unfold Machine.execLpmLookupApply
  dsimp only
  split
  · exact h.next
  · refine .ite (.ite h.same.bump.complete.next ?_) h.next
    split
    · exact .ite h.same.complete.next h.same.complete.next
    · exact h.same.complete.next

theorem Keeps.execMeterApply (h : Keeps s t) : Leads s (execMeterApply t) := by
  unfold Machine.execMeterApply
  split
  · exact h.next
  · exact .ite (.ite h.same.bump.complete.next h.same.same.bump.complete.next) h.next

/-! ### Telemetry rings -/

theorem Keeps.dramWrite {a : Nat} {l : List Byte} (h : Keeps s t) : Keeps s (t.dramWrite a l) :=
  h.wf fun ⟨hp, hd, hs, hn, hh⟩ => ⟨hp, setBytes_wf l _ _ hd, hs, hn, hh⟩
theorem Keeps.ringPut {a drop : Nat} {entry : List Byte} (h : Keeps s t) : Keeps s (t.ringPut a drop entry) :=
  .ite h.bump h.dramWrite.same

/-! ### Tables in time -/

theorem Keeps.stopPasses (h : Keeps s t) : Keeps s t.stopPasses := h.foldl fun _ _ h1 => h1.same

theorem Keeps.execSweeperPassStart {slice : SliceId} (h : Keeps s t) : Leads s (execSweeperPassStart slice t) := by
  unfold Machine.execSweeperPassStart
  refine .ite (.next (.foldl h.same fun _ _ h1 => ?_)) h.next
  split
  · exact .ite h1 h1.same
  · exact h1

theorem Keeps.sweepDelete {sl i : Nat} (h : Keeps s t) : Keeps s (t.sweepDelete sl i).2.1 := by
  have hd : Keeps s (t.fDeleteM sl i false).2 := h.fDeleteM
  unfold State.sweepDelete
  split
  next he =>
    rw [he] at hd
    split
    · exact hd
    · exact h

theorem Keeps.of_sweepDelete {sl i : Nat} {x : Bool × State × Bool} (hx : t.sweepDelete sl i = x) (h : Keeps s t) : Keeps s x.2.1 :=
  hx ▸ h.sweepDelete

theorem Keeps.offerExpiry {sl i : Nat} (h : Keeps s t) : Keeps s (t.offerExpiry sl i) := .ite h.bump h.addPkt.same

theorem Keeps.visitLive {sl i : Nat} (h : Keeps s t) : Keeps s (t.visitLive sl i).2 := by
  unfold State.visitLive
  extract_lets now d p mt r u a create v tmo
  have hu : Keeps s u := .ite h h.same.same.dirtyRec
  clear_value u
  have hv : Keeps s v := .ite hu.same.ringPut hu
  clear_value v
  have hd : Keeps s (v.sweepDelete sl i).2.1 := hv.sweepDelete
  have ho : Keeps s (v.offerExpiry sl i) := hv.offerExpiry
  generalize v.sweepDelete sl i = y at hd ⊢
  obtain ⟨_, _, _⟩ := y
  split
  · split
    · exact hd
    · split
      next hdel =>
        have he := Keeps.of_sweepDelete hdel hv.same.ringPut
        split
        · exact he
        · exact hv
    · exact ho
  · exact hv

theorem Keeps.rebuild {sl i : Nat} (h : Keeps s t) : Keeps s (t.rebuild sl i).2 := by
  unfold State.rebuild
  dsimp only
  split
  · split
    · exact h.readBkt.readBkt
    · split
      · exact (h.readBkt.readBkt.fPlace.mid ‹_›).recEcc.fPlace
      · exact (h.readBkt.readBkt.fPlace.mid ‹_›)
  · exact h

theorem Keeps.visitRec {sl i : Nat} (h : Keeps s t) : Keeps s (t.visitRec sl i).2 := by
  unfold State.visitRec
  dsimp only
  split
  · split
    · split
      · exact (h.sweepDelete.mid ‹_›).same
      · exact (h.sweepDelete.mid ‹_›).same.visitLive
    · exact h.visitLive
  · exact h.visitLive

theorem Keeps.visit {sl i : Nat} (h : Keeps s t) : Keeps s (t.visit sl i) := by
  have hr : Keeps s (t.readRec sl i false).2 := h.readRec
  unfold State.visit
  generalize t.readRec sl i false = x at hr
  obtain ⟨m, u⟩ := x
  have hv : Keeps s ((u.rebuild sl i).2.visitRec sl i).2 := hr.rebuild.visitRec
  dsimp only
  generalize hx : (if u.mst.eccRec.contains i then _ else _ : Bool × State) = x
  have hy : Keeps s x.2 := by
    subst hx
    split
    · split
      · exact hr.recEcc (miss := false)
      · exact hr
    · split
      · exact hr
      · exact hv
  exact .ite hy.bump.bump hy.bump

theorem Keeps.passEnd {sl : Nat} (h : Keeps s t) : Keeps s (t.passEnd sl) := by
  unfold State.passEnd
  refine .foldl h.same fun _ _ h1 => ?_
  split
  · exact .ite (.ite h1.same.cmdDone h1.same) h1
  · exact h1

theorem Keeps.learnPost {p kind r type port old : Nat} {key : Word64} {gtc src : Nat} (h : Keeps s t) :
    Keeps s (t.learnPost p kind r type port old key gtc src) :=
  h.same.ringPut

theorem Keeps.ageOne {r x : Nat} (h : Keeps s t) : Keeps s (t.ageOne r x) := .ite h (.ite h.emDelete.bump.learnPost h.same)

theorem Keeps.learnInstall {r : Nat} {q : Learn} (h : Keeps s t) : Keeps s (t.learnInstall r q) := by
  unfold State.learnInstall
  dsimp only
  refine .ite h.bump.learnPost ?_
  split
  · exact (h.emPlace.fst ‹_›).bump.learnPost
  · exact (h.emPlace.fst ‹_›).same.bump.learnPost

theorem Keeps.learnOne {r : Nat} {q : Learn} (h : Keeps s t) : Keeps s (t.learnOne r q) := by
  unfold State.learnOne
  dsimp only
  split
  · exact h.learnInstall
  · refine .ite h ?_
    split
    · exact .ite h.bump h.bump.same.learnPost
    · exact h.same.same.bump.learnPost

theorem Keeps.execLearnApply {race : RaceId} (h : Keeps s t) : Leads s (execLearnApply race t) := by
  unfold Machine.execLearnApply
  dsimp only
  split
  · exact h.next
  · exact .ite h.same.learnOne.next h.next

theorem Keeps.walkBreak {p j : Nat} (h : Keeps s t) : Keeps s (t.walkBreak p j) := h.same.same

theorem Keeps.execWalkTimeout {part : Part} (h : Keeps s t) : Leads s (execWalkTimeout part t) := by
  unfold Machine.execWalkTimeout
  refine .next (.foldl h fun _ _ h1 => ?_)
  split
  · exact .ite h1.walkBreak.bump h1
  · exact h1

theorem Keeps.restampAll {p j : Nat} (h : Keeps s t) : Keeps s (t.restampAll p j) := .ite h.same h.same

theorem Keeps.ringStep (h : Keeps s t) : Keeps s t.ringStep := by
  unfold State.ringStep
  dsimp only
  split
  · exact h
  · split
    · exact h.same.bump
    · exact h.same

theorem Keeps.drainTail (h : Keeps s t) : Keeps s t.drainTail := h.foldl fun _ _ h1 => h1.ringStep

/-! ### Commands on tables -/

theorem Keeps.cmdA {c : HostCmd} {op : Nat} {body : CmdRef → State → State}
    (h : Keeps s t) (hb : ∀ c u, Keeps s u → Keeps s (body c u)) : Leads s (t.cmdA c op body) := (h.startCmd hb).next
theorem Keeps.cmdB {c : HostCmd} {op : Nat} {body : CmdRef → State → State}
    (h : Keeps s t) (hb : ∀ c u, Keeps s u → Keeps s (body c u)) : Leads s (t.cmdB c op body) := (h.startCmd hb).next

theorem Keeps.execSearch {cmd : HostCmd} (h : Keeps s t) : Leads s (execSearch cmd t) := by
  unfold Machine.execSearch
  refine .cmdB h fun _ _ h1 => ?_
  split
  · refine .ite h1.cmdDone ?_
    split <;> exact h1.cmdDone
  · exact h1.cmdDone

theorem Keeps.emInsert {r p : Nat} {cmd : HostCmd} (h : Keeps s t) : Keeps s (t.emInsert r p cmd).2 := by
  unfold State.emInsert
  dsimp only
  split
  · split
    · exact h.same.same
    · exact h
  · split
    · exact h
    · split <;> exact (h.emPlace.fst ‹_›)

theorem Keeps.emRemove {r p : Nat} {cmd : HostCmd} (h : Keeps s t) : Keeps s (t.emRemove r p cmd).2 := by
  unfold State.emRemove
  split
  · exact h.emDelete
  · exact h

theorem Keeps.eachRace {f : Nat → State → Nat × State} {l : List Nat} (h : Keeps s t)
    (hf : ∀ r u, Keeps s u → Keeps s (f r u).2) : Keeps s (eachRace f l t).2.2 := by
  induction l generalizing t with
  | nil => exact h
  | cons r l ih =>
    unfold Machine.eachRace
    dsimp only
    split
    · exact ih (hf r t h)
    · exact ih (hf r t h)

theorem Keeps.execFlushPort {c : HostCmd} (h : Keeps s t) : Leads s (execFlushPort c t) :=
  h.cmdA fun _ u h => .ite h.cmdDone (Keeps.cmdDone (Keeps.foldl_with h fun _ _ h => h.foldl_with fun _ _ h => by
    split
    · exact h.emDelete
    · exact h))

theorem Keeps.execLpmUpdate {cmd : HostCmd} (h : Keeps s t) : Leads s (execLpmUpdate cmd t) :=
  h.cmdA fun _ _ h1 => .ite h1.cmdDone <| .ite h1.cmdDone <|
      .ite (.ite h1.same.cmdDone h1.cmdDone) (.ite h1.cmdDone h1.same.cmdDone)

theorem Keeps.walkTake {j x : Nat} (h : Keeps s t) : Keeps s (t.walkTake j x).2 := by
  unfold State.walkTake
  split <;> exact h.same

theorem Keeps.walkNext {c : CmdRef} {i max_ res : Nat} (h : Keeps s t) : Keeps s (t.walkNext c i max_ res) := by
  unfold State.walkNext
  split
  · exact h.cmdDone
  · have hw {l : List Nat} {a : List (List Byte) × State} (ha : Keeps s a.2) :=
      ha.foldl_with (l := l) (f := fun a x => ((a.1 ++ [(a.2.walkTake i x).1]), (a.2.walkTake i x).2))
        fun _ _ h => h.walkTake
    exact .ite (hw h).hostWrite.bump.same.cmdDone (hw h).hostWrite.bump.same.cmdDone

theorem Keeps.hostFlow {c : CmdRef} {o : FlowOp} (h : Keeps s t) : Keeps s (t.hostFlow c o) :=
  .ite h.same.dmaRead.same h.same.dmaRead.same

/-! ### Tables written through registers -/

theorem Keeps.shpChanged {kind i : Nat} {had : Bool} (h : Keeps s t) : Keeps s (t.shpChanged kind i had) := by
  unfold State.shpChanged
  refine .ite h.same ?_
  split <;> exact h.same

theorem Keeps.putEntry {j i : Nat} {v : Nat → Nat} (h : Keeps s t) : Keeps s (t.putEntry j i v) :=
  h.foldl fun _ _ h1 => .ite h1 h1.same

theorem Keeps.tabWrite {j i : Nat} {v : Nat → Nat} (h : Keeps s t) : Keeps s (t.tabWrite j i v) := by
  unfold State.tabWrite
  split
  · exact h.same
  · exact (h.foldl fun _ _ h1 => h1.same).putEntry.foldl fun _ _ h1 => h1.shpChanged
  · exact .unless ((Keeps.ite h.settleCbs h).same.putEntry.shpChanged) Keeps.rfl.same
  · exact h.same.putEntry.shpChanged
  · exact h.same.putEntry.shpChanged
  · exact h.putEntry

theorem Keeps.taccOp {p : Nat} {wr : Bool} {j i : Nat} (h : Keeps s t) : Keeps s (t.taccOp p wr j i).2 := by
  unfold State.taccOp
  dsimp only
  split
  · exact h
  · split
    · exact h
    · split
      · split
        · exact h
        · split
          · exact h
          · split
            · exact h
            · exact h.tabWrite.same.same
      · exact h.foldl fun _ _ h1 => h1.same

theorem Keeps.taccWrite {m : Master} {p v : Nat} (h : Keeps s t) : Keeps s (t.taccWrite m p v) :=
  .ite h.denyMaster (.ite h.same.taccOp.same h.same)

theorem Keeps.execTaccRead {m : Master} {part : Part} {value : Word32} (h : Keeps s t) :
    Leads s (execTaccRead m part value t) :=
  h.atBus fun _ h1 => h1.taccWrite

theorem Keeps.tcamOp {p code i : Nat} (h : Keeps s t) : Keeps s (t.tcamOp p code i).2 := by
  unfold State.tcamOp
  dsimp only
  split
  · exact h
  · split
    · exact h
    · split
      · exact h
      · split
        · exact h
        · split
          · exact h
          · split
            · exact h
            · split
              · exact h
              · refine .foldl h fun _ _ h1 => ?_
                split <;> exact h1.same

theorem Keeps.tcamGo {m : Master} {p v : Nat} (h : Keeps s t) : Keeps s (t.tcamGo m p v) :=
  .ite h.denyMaster (.ite h.same.tcamOp.same h.same)
theorem Keeps.lbWrite {m : Master} {p : Nat} {hi : Bool} {v : Nat} (h : Keeps s t) : Keeps s (t.lbWrite m p hi v) :=
  .ite h.denyMaster <| .ite h.same (.ite h.same.bump h.same.same)

theorem Keeps.lbSvc {m : Master} {n v : Nat} (h : Keeps s t) : Keeps s (t.lbSvc m n v) := by
  unfold State.lbSvc
  split
  · exact .ite h.same h.bump
  · exact h.same

/-! ### Network time -/

theorem Keeps.latchAll {m : Master} {a : Nat} {l : List Nat} (h : Keeps s t) : Keeps s (t.latchAll m a l) := by
  induction l generalizing t a with
  | nil => exact h
  | cons v l ih => exact ih h.same

theorem Keeps.ptpWrite {m : Master} {a : Nat} {f : State → State} (h : Keeps s t) (hf : ∀ u, Keeps s u → Keeps s (f u)) :
    Keeps s (t.ptpWrite m a f) := .ite (hf t h) h.denyMaster
theorem Keeps.ptpPend {c : PtpChange} (h : Keeps s t) : Keeps s (t.ptpPend c) := .ite h.same.same h.same
theorem Keeps.rateWrite {m : Master} {hi : Bool} {v : Nat} (h : Keeps s t) : Keeps s (t.rateWrite m hi v) :=
  h.ptpWrite fun _ h1 => .ite h1.same.ptpPend h1.same
theorem Keeps.stepWrite {m : Master} {v : Nat} (h : Keeps s t) : Keeps s (t.stepWrite m v) :=
  h.ptpWrite fun _ h1 => h1.ptpPend

theorem Keeps.setWrite {m : Master} {w v : Nat} (h : Keeps s t) : Keeps s (t.setWrite m w v) := by
  unfold State.setWrite
  refine .ptpWrite h fun _ h1 => ?_
  split
  · exact h1.same
  · exact h1.same
  · exact .ite h1.same.ptpPend h1.same

theorem Keeps.ptpChange {g : Nat} {c : PtpChange} (h : Keeps s t) : Keeps s (t.ptpChange g c) := by
  unfold State.ptpChange
  split
  · exact h.same
  · exact h.same.gatesRestart
  · exact h.same.same.gatesRestart

theorem Keeps.execPtpChangeApply (h : Keeps s t) : Leads s (execPtpChangeApply t) := by
  unfold Machine.execPtpChangeApply
  split
  · exact h.next
  · exact .ite h.same.ptpChange.next h.next

theorem Keeps.readCapture {m : Master} (h : Keeps s t) : Keeps s (t.readCapture m).2 := h.latchAll

theorem Keeps.popTsq {p : Nat} (h : Keeps s t) : Keeps s (t.popTsq p).2 := by
  unfold State.popTsq
  split
  · exact h
  · exact h.same

theorem Keeps.readPpsin {m : Master} (h : Keeps s t) : Keeps s (t.readPpsin m).2 := h.latchAll

theorem Keeps.readTodRx {m : Master} (h : Keeps s t) : Keeps s (t.readTodRx m).2 := by
  unfold State.readTodRx
  split <;> exact h.latchAll

theorem Keeps.eecWrite {m : Master} {v : Nat} (h : Keeps s t) : Keeps s (t.eecWrite m v) :=
  h.ptpWrite fun _ h1 => h1.same.same

end

end Sys2Proof.Proofs

/-! PROOF. What every command keeps, of the recorder, the hosts, maintenance, resets, safety and the debug port; and so of
every command and step. -/

namespace Sys2Proof.Proofs

open Sys2Proof Sys2Proof.Machine Sys2Proof.Laws

section

variable {s t : State}

/-! ### The event recorder -/

theorem Keeps.ringAppend {e : EvRec} (h : Keeps s t) : Keeps s (t.ringAppend e) := h.same.occur
theorem Keeps.holdDrain (h : Keeps s t) : Keeps s t.holdDrain := h.same.foldl fun _ _ h1 => h1.ringAppend

theorem Keeps.ringPutRec {e : EvRec} (h : Keeps s t) : Keeps s (t.ringPutRec e) := by
  unfold State.ringPutRec
  dsimp only
  split
  · exact .ite h.holdDrain.same h.holdDrain.ringAppend
  · exact h.holdDrain.ringAppend

theorem Keeps.holdPut {e : EvRec} (h : Keeps s t) : Keeps s (t.holdPut e) := by
  unfold State.holdPut
  split
  · exact h.same
  · exact .ite h.same (h.bump.same.foldl fun _ _ h1 => h1.irq)

theorem Keeps.secPut {e : EvRec} (h : Keeps s t) : Keeps s (t.secPut e) :=
  .ite (.ite h.same.occur.same.irq h.same.occur) (.ite h.bump.same.irq h.bump)

theorem Keeps.execEventRecord (h : Keeps s t) : Leads s (execEventRecord t) := by
  unfold Machine.execEventRecord
  split
  · exact h.next
  · exact (Keeps.ite h.same.secPut (.ite h.same.holdPut h.same.ringPutRec)).next

theorem Keeps.thaw {p : Nat} (h : Keeps s t) : Keeps s (t.thaw p).2 := by
  unfold State.thaw
  dsimp only
  split
  · exact h.same
  · exact h.same.same.holdDrain

/-! ### The counter collector -/

theorem Keeps.streamWrite {p : Nat} {c : DumpCfg} {off : Nat} {l : List Byte} (h : Keeps s t) :
    Keeps s (t.streamWrite p c off l) :=
  .ite h.hostWrite h.dramWrite

theorem Keeps.execDumpCfg {cmd : HostCmd} (h : Keeps s t) : Leads s (execDumpCfg cmd t) :=
  h.cmdB fun _ _ h1 => .ite (.ite h1.dmaRead.cmdDone h1.dmaRead.same.cmdDone) <| .ite h1.dmaRead.cmdDone <|
      .ite h1.dmaRead.cmdDone <| .ite h1.dmaRead.cmdDone
      ((h1.dmaRead.foldl fun _ _ h2 => h2.streamWrite.streamWrite).same.cmdDone)

theorem Keeps.execDumpDue {part : Part} {stream : Fin 2} (h : Keeps s t) : Leads s (execDumpDue part stream t) := by
  unfold Machine.execDumpDue
  refine .ite ?_ h.next
  split
  · exact h.same.bump.next
  · exact h.same.streamWrite.next

theorem Keeps.execDumpComplete {part : Part} {stream : Fin 2} (h : Keeps s t) :
    Leads s (execDumpComplete part stream t) := by
  unfold Machine.execDumpComplete
  dsimp only
  split
  · exact h.next
  · exact .ite ((Keeps.opt (.opt h.streamWrite.same.bump.bump Keeps.rfl.same) Keeps.rfl.irq).next) h.next

theorem Keeps.execSnapshot {cmd : HostCmd} (h : Keeps s t) : Leads s (execSnapshot cmd t) :=
  (h.startCmd fun _ _ h1 => .ite h1.cmdDone <| .ite h1.cmdDone (.ite h1.cmdDone h1.same.same)).next
theorem Keeps.snapDone {n : Snap} (h : Keeps s t) : Keeps s (t.snapDone n) := h.same.cmdDone

theorem Keeps.execSnapshotLatch (h : Keeps s t) : Leads s (execSnapshotLatch t) := by
  unfold Machine.execSnapshotLatch
  split
  · exact h.next
  · exact (Keeps.ite h.hostWrite h).bump.bump.snapDone.next

theorem Keeps.execCounterFreeze (h : Keeps s t) : Leads s (execCounterFreeze t) := by
  unfold Machine.execCounterFreeze
  split
  · exact h.same.snapDone.next
  · exact h.next

theorem Keeps.execCounterUnfreeze (h : Keeps s t) : Leads s (execCounterUnfreeze t) := by
  unfold Machine.execCounterUnfreeze
  split
  · exact h.same.snapDone.next
  · exact h.next

/-! ### Rings and partitions -/

theorem Keeps.doorIgnored {p : Nat} (h : Keeps s t) : Keeps s (t.doorIgnored p) := h.bump

theorem Keeps.badHeads {p i f : Nat} (h : Keeps s t) : Keeps s (t.badHeads p i f) := by
  induction f generalizing t with
  | zero => exact h
  | succ f ih => exact .ite (ih h.same.occur.dmaRead.cmdDone) h

theorem Keeps.piDoor {p i v : Nat} (h : Keeps s t) : Keeps s (t.piDoor p i v) := .ite h (.ite h.doorIgnored h.same.badHeads)
theorem Keeps.chDoor {p i v : Nat} (h : Keeps s t) : Keeps s (t.chDoor p i v) := .ite h (.ite h.doorIgnored h.same)
theorem Keeps.tailDoor {p a v : Nat} (h : Keeps s t) : Keeps s (t.tailDoor p a v) := .ite h (.ite h.doorIgnored h.same)
theorem Keeps.bar4Write {p off v : Nat} (h : Keeps s t) : Keeps s (t.bar4Write p off v) :=
  .ite h <| .ite (.ite h.piDoor h.chDoor) (.ite h.tailDoor (.ite h.tailDoor h))

theorem Keeps.pagesAll {o ownp n : Nat} {l : List Nat} {u : State} (h :
    Keeps s t) (hu : t.pagesAll o ownp n = some (l, u)) :
    Keeps s u := by
  induction n generalizing t l with
  | zero =>
    cases hu
    exact h
  | succ n ih =>
    unfold State.pagesAll at hu
    split at hu
    · cases hu
    · split at hu
      · cases hu
      · cases hu
        exact ih (h.takePage ‹_›) ‹_›

theorem Keeps.bufGranted {c : CmdRef} {kind len src res : Nat} {l : List Nat} (h : Keeps s t) :
    Keeps s (t.bufGranted c kind len src res l) :=
  h.same.dmaRead.hostWrite.cmdDone

theorem Keeps.allocDecide {c : CmdRef} {n len src res : Nat} (h : Keeps s t) : Keeps s (t.allocDecide c n len src res) := by
  unfold State.allocDecide
  split
  · exact (h.grantAll ‹_›).bufGranted
  · exact h.bump.cmdDone

theorem Keeps.execBufAlloc {cmd : HostCmd} (h : Keeps s t) : Leads s (execBufAlloc cmd t) := by
  unfold Machine.execBufAlloc
  refine .cmdA h fun _ _ h1 => ?_
  refine .ite h1.cmdDone (.ite h1.same.same ?_)
  split
  · exact (h1.pagesAll ‹_›).bufGranted
  · exact h1.bump.cmdDone

theorem Keeps.bufReturn {y : Nat} (h : Keeps s t) : Keeps s (t.bufReturn y) := (Keeps.ite h.freePage h.freeCell).same

theorem Keeps.execBufFree {cmd : HostCmd} (h : Keeps s t) : Leads s (execBufFree cmd t) :=
  h.cmdA fun _ _ h1 => .ite h1.cmdDone <| .ite h1.dmaRead.cmdDone <|
      .ite h1.dmaRead.cmdDone ((h1.dmaRead.foldl fun _ _ h2 => h2.bufReturn).cmdDone)

theorem Keeps.bufBytes_ {y : Nat} (h : Keeps s t) : Keeps s (t.bufBytes_ y).2 := h.same
theorem Keeps.bufFrame {hs : List Nat} {len : Nat} (h : Keeps s t) : Keeps s (t.bufFrame hs len).2 :=
  Keeps.foldl_with h fun _ _ h => h.bufBytes_

theorem Keeps.linkChain {l : List Nat} (h : Keeps s t) : Keeps s (t.linkChain l) := by
  induction l generalizing t with
  | nil => exact h
  | cons a l ih =>
    cases l with
    | nil => exact h
    | cons b l => exact ih h.same

theorem Keeps.hostCells {p : Nat} {frame : List Byte} {l : List Nat} {u : State} (h : Keeps s t)
    (hu : t.hostCells p frame = .inl (l, u)) : Keeps s u := by
  unfold State.hostCells at hu
  split at hu
  · cases hu
    exact (h.grantAll ‹_›).linkChain
  · cases hu

theorem Keeps.txQueue {p : Nat} {d : TxDesc} {x : Desc} (h : Keeps s t) : Keeps s (t.txQueue p d x) := h.leave

theorem Keeps.txInject {p n : Nat} {frame : List Byte} {cells : List Nat} (h : Keeps s t) :
    Keeps s (t.txInject p n frame cells) := by
  unfold State.txInject
  refine .ite (h.foldl fun _ _ h1 => h1.freeCell) ?_
  split
  · exact (h.sluiceTake.snd ‹_›).foldl fun _ _ h1 => h1.freeCell
  · exact (h.sluiceTake.snd ‹_›).same

theorem Keeps.txTake {p j : Nat} {asked : Bool} (h : Keeps s t) : Keeps s (t.txTake p j asked) := by
  unfold State.txTake
  extract_lets a key l pos d take hs
  have ht {u : State} {st : Option Nat} (hu : Keeps s u) : Keeps s (take u st) := hu.dmaRead.dmaRead.same
  clear_value take
  split
  · exact h
  · split
    · exact .ite (ht h).bump.deny (ht h).bump
    · split
      · split
        next he => exact (ht (h.bufFrame.snd he)).txQueue
      · split
        · exact h.same
        · split
          next f u he =>
          have hu : Keeps s u := by
            split at he
            · exact h.bufFrame.snd he
            · cases he
              exact h
          split
          · exact h.bump.same
          next hc =>
            extract_lets v gen
            have hv : Keeps s v := ht (hu.hostCells hc)
            clear_value v
            split
            · exact hv.txInject
            · split
              next he => exact (hv.addPkt.snd he).txQueue

theorem Keeps.execHostTxRetry {part : Part} (h : Keeps s t) : Leads s (execHostTxRetry part t) := by
  unfold Machine.execHostTxRetry
  split
  · exact h.same.txTake.next
  · exact h.next

theorem Keeps.execCellRequest (h : Keeps s t) : Leads s (execCellRequest t) := by
  unfold Machine.execCellRequest
  split
  · exact h.next
  · refine .ite ?_ h.next
    split
    · exact h.same.frameDecide.next
    · exact h.same.allocDecide.next
    · exact h.same.txTake.next
    · exact h.same.keepaliveDecide.next

theorem Keeps.execTxWriteback {part : Part} {ring : Fin 64} (h : Keeps s t) : Leads s (execTxWriteback part ring t) := by
  unfold Machine.execTxWriteback
  dsimp only
  split
  · exact h.next
  · split
    · exact h.next
    · exact .ite h.next ((Keeps.opt (.opt h.hostWrite.same.same.same Keeps.rfl.bump) Keeps.rfl.irq).next)

theorem Keeps.rxLeave {x : RxItem} (h : Keeps s t) : Keeps s (t.rxLeave x) := .ite h h.same

theorem Keeps.execRxPacketWrite {part : Part} {ring : Fin 64} (h : Keeps s t) :
    Leads s (Machine.execRxPacketWrite part ring t) := by
  unfold Machine.execRxPacketWrite
  extract_lets p j a n at_ addr size
  split
  · exact h.next
  · extract_lets k u v len x w
    have hu : Keeps s u := h.same
    clear_value u
    have hv : Keeps s v := hu.same.dmaRead
    clear_value v
    have hx : Keeps s x := hv.hostWrite.hostWrite
    clear_value x
    have hw : Keeps s w := .ite hv.hostWrite.bump (.opt hx Keeps.rfl.bump)
    clear_value w
    exact .ite h.next (.ite hu.rxLeave.next (.ite hu.bump.rxLeave.next (.ite h.next hw.rxLeave.irq.next)))

theorem Keeps.stopHostDumps {p : Nat} (h : Keeps s t) : Keeps s (t.stopHostDumps p) := h.foldl fun _ _ h1 => h1.same
theorem Keeps.presetBegin {p : Nat} {perst : Bool} (h : Keeps s t) : Keeps s (t.presetBegin p perst) :=
  h.same.same.stopHostDumps.same.foldl fun _ _ h1 => .ite h1.walkBreak h1
theorem Keeps.presetClear {p : Nat} (h : Keeps s t) : Keeps s (t.presetClear p) :=
  (Keeps.opt ((h.same.foldl fun _ _ h1 => h1.same).same) Keeps.rfl.thaw).same.eventAny

/-! ### The arbiter -/

theorem Keeps.mntStart {c by_ : Nat} (h : Keeps s t) : Keeps s (t.mntStart c by_) := h.bump.same.same.same.same.same
theorem Keeps.mntOver {c status : Nat} (h : Keeps s t) : Keeps s (t.mntOver c status) := .ite h.same.same.event h

/-! ### Patches -/

theorem Keeps.execPatchLoad {cmd : HostCmd} (h : Keeps s t) : Leads s (execPatchLoad cmd t) := by
  unfold Machine.execPatchLoad
  dsimp only
  refine .next (.startCmd h fun _ _ h1 => ?_)
  refine .ite h1.cmdDone ?_
  split
  · exact h1.dmaRead.same.same.cmdDone
  · exact h1.dmaRead.eventAny.cmdDone

theorem Keeps.loadPatch {k : Nat} {x : Word32 × PatchSection} (h : Keeps s t) : Keeps s (t.loadPatch k x) := h.same.same
theorem Keeps.drainCluster {k : Nat} (h : Keeps s t) : Keeps s (t.drainCluster k) :=
  h.same.foldl fun _ _ h1 => .ite h1.same h1

theorem Keeps.stestStart {k : Nat} (h : Keeps s t) : Keeps s (t.stestStart k) := by
  unfold State.stestStart
  split
  · exact h
  · exact h.same.same

theorem Keeps.resumeCluster {k : Nat} (h : Keeps s t) : Keeps s (t.resumeCluster k) := .ite h.same.stestStart h.same

theorem Keeps.actMove {a : Activation} {r : Nat} {k : Option Nat} (h : Keeps s t) : Keeps s (t.actMove a r k).1 := by
  have hd {k : Nat} : Keeps s (t.drainCluster k) := h.drainCluster
  cases k with
  | some k =>
    simp only [State.actMove]
    exact hd
  | none => exact h

theorem Keeps.actEnd {a : Activation} {status detail : Nat} (h : Keeps s t) : Keeps s (t.actEnd a status detail) :=
  h.same.same.same.mntOver.cmdDone.foldl fun _ _ h1 => h1.cmdDone

theorem Keeps.actFinish {a : Activation} (h : Keeps s t) : Keeps s (t.actFinish a) := by
  unfold State.actFinish
  refine .ite h.same ?_
  split
  · exact h.actEnd
  · exact .ite h.actEnd h.same.same.eventAny.actEnd

theorem Keeps.actRefuse {c : CmdRef} {status detail : Nat} (h : Keeps s t) : Keeps s (t.actRefuse c status detail) :=
  h.same.cmdDone

/-- Unfolded as a function: of the applied body the kernel would evaluate the moves of the sixteen races. -/
theorem Keeps.actBegin {a : Activation} (h : Keeps s t) : Keeps s (t.actBegin a) := by
  generalize hf : State.actBegin = f
  delta State.actBegin at hf
  subst hf
  beta_reduce
  extract_lets u v
  have hv : Keeps s v := h.mntStart.same.same
  clear_value v
  generalize hx : List.foldl _ _ _ = x
  have hy : Keeps s x.1 := by
    subst hx
    exact hv.foldl_fst fun _ _ h => h.actMove
  obtain ⟨w, b⟩ := x
  exact hy.actFinish

theorem Keeps.actBad {cmd : HostCmd} (h : Keeps s t) : Keeps s (t.actBad cmd) := .ite h.same h

theorem Keeps.execPatchActivate {cmd : HostCmd} (h : Keeps s t) : Leads s (execPatchActivate cmd t) := by
  unfold Machine.execPatchActivate
  refine .next (.startCmd h.actBad fun _ _ h1 => ?_)
  refine .ite h1.actRefuse (.ite h1.actRefuse (.ite h1.actRefuse ?_))
  split
  · exact h1.bump.actRefuse
  · exact .ite h1.actRefuse h1.actBegin

theorem Keeps.execPatchClusterDrained {race : RaceId} (h : Keeps s t) : Leads s (execPatchClusterDrained race t) := by
  unfold Machine.execPatchClusterDrained
  split
  · exact h.next
  · split
    · exact h.next
    · exact .ite h.next <| .ite h.loadPatch.same.next h.same.loadPatch.same.next

theorem Keeps.execPatchDrainTimeout {race : RaceId} (h : Keeps s t) : Leads s (execPatchDrainTimeout race t) := by
  unfold Machine.execPatchDrainTimeout
  split
  · exact h.next
  · split
    · exact h.next
    · exact .ite h.next ((h.foldl fun _ _ h1 => h1.engineEnd).next)

theorem Keeps.actBack {a : Activation} {r : Nat} (h : Keeps s t) : Keeps s (t.actBack a r).1 := by
  unfold State.actBack
  refine .actMove ?_
  split
  · exact h.resumeCluster
  · exact h

theorem Keeps.execPatchHeartbeatResult {race : RaceId} {failed : List EngineId} (h : Keeps s t) :
    Leads s (Machine.execPatchHeartbeatResult race failed t) := by
  unfold Machine.execPatchHeartbeatResult
  split
  · exact h.next
  · extract_lets r
    split
    extract_lets u v
    have hu : Keeps s u := h.foldl fun _ _ h => h.safety.isolateEngine.same
    have hv : Keeps s v := hu.same
    clear_value u v
    split
    · exact h.next
    · split
      · exact hu.resumeCluster.actMove.actFinish.next
      · split
        · exact hu.resumeCluster.actMove.actFinish.next
        · split
          next he => exact (Keeps.fst (hv.foldl_fst fun _ _ h => h.actBack) he).actFinish.next

theorem Keeps.actAbort {c : CmdRef} (h : Keeps s t) : Keeps s (t.actAbort c) := by
  unfold State.actAbort
  split
  · exact h.actFinish
  · exact h.cmdDone

theorem Keeps.patchStart (h : Keeps s t) : Keeps s t.patchStart :=
  ((Keeps.ite h.eventAny h).foldl fun _ _ h1 => h1.loadPatch).same

/-! ### Maintenance -/

theorem Keeps.stestOver {k state seg : Nat} (h : Keeps s t) : Keeps s (t.stestOver k state seg) :=
  .ite h.same.same.same.same.safety h.same.same
theorem Keeps.stestCheck (h : Keeps s t) : Keeps s t.stestCheck := .ite h h.mntOver
theorem Keeps.ckptStart (h : Keeps s t) : Keeps s t.ckptStart :=
  .ite h ((h.same.same.foldl fun _ _ h1 => .ite h1.same h1.same).ckptClose)
theorem Keeps.ckptDrop (h : Keeps s t) : Keeps s t.ckptDrop := (h.foldl fun _ _ h1 => h1.same).same

theorem Keeps.mntBegin {c arg : Nat} (h : Keeps s t) : Keeps s (t.mntBegin c arg) := by
  unfold State.mntBegin
  split
  · exact .ite h.same.same h.same
  · exact .ite h.same.same h.same
  · exact h.same.same
  · exact (h.same.foldl fun _ _ h1 => h1.stestStart).stestCheck
  · exact h.same.ckptStart
  · exact h.same

theorem Keeps.mntBreak {c : Nat} (h : Keeps s t) : Keeps s (t.mntBreak c) := by
  unfold State.mntBreak
  split
  · exact h.coverage
  · exact h.coverage
  · exact h.same
  · exact h.foldl fun _ _ h1 => h1.stestOver
  · exact h.ckptDrop
  · exact h

theorem Keeps.mntAbort {c : Nat} (h : Keeps s t) : Keeps s (t.mntAbort c) := h.mntBreak.mntOver
theorem Keeps.anyBelow {n : Nat} (h : Keeps s t) : Keeps s (t.anyBelow n).2 := h.same

theorem Keeps.replan {i : Nat} (h : Keeps s t) : Keeps s (t.replan i) := by
  unfold State.replan
  dsimp only
  exact h.anyBelow.anyBelow.same.same.event

theorem Keeps.refresh {i : Nat} (h : Keeps s t) : Keeps s (t.refresh i) := by
  unfold State.refresh
  dsimp only
  exact h.anyBelow.same.event

theorem Keeps.flushRecs {l : List Nat} (h : Keeps s t) : Keeps s (State.flushRecs l t).1 := by
  induction l generalizing t with
  | nil => exact h
  | cons i l ih =>
    unfold State.flushRecs
    dsimp only
    split
    · exact ih h.fDelete
    · exact h

theorem Keeps.bulkFlush {arg : Nat} (h : Keeps s t) : Keeps s (t.bulkFlush arg).1 := by
  unfold State.bulkFlush
  dsimp only
  split
  · exact h.foldl fun _ _ h1 => .ite h1.emDelete h1
  · exact h.flushRecs

theorem Keeps.swapSpare {k e : Nat} (h : Keeps s t) : Keeps s (t.swapSpare k e) := .ite h.same.same.event h.same.same

theorem Keeps.mntFinish {c : Nat} (h : Keeps s t) : Keeps s (t.mntFinish c) := by
  unfold State.mntFinish
  split
  · exact h.foldl fun _ _ h1 => h1.refresh
  · exact h.foldl fun _ _ h1 => h1.replan
  · exact h.swapSpare
  · exact h

theorem Keeps.ckptRefused {k : Nat} (h : Keeps s t) : Keeps s (t.ckptRefused k) := .ite h.bump h

theorem Keeps.execMaintStart {cmd : HostCmd} (h : Keeps s t) : Leads s (execMaintStart cmd t) := by
  unfold Machine.execMaintStart
  refine .next (.startCmd h fun _ _ h1 => ?_)
  refine .ite h1.cmdDone (.ite h1.cmdDone ?_)
  split
  · exact h1.bump.ckptRefused.cmdDone
  · exact h1.mntStart.mntBegin.cmdDone

theorem Keeps.mntStopFor {c : CmdRef} {k : Nat} (h : Keeps s t) : Keeps s (t.mntStopFor c k) :=
  .ite h.cmdDone (.ite h.actAbort h.mntAbort.cmdDone)

theorem Keeps.execMaintAutoStart {activity : Fin 13} (h : Keeps s t) : Leads s (execMaintAutoStart activity t) := by
  unfold Machine.execMaintAutoStart
  refine .ite h.next ?_
  split
  · exact h.same.bump.ckptRefused.next
  · exact h.same.same.mntStart.mntBegin.next

theorem Keeps.execMaintEnd {activity : Fin 13} {ok : Bool} (h : Keeps s t) : Leads s (execMaintEnd activity ok t) :=
  .ite h.next <| .ite h.mntAbort.next <|
      .ite ((Keeps.ite h.bulkFlush.mntOver h.bulkFlush).next) (.ite h.mntFinish.mntOver.next h.next)

theorem Keeps.stestRound {k : Nat} (h : Keeps s t) : Keeps s (t.stestRound k) := h.same.same.stestStart

theorem Keeps.execSelftestStart {race : RaceId} {cluster : ClusterId} (h : Keeps s t) :
    Leads s (execSelftestStart race cluster t) := by
  unfold Machine.execSelftestStart
  refine .ite h.next (.ite h.stestRound.next ?_)
  split
  · exact h.same.bump.next
  · exact h.mntStart.stestRound.stestCheck.next

/-! ### Versions -/

theorem Keeps.commitFails {x : VCommit} {status : Nat} (h : Keeps s t) : Keeps s (t.commitFails x status) :=
  h.same.same.cmdDone
theorem Keeps.execVersionCommit {cmd : HostCmd} (h : Keeps s t) : Leads s (execVersionCommit cmd t) :=
  (h.startCmd fun _ _ h1 => .ite h1.cmdDone <| .ite h1.cmdDone <| .ite h1.cmdDone (.ite h1.cmdDone h1.same.same.same)).next

theorem Keeps.execVersionChecksDone {part : Part} {ring : Fin 4} {tag : Word32} (h : Keeps s t) :
    Leads s (execVersionChecksDone part ring tag t) := by
  unfold Machine.execVersionChecksDone
  split
  · exact .ite h.next <| .ite h.commitFails.next (.ite h.commitFails.next h.same.next)
  · exact h.next

theorem Keeps.execVersionActivate {part : Part} {ring : Fin 4} {tag : Word32} (h : Keeps s t) :
    Leads s (execVersionActivate part ring tag t) := by
  unfold Machine.execVersionActivate
  split
  · refine .ite h.next (.next (.cmdDone (.same (.same ?_))))
    split
    · exact h.same
    · exact h
  · exact h.next

theorem Keeps.execVersionStatus {cmd : HostCmd} (h : Keeps s t) : Leads s (execVersionStatus cmd t) :=
  (h.startCmd fun _ _ h1 => .ite h1.cmdDone <| .ite h1.cmdDone (.ite h1.cmdDone h1.cmdDone)).next

/-! ### ABORT, COMMIT and ATTEST -/

theorem Keeps.abortBg {c y : CmdRef} (h : Keeps s t) : Keeps s (t.abortBg c y) := by
  unfold State.abortBg
  split
  · exact h.same.cmdDone.cmdDone
  · split
    · exact h.same.cmdDone.cmdDone
    · exact h.cmdDone
  · split
    · exact .ite h.cmdDone h.commitFails.cmdDone
    · exact h.cmdDone
  · split
    · exact .ite h.same.cmdDone.cmdDone h.cmdDone
    · exact h.cmdDone
  · exact h.actAbort
  · exact h.cmdDone

theorem Keeps.abortCmd {c : CmdRef} {i tag : Nat} (h : Keeps s t) : Keeps s (t.abortCmd c i tag) := by
  unfold State.abortCmd
  split
  · exact h.abortBg
  · exact h.cmdDone

theorem Keeps.abortRx {c : CmdRef} {j : Nat} (h : Keeps s t) : Keeps s (t.abortRx c j) := .ite h.same.cmdDone h.cmdDone
theorem Keeps.abortTx {c : CmdRef} {j : Nat} (h : Keeps s t) : Keeps s (t.abortTx c j) :=
  .ite h.same.same.same.same.cmdDone h.cmdDone

theorem Keeps.abortThread {c : CmdRef} {n : Nat} (h : Keeps s t) : Keeps s (t.abortThread c n) := by
  unfold State.abortThread
  split
  · exact .ite h.cmdDone h.exception.cmdDone
  · exact .ite h.cmdDone h.endService.cmdDone

theorem Keeps.execAbort {cmd : HostCmd} (h : Keeps s t) : Leads s (execAbort cmd t) := by
  unfold Machine.execAbort
  refine .next (.startCmd h fun _ _ h1 => ?_)
  refine .ite h1.cmdDone ?_
  split
  · exact .ite h1.cmdDone h1.abortCmd
  · exact .ite h1.cmdDone h1.abortRx
  · exact .ite h1.cmdDone h1.abortTx
  · exact .ite h1.cmdDone <| .ite h1.walkBreak.bump.cmdDone h1.cmdDone
  · exact .ite h1.cmdDone (.ite h1.cmdDone h1.mntStopFor)
  · exact .ite h1.cmdDone h1.abortThread
  · exact h1.cmdDone

theorem Keeps.execCommit {cmd : HostCmd} (h : Keeps s t) : Leads s (execCommit cmd t) := by
  unfold Machine.execCommit
  refine .next (.startCmd h fun _ _ h1 => ?_)
  split
  · exact h1.cmdDone
  · exact .ite h1.cmdDone (.ite h1.cmdDone h1.commitGo.cmdDone)

theorem Keeps.execAttestDone {part : Part} {ring : Fin 4} {tag : Word32} (h : Keeps s t) :
    Leads s (execAttestDone part ring tag t) := by
  unfold Machine.execAttestDone
  split
  · exact h.next
  · exact (Keeps.ite h.same.hostWrite h.same).cmdDone.next

/-! ### Blocks reset -/

theorem Keeps.leavingDrop {x : Leaving} (h : Keeps s t) : Keeps s (t.leavingDrop x) := by
  cases x with
  | toQueue d => exact h.letGo.hostRead_
  | toRing i => exact h.rxLeave

theorem Keeps.raceClear {r : Nat} (h : Keeps s t) : Keeps s (t.raceClear r) :=
  ((((h.foldl fun _ _ h1 => h1.sluiceDrop).same.foldl fun _ _ h1 => h1.foldl fun _ _ h2 => h2.leavingDrop).foldl fun _ _ h1
      => h1.dropPkt).same.same.foldl fun _ _ h1 => h1.endService).same.haltCover

theorem Keeps.opMissed {sl : Nat} {o : FlowOp} (h : Keeps s t) : Keeps s (t.opMissed sl o) := by
  unfold State.opMissed
  dsimp only
  split
  · refine .cmdDone ?_
    split
    · exact h.bump
    · exact h
  · refine .opt ?_ Keeps.rfl.mntAbort
    split
    · exact h.bump
    · exact h
  · refine .complete ?_
    split
    · exact h.bump
    · exact h

theorem Keeps.passCut {sl : Nat} (h : Keeps s t) : Keeps s (t.passCut sl) := by
  unfold State.passCut
  refine .foldl h.same fun _ _ h1 => ?_
  split
  · exact h1.same
  · exact h1

theorem Keeps.flowClear {i : Nat} (h : Keeps s t) : Keeps s (t.flowClear i) :=
  h.foldl fun _ _ h1 => h1.same.passCut.foldl fun _ _ h2 => h2.opMissed
theorem Keeps.cutTx {n : Nat} (h : Keeps s t) : Keeps s (t.cutTx n) := h.settleCbs.same.foldl fun _ _ h1 => h1.same.dropCopy

theorem Keeps.tailClear {j : Nat} (h : Keeps s t) : Keeps s (t.tailClear j) :=
  (((h.foldl fun _ _ h1 => h1.cutTx.same).foldl fun _ _ h1 => h1.same.foldl fun _ _ h2 => h2.dropCopy).foldl fun _ _ h1 =>
      h1.same).same

theorem Keeps.octetClear {k : Nat} (h : Keeps s t) : Keeps s (t.octetClear k) := h.foldl fun _ _ h1 => h1.linkFall.cutTx

theorem Keeps.raceDiscard {r : Nat} {gone : List Nat} (h : Keeps s t) : Keeps s (t.raceDiscard r gone) :=
  ((((h.foldl fun _ _ h1 => h1.sluiceDrop).same.foldl fun _ _ h1 => h1.freeThread).foldl fun _ _ h1 => h1.foldl fun _ _ h2
      => h2.leavingDrop).foldl fun _ _ h1 => h1.dropPkt).pauses

theorem Keeps.tailDiscard {j : Nat} (h : Keeps s t) : Keeps s (t.tailDiscard j) :=
  (h.foldl fun _ _ h1 => h1.cutTx).foldl fun _ _ h1 => h1.foldl fun _ _ h2 => h2.unqueue.dropCopy

theorem Keeps.hopClear (h : Keeps s t) : Keeps s t.hopClear :=
  (((h.foldl fun _ _ h1 => h1.raceDiscard).foldl fun _ _ h1 => h1.tailDiscard).foldl fun _ _ h1 => h1.same.foldl fun _ _ h2
      => h2.dropCopy).same.pauseEnds

theorem Keeps.blockClear {kind i : Nat} (h : Keeps s t) : Keeps s (t.blockClear kind i) := by
  unfold State.blockClear
  split
  · exact h.raceClear
  · exact h.flowClear
  · exact h.tailClear
  · exact h.octetClear
  · exact h.bump.hopClear

/-! ### The replay -/

theorem Keeps.restoreAt {sl i : Nat} {k : Kept} (h : Keeps s t) : Keeps s (t.restoreAt sl i k).1 := by
  unfold State.restoreAt
  dsimp only
  split
  · exact (h.fPlace.mid ‹_›).setRecWords.same
  · exact (h.fPlace.mid ‹_›)

theorem Keeps.notRestored {i : Nat} {k : Kept} (h : Keeps s t) : Keeps s (t.notRestored i k) := h.event

theorem Keeps.restoreHome {i : Nat} {k : Kept} (h : Keeps s t) : Keeps s (t.restoreHome i k) := by
  unfold State.restoreHome
  dsimp only
  split
  · exact (h.restoreAt.fst ‹_›).same
  · exact h.jDelete.notRestored

theorem Keeps.restoreMoved {i : Nat} {k : Kept} (h : Keeps s t) : Keeps s (t.restoreMoved i k) := by
  unfold State.restoreMoved
  dsimp only
  split
  · exact h.notRestored
  · split
    · exact (h.restoreAt.fst ‹_›).same.jInsert.event
    · exact h.notRestored

theorem Keeps.replay (h : Keeps s t) : Keeps s t.replay :=
  ((h.foldl fun _ _ h1 => h1.restoreHome).foldl fun _ _ h1 => h1.jDelete).foldl fun _ _ h1 => h1.restoreMoved

/-! ### Resets and starts -/

theorem Keeps.rstCause {src reach : Nat} (h : Keeps s t) : Keeps s (t.rstCause src reach) := h.same.event
theorem Keeps.rstMerge {src : Nat} (h : Keeps s t) : Keeps s (t.rstMerge src) := h.same.bump

theorem Keeps.endInSafe {cause : Option Nat} (h : Keeps s t) : Keeps s (t.endInSafe cause) := by
  unfold State.endInSafe
  split
  · exact .ite h h.same
  · exact h

theorem Keeps.enterMode {m : Mode} (h : Keeps s t) : Keeps s (t.enterMode m) :=
  .opt (.ite (h.setMode.foldl fun _ _ h1 => h1.linkFall) h.setMode) Keeps.rfl.stopPasses
theorem Keeps.enterSafe {cause : Nat} (h : Keeps s t) : Keeps s (t.enterSafe cause) := h.same.enterMode
theorem Keeps.sessionReset (h : Keeps s t) : Keeps s t.sessionReset := .ite h h.event

theorem Keeps.coldReset {src : Nat} (h : Keeps s t) : Keeps s (t.coldReset src) := by
  unfold State.coldReset
  extract_lets u v j r w e _ x _
  have hv : Keeps s v := h.drainTail.sessionReset.setMode
  have hw : Keeps s w := hv.wf (u := w) fun ⟨_, _, _, hn, hh⟩ => ⟨Eq.refl _, Eq.refl _, Eq.refl _, hn, hh⟩
  clear_value w
  have hx : Keeps s x := hw.same
  clear_value x
  exact hx.same.event.same

theorem Keeps.coldSource {src : Nat} (h : Keeps s t) : Keeps s (t.coldSource src) := .ite h h.coldReset
theorem Keeps.abandon (h : Keeps s t) : Keeps s t.abandon := (h.foldl fun _ _ h1 => h1.mntAbort).same
theorem Keeps.warmReach (h : Keeps s t) : Keeps s t.warmReach :=
  (h.abandon.drainTail.sessionReset.foldl fun _ _ h1 => h1.presetBegin).same.gatesRestart.same

theorem Keeps.warmAccept {src : Nat} {cause : Option Nat} {uncounted : Bool} (h : Keeps s t) :
    Keeps s (t.warmAccept src cause uncounted) := by
  unfold State.warmAccept
  exact (Keeps.opt (.ite h.same.same.endInSafe h.same.same.endInSafe) Keeps.rfl.same.bump).bump.rstCause.enterMode

theorem Keeps.warmReset {src : Nat} {cause : Option Nat} {uncounted : Bool} (h : Keeps s t) :
    Keeps s (t.warmReset src cause uncounted) := by
  unfold State.warmReset
  split
  · exact h
  · exact h
  · exact h
  · exact h.rstMerge.endInSafe
  · exact .ite h.rstMerge.endInSafe.setMode h.rstMerge.endInSafe.setMode
  · exact .ite h.rstMerge.endInSafe.setMode h.rstMerge.endInSafe.setMode
  · exact h.warmAccept

theorem Keeps.trimApply {src : Nat} (h : Keeps s t) : Keeps s (t.trimApply src) :=
  (Keeps.unless (h.foldl fun _ _ h1 => h1.same) Keeps.rfl.same).same.same
theorem Keeps.trimFailed (h : Keeps s t) : Keeps s t.trimFailed := h.same.eventAny

theorem Keeps.trimLoads {fails f i : Nat} (h : Keeps s t) : Keeps s (t.trimLoads fails f i) := by
  induction f generalizing t i with
  | zero => exact h
  | succ f ih =>
    have hf := h.trimFailed
    exact .ite h.trimApply (.ite (ih hf) (.ite hf.eventAny.eventAny.trimApply hf.eventAny.trimApply))

theorem Keeps.slotVerdict {i : Nat} {ok : Bool} (h : Keeps s t) : Keeps s (t.slotVerdict i ok) := .ite h.same h.same.event

theorem Keeps.pickSlot {ok : Nat → Bool} (h : Keeps s t) : Keeps s (t.pickSlot ok).2 := by
  unfold State.pickSlot
  dsimp only
  split
  · exact h.slotVerdict
  · split <;> exact h.slotVerdict.slotVerdict

theorem Keeps.ucsConfig (h : Keeps s t) : Keeps s t.ucsConfig := (Keeps.ite h.eventAny h).foldl fun _ _ h1 => h1.same

theorem Keeps.memInit (h : Keeps s t) : Keeps s t.memInit := by
  unfold State.memInit
  extract_lets _ u v _
  have hu : Keeps s u := h.wf (u := u) fun ⟨hp, _, _, hn, hh⟩ => ⟨hp, Eq.refl _, Eq.refl _, hn, hh⟩
  clear_value u
  have hv : Keeps s v := hu.replay
  clear_value v
  exact hv.same

theorem Keeps.raiseMin (h : Keeps s t) : Keeps s t.raiseMin := .ite h.same.eventAny h

theorem Keeps.bootEnd (h : Keeps s t) : Keeps s t.bootEnd := by
  unfold State.bootEnd
  split
  · exact h.enterSafe
  · exact h.enterMode.raiseMin

theorem Keeps.warmOver (h : Keeps s t) : Keeps s t.warmOver := .ite h h.same

theorem Keeps.execBootComplete {a b : Bool} (h : Keeps s t) : Leads s (Machine.execBootComplete a b t) := by
  unfold Machine.execBootComplete
  split
  · split
    next he => exact (h.pickSlot.snd he).enterMode.warmOver.next
    next he =>
      have hp := h.pickSlot.snd he
      exact (Keeps.ite hp.same.same.memInit hp.same.same).ucsConfig.patchStart.bootEnd.warmOver.next
  · exact h.next

theorem Keeps.execBrownOut {rail : Option Byte} (h : Keeps s t) : Leads s (execBrownOut rail t) := by
  unfold Machine.execBrownOut
  refine .ite h.next ?_
  split
  · exact h.event.coldReset.next
  · exact .ite h.same.coldReset.next h.next

theorem Keeps.commitStart (h : Keeps s t) : Keeps s t.commitStart := (h.same.enterMode.foldl fun _ _ h1 => h1.cutTx).same

theorem Keeps.execPowerFailWarning (h : Keeps s t) : Leads s (execPowerFailWarning t) := by
  unfold Machine.execPowerFailWarning
  split
  · exact h.next
  · exact h.same.next
  · exact h.commitStart.next

theorem Keeps.execRstNRelease {lowNs : Nat} (h : Keeps s t) : Leads s (execRstNRelease lowNs t) :=
  .ite h.same.next <| .ite h.next <| .ite (.ite h.same.warmReset.next h.same.next) h.warmReset.next

theorem Keeps.execWindshaftWatchdog {pair : Fin 4} (h : Keeps s t) : Leads s (execWindshaftWatchdog pair t) := by
  unfold Machine.execWindshaftWatchdog
  split
  · exact h.next
  · exact h.next
  · exact h.next
  · exact h.safety.same.warmReset.next

theorem Keeps.execLockstepMismatch {pair : Fin 4} (h : Keeps s t) : Leads s (execLockstepMismatch pair t) := by
  unfold Machine.execLockstepMismatch
  split
  · exact h.next
  · exact h.next
  · exact h.safety.same.warmReset.next

theorem Keeps.clocksLost (h : Keeps s t) : Keeps s t.clocksLost := h.same.safety.same.warmReset
theorem Keeps.execResonatorFail {which : Fin 2} (h : Keeps s t) : Leads s (execResonatorFail which t) :=
  .ite h.next <| .ite h.clocksLost.next h.same.safety.degrade.next

theorem Keeps.execIslandPllLostLock {island : Fin 107} (h : Keeps s t) : Leads s (execIslandPllLostLock island t) := by
  unfold Machine.execIslandPllLostLock
  split
  · exact h.next
  · exact h.next
  · exact (Keeps.ite h.safety.same <| .ite h.safety.same (.ite h.safety.same h.safety.same)).next

/-! ### Modes and firmware -/

theorem Keeps.execModeReq {cmd : HostCmd} (h : Keeps s t) : Leads s (execModeReq cmd t) := by
  unfold Machine.execModeReq
  refine .next (.startCmd h fun _ _ h1 => ?_)
  split
  · exact h1.cmdDone
  · exact .ite h1.cmdDone ((Keeps.ite h1.enterSafe h1.enterMode).eventAny.cmdDone)

theorem Keeps.blockBegin {src kind i : Nat} {who : Option CmdRef} (h : Keeps s t) : Keeps s (t.blockBegin src kind i who) :=
  h.bump.rstCause.same
theorem Keeps.blockApply {b : BlkReset} {timedOut : Bool} (h : Keeps s t) : Keeps s (t.blockApply b timedOut) :=
  (Keeps.ite h.bump h).blockClear.same

theorem Keeps.execIslandQuiesced (h : Keeps s t) : Leads s (execIslandQuiesced t) := by
  unfold Machine.execIslandQuiesced
  split
  · exact .ite h.blockApply.next h.next
  · exact h.next

theorem Keeps.execQuiesceTimeout (h : Keeps s t) : Leads s (execQuiesceTimeout t) := by
  unfold Machine.execQuiesceTimeout
  split
  · exact .ite h.blockApply.next h.next
  · exact h.next

theorem Keeps.execIslandResumed (h : Keeps s t) : Leads s (execIslandResumed t) := by
  unfold Machine.execIslandResumed
  dsimp only
  split
  · refine .ite ?_ h.next
    split
    · exact (Keeps.ite (h.same.foldl fun _ _ h1 => h1.passCut) h.same).cmdDone.next
    · exact (Keeps.ite (h.same.foldl fun _ _ h1 => h1.passCut) h.same).next
  · exact h.next

theorem Keeps.fwStart {op slot : Nat} (h : Keeps s t) : Keeps s (t.fwStart op slot) := by
  unfold State.fwStart
  split
  · exact .ite h.eventAny.same h.eventAny.same
  · exact .ite h.eventAny.same.same h.eventAny.same
  · exact .ite h.eventAny.same h.eventAny.same
  · exact h.eventAny.same

theorem Keeps.fwCtlWrite {m : Master} {v : Nat} (h : Keeps s t) : Keeps s (t.fwCtlWrite m v) :=
  .ite h.denyMaster (.ite h (.ite h.same.fwStart h.same))

theorem Keeps.execFwOperationDone {result : Option Bool} (h : Keeps s t) : Leads s (execFwOperationDone result t) := by
  unfold Machine.execFwOperationDone
  split
  · exact h.next
  · split
    · exact h.dmaRead.same.same.next
    · exact h.same.next
    · exact h.same.next
    · exact h.same.same.same.next
    · exact h.same.next
    · exact h.next

/-! ### DRAM apertures -/

theorem Keeps.setRingEntry {i v : Nat} (h : Keeps s t) : Keeps s (t.setRingEntry i v) := by
  generalize hf : State.setRingEntry = f
  delta State.setRingEntry at hf
  subst hf
  beta_reduce
  generalize t.hop.ringPos i = x
  cases x with
  | none => exact h
  | some k =>
    dsimp only
    generalize runSplit k t.hop.pageRing = y
    obtain ⟨a, b⟩ := y
    exact h.same

theorem Keeps.dramWord {a : Nat} (h : Keeps s t) : Keeps s (t.dramWord a).2 := by
  unfold State.dramWord
  split
  · exact h
  · exact h
  · exact h
  · exact h
  · exact .ite h h.same
  · exact h
  · exact h.same

theorem Keeps.setDramWord {a v : Nat} (h : Keeps s t) : Keeps s (t.setDramWord a v) := by
  unfold State.setDramWord
  split
  · exact h.same
  · exact h.same
  · exact h.same
  · exact h.same
  · exact h.setRingEntry.setRingEntry
  · exact h.dramWrite
  · exact h.dramWrite

theorem Keeps.dramGet {a n : Nat} (h : Keeps s t) : Keeps s (t.dramGet a n).2 := h.dramWord
theorem Keeps.dramPut {a n v : Nat} (h : Keeps s t) : Keeps s (t.dramPut a n v) := h.setDramWord

theorem Keeps.bar2Read {p a : Nat} (h : Keeps s t) : Keeps s (t.bar2Read p a).2 := by
  unfold State.bar2Read
  split
  · exact h.deny
  · split
    · exact h.same
    · exact h

theorem Keeps.bar2Write {p a v : Nat} (h : Keeps s t) : Keeps s (t.bar2Write p a v) := .ite h.dramWrite h.deny

/-! ### Safety and ageing -/

theorem Keeps.targetLost {code : Nat} {hit : Nat → Bool} (h : Keeps s t) : Keeps s (t.targetLost code hit) :=
  .ite h.mntAbort.bump h
theorem Keeps.reactB {k e : Nat} (h : Keeps s t) : Keeps s (t.reactB k e) := h.isolateEngine.same.targetLost

theorem Keeps.isolateBlock {kind i : Nat} (h : Keeps s t) : Keeps s (t.isolateBlock kind i) := by
  unfold State.isolateBlock
  refine .opt (.targetLost (.event ?_)) Keeps.rfl.targetLost
  split
  · exact (h.same.foldl fun _ _ h1 => h1.linkFall.cutTx).raceDiscard
  · exact (h.same.foldl fun _ _ h1 => h1.linkFall.cutTx).tailDiscard
  · exact h.same.foldl fun _ _ h1 => h1.linkFall.cutTx

theorem Keeps.isolateCluster {k : Nat} (h : Keeps s t) : Keeps s (t.isolateCluster k) :=
  h.same.clusterOff.degrade.targetLost.targetLost
theorem Keeps.reactC {kind i : Nat} (h : Keeps s t) : Keeps s (t.reactC kind i) :=
  .ite h ((Keeps.ite h.isolateCluster h.isolateBlock).same.degrade.same)

theorem Keeps.reactD {code : Nat} (h : Keeps s t) : Keeps s (t.reactD code) := by
  unfold State.reactD
  split
  · exact h.event.same.enterSafe
  · exact h.event.same.enterSafe
  · exact h.event.same.enterSafe
  · exact h.event.same.endInSafe
  · exact h.event.same.endInSafe
  · exact h.event.same.endInSafe
  · exact h

theorem Keeps.reactNext (h : Keeps s t) : Keeps s t.reactNext := by
  unfold State.reactNext
  split
  · exact h
  · exact .ite h.same.reactC h.same.reactD

theorem Keeps.pageBad {n a : Nat} (h : Keeps s t) : Keeps s (t.pageBad n a) :=
  h.same.foldl fun _ _ h1 => h1.foldl fun _ _ h2 => h2.unqueue.dropCopy

theorem Keeps.failed {f : Failure} (h : Keeps s t) : Keeps s (t.failed f) := by
  cases f with
  | crc32c p => exact .ite h.same.crcFailed h
  | residue r c e => exact h.safety.reactB
  | cell k a => exact .ite h h.same.safety.same
  | page p a => exact h.same.pageBad.safety.same
  | thread i => exact .ite h.same h
  | program a => exact h.wf id
  | classEntry r a => exact h.same.safety
  | rule r i => exact h.same
  | emEntry r x => exact .ite h.emDelete.safety h
  | lpm v6 i n a => exact .ite h.same.safety h
  | record i => exact h.same
  | bucket sl g => exact h.same
  | controlStore r c m => exact h.same
  | noOwner u a => exact h.safety.same
  | corrected => exact h.bump

theorem Keeps.execSafetyReaction {failure : Option Failure} (h : Keeps s t) : Leads s (execSafetyReaction failure t) := by
  unfold Machine.execSafetyReaction
  refine .ite h.next ?_
  split
  · exact h.failed.next
  · exact h.reactNext.next

theorem Keeps.probe (h : Keeps s t) : Keeps s t.probe := h.same.bump

theorem Keeps.execHeartbeatRun {race : RaceId} {cluster : ClusterId} {engine : EngineId} {pass : Option Bool}
    (h : Keeps s t) : Leads s (execHeartbeatRun race cluster engine pass t) := by
  unfold Machine.execHeartbeatRun
  refine .ite ?_ h.next
  split <;> exact h.probe.same.next

theorem Keeps.hbVerdict {hb : SMap Nat} {excused : List Nat} {k e : Nat} (h : Keeps s t) :
    Keeps s (t.hbVerdict hb excused k e) := by
  unfold State.hbVerdict
  refine .ite h ?_
  split
  · exact h.same
  · exact h.safety.reactB
  · exact .ite h.same h.same.safety.reactB

theorem Keeps.islandAged {i margin guard years : Nat} (h : Keeps s t) : Keeps s (t.islandAged i margin guard years) :=
  .opt (.ite h.same.same.event.same h.same) (.ite Keeps.rfl.safety.same <| .ite Keeps.rfl.safety.same <|
      .ite Keeps.rfl.safety.same Keeps.rfl.safety.same)

theorem Keeps.ageSummary (h : Keeps s t) : Keeps s t.ageSummary := h.same.same
theorem Keeps.vinAlert {vin : Nat} (h : Keeps s t) : Keeps s (t.vinAlert vin) :=
  .ite h.same (.ite h.same (.ite h.same.same h))

/-! ### The register bus -/

theorem Keeps.refuse {m : Master} {kind a : Nat} (h : Keeps s t) : Keeps s (t.refuse m kind a).2.2 := h.denyMaster

theorem Keeps.readReserved {m : Master} {a : Nat} (h : Keeps s t) : Keeps s (t.readReserved m a).2.2 := by
  unfold State.readReserved
  split
  · exact h
  · split
    · exact h.same
    · exact h.refuse

theorem Keeps.readDeny {m : Master} {p : Nat} (h : Keeps s t) : Keeps s (t.readDeny m p).2 := h.latchAll
theorem Keeps.readRob {r : Nat} (h : Keeps s t) : Keeps s (t.readRob r).2 := h.same
theorem Keeps.readPortStatus {n : Nat} (h : Keeps s t) : Keeps s (t.readPortStatus n).2 := h.same

theorem Keeps.readReg {m : Master} {r : RegRow} {is : List Nat} {w a : Nat} (h : Keeps s t) :
    Keeps s (t.readReg m r is w a).2 := by
  unfold State.readReg
  dsimp only
  split
  · exact h
  · split
    · exact h.readCapture
    · split
      · exact h.readPpsin
      · split
        · exact h.readTodRx
        · split
          · exact h.popTsq
          · split
            · split
              · exact h.readDeny
              · exact h
            · split
              · exact h.readRob
              · split
                · exact h.readPortStatus
                · split
                  · split
                    · exact h.same
                    · exact h
                  · exact h

theorem Keeps.busRead {m : Master} {a : Nat} (h : Keeps s t) : Keeps s (t.busRead m a).2.2 := by
  unfold State.busRead
  split
  · exact h
  · split
    · split <;> exact h
    · split
      · split
        · split
          · exact h
          · exact h.refuse
        · split <;> exact h
      · split
        · exact h.readReserved
        · split
          · exact h.refuse
          · exact h.readReg

theorem Keeps.readAt {m : Master} {x : Nat} (h : Keeps s t) : Leads s (t.readAt m x) := by
  unfold State.readAt
  refine .ite ?_ (.ite h.same.next h.next)
  split
  · exact h.bar2Read.same.next
  · exact h.same.next
  · split
    · exact h.busRead.same.next
    · exact h.denyMaster.same.next

theorem Keeps.ringWrite {x : RegWord} {p size w a v : Nat} (h : Keeps s t) : Keeps s (t.ringWrite x p size w a v) := by
  unfold State.ringWrite
  split
  · exact .ite h h.same
  · exact .ite h.same (.ite h h.same.same.same)
  · exact h.same

theorem Keeps.cmdqWrite {x : RegWord} {p i w a v : Nat} (h : Keeps s t) : Keeps s (t.cmdqWrite x p i w a v) :=
  .ite (.ite h h.same) <| .ite h <| .ite h <| .ite h.same (.ite h.same.same.same.same.same h.same)

theorem Keeps.dmaqWrite {x : RegWord} {tx : Bool} {p j w a v : Nat} (h : Keeps s t) :
    Keeps s (t.dmaqWrite x tx p j w a v) :=
  .ite (.ite h h.same) <| .ite h <| .ite h <| .ite h.same <| .ite (.opt h.same.same.same Keeps.rfl.same.same) h.same

theorem Keeps.modeNextWrite {w v : Nat} (h : Keeps s t) : Keeps s (t.modeNextWrite w v) := h.same.same
theorem Keeps.dsubWrite {p w v : Nat} (h : Keeps s t) : Keeps s (t.dsubWrite p w v) := .ite h h.same
theorem Keeps.selWrite {u i v : Nat} (h : Keeps s t) : Keeps s (t.selWrite u i v) := .ite h (.ite h.same.same h.same)
theorem Keeps.winWrite {w v : Nat} (h : Keeps s t) : Keeps s (t.winWrite w v) :=
  .ite h.same <| .ite (.ite h.same.same.same h.same.same.same) (.ite h.same.same h.same.same)
theorem Keeps.userReadWrite {p v : Nat} (h : Keeps s t) : Keeps s (t.userReadWrite p v) := .ite h.same.same h.same
theorem Keeps.laneWrite {n v : Nat} (h : Keeps s t) : Keeps s (t.laneWrite n v) :=
  .ite (.ite h.same.same.linkFall h.same.same) h.same
theorem Keeps.coverWrite {v : Nat} (h : Keeps s t) : Keeps s (t.coverWrite v) := .ite h.same h

theorem Keeps.writeReg {m : Master} {r : RegRow} {x : RegWord} {is : List Nat} {w a v : Nat} (h : Keeps s t) :
    Keeps s (t.writeReg m r x is w a v) :=
  .ite h.commitWrite <| .ite h.taccWrite <| .ite h.tcamGo <| .ite h.lbWrite <| .ite h.lbSvc <| .ite h.rateWrite <|
      .ite h.stepWrite <| .ite h.setWrite <| .ite h.eecWrite <| .ite h.fwCtlWrite <| .ite h <| .ite h.modeNextWrite <|
      .ite h.dsubWrite <| .ite h.selWrite <| .ite h.winWrite <| .ite h.userReadWrite <| .ite h.laneWrite <|
      .ite h.coverWrite <| .ite h.ringWrite <| .ite h.ringWrite <| .ite h.cmdqWrite <| .ite h.dmaqWrite <|
      .ite h.dmaqWrite <| .ite (.ite h.same.modGo h.same) (.ite h h.same)

theorem Keeps.progWrite {m : Master} {banks : List Nat} {off v a : Nat} (h : Keeps s t) :
    Keeps s (t.progWrite m banks off v a).2 := by
  have hset (l : List Nat) (x : Mem) (hx : Memory.wf x = true) :
      Memory.wf (l.foldl (fun q b => setBytes q b (leBytes 4 v)) x) = true :=
    List.foldlRecOn (motive := fun q => Memory.wf q = true) l _ hx fun q hq b _ => setBytes_wf _ q b hq
  unfold State.progWrite
  extract_lets may x at_
  split
  · exact h.denyMaster
  · exact h.wf fun ⟨hp, hd, hs, hn, hh⟩ => ⟨hset _ _ hp, hd, hs, hn, hh⟩

theorem Keeps.busWrite {m : Master} {a v : Nat} (h : Keeps s t) : Keeps s (t.busWrite m a v).2 := by
  unfold State.busWrite
  split
  · exact h
  · split
    · exact h.progWrite
    · split
      · exact h.denyMaster
      · split
        · split
          · exact h
          · split
            · exact h
            · exact h.denyMaster
        · split
          · exact h.denyMaster
          · split
            · exact h.bump
            · split
              · exact h.writeReg
              · exact h

theorem Keeps.writeAt {m : Master} {x v : Nat} (h : Keeps s t) : Leads s (t.writeAt m x v) := by
  unfold State.writeAt
  refine .atBus h fun _ h1 => ?_
  split
  · exact h1.bar2Write
  · exact h1.bar4Write
  · split
    · exact h1.busWrite
    · exact h1.denyMaster

/-! ### The debug port -/

theorem Keeps.unhalt {n : Nat} {step mstep : Bool} (h : Keeps s t) : Keeps s (t.unhalt n step mstep) := by
  unfold State.unhalt
  refine .ite h.same.endService (.haltCover ?_)
  split
  · exact .ite h.same.join h.same
  · exact h.same

theorem Keeps.sessionRelease (h : Keeps s t) : Keeps s t.sessionRelease :=
  .after (.ite (.ite Keeps.rfl.same Keeps.rfl) (.ite Keeps.rfl.same.same Keeps.rfl))
      (((h.foldl fun _ _ h1 => h1.unhalt).foldl fun _ _ h1 => (h1.foldl fun _ _ h2 => h2.same).foldl fun _ _ h2 =>
      h2.same).same)

theorem Keeps.sessionEnd {why : Nat} (h : Keeps s t) : Keeps s (t.sessionEnd why) :=
  .ite h h.sessionRelease.same.event.debugCover
theorem Keeps.freeBytes64 (h : Keeps s t) : Keeps s (t.freeBytes64).2 := h.same
theorem Keeps.unlockTry {level : Nat} (h : Keeps s t) : Keeps s (t.unlockTry level) :=
  .ite h.same.event.debugCover <| .ite (.opt h.same.event.same Keeps.rfl.event) h.same.event
theorem Keeps.programUser (h : Keeps s t) : Keeps s t.programUser := .ite h.same h.same.event

theorem Keeps.unlockOp {op level : Nat} (h : Keeps s t) : Keeps s (t.unlockOp op level) := by
  unfold State.unlockOp
  split
  · exact h.freeBytes64.same
  · exact h.unlockTry
  · exact h.sessionEnd.same
  · exact h.programUser
  · exact h.same

theorem Keeps.apGet {space a n : Nat} (h : Keeps s t) : Keeps s (t.apGet space a n).2.2 := by
  unfold State.apGet
  split
  · split
    next he =>
      have h1 : Keeps s _ := h.busRead.last he
      split
      · exact h1
      · split
        next he => exact h1.busRead.last he
  · exact h.same
  · exact h.same
  · exact h.dramGet
  · split
    · exact h
    · split
      · exact h
      · exact h.same
  · extract_lets l
    clear_value l
    split
    · exact h
    · exact h

theorem Keeps.apPut {space a n v : Nat} (h : Keeps s t) : Keeps s (t.apPut space a n v).2 := by
  unfold State.apPut
  split
  · dsimp only
    split
    · exact h.busWrite
    · exact h.busWrite.busWrite
  · exact h.wf fun ⟨hp, hd, hs, hn, hh⟩ => ⟨hp, hd, setBytes_wf _ _ _ hs, hn, hh⟩
  · exact h.dramPut
  · exact h.wf fun ⟨hp, hd, hs, hn, hh⟩ => ⟨hp, hd, hs, setBytes_wf _ _ _ hn, hh⟩
  · split
    · exact h
    · split
      · exact h.same
      · exact h

theorem Keeps.apDo {wr : Bool} {space a n v : Nat} (h : Keeps s t) : Keeps s (t.apDo wr space a n v).2.2 := by
  unfold State.apDo
  split
  · exact h
  · split
    · exact h
    · split
      · exact h
      · split
        · exact h.apPut
        · exact h.apGet

theorem Keeps.firstWrite {space : Nat} (h : Keeps s t) : Keeps s (t.firstWrite space) := .ite h h.same.event
theorem Keeps.apGo {v : Nat} (h : Keeps s t) : Keeps s (t.apGo v) :=
  .ite h.apDo.same <| .opt (.ite (.ite h.apDo.same.firstWrite h.apDo.same) h.apDo.same.same.same) Keeps.rfl.same.same

theorem Keeps.microDone {n : Nat} {v : MView} {x : MWord} {f : Nat} (h : Keeps s t) : Keeps s (t.microDone n v x f) := by
  unfold State.microDone
  dsimp only
  split
  · exact h.same.unhalt
  · exact h.same

theorem Keeps.microStep {n more : Nat} (h : Keeps s t) : Keeps s (t.microStep n more) := by
  induction more generalizing t with
  | zero => exact h
  | succ more ih =>
    unfold State.microStep
    dsimp only
    split
    · exact h
    · split
      · exact h.csFaultAt
      · split
        · exact h
        · exact .ite h.microDone (.ite (.ite (ih h.microDone) h.microDone) h)

theorem Keeps.threadOp {op : Nat} (h : Keeps s t) : Keeps s (t.threadOp op).2 := by
  unfold State.threadOp
  dsimp only
  split
  · exact h
  · split
    · split
      · exact h
      · split
        · exact h
        · exact h.same
    · split
      · exact h
      · exact h.unhalt
    · split
      · exact h
      · exact h.unhalt
    · split
      · exact h
      · exact h.same
    · split
      · exact h
      · split
        · exact h
        · exact h.microStep
    · exact h

theorem Keeps.threadGo {op : Nat} (h : Keeps s t) : Keeps s (t.threadGo op) := h.threadOp.same

theorem Keeps.haltOp {op : Nat} (h : Keeps s t) : Keeps s (t.haltOp op) := by
  unfold State.haltOp
  dsimp only
  split
  · exact h.same
  · exact .opt h.same.same.same Keeps.rfl.irqAll.coverage

theorem Keeps.haltEnter {a : Nat} (h : Keeps s t) : Keeps s (t.haltEnter a) :=
  (h.foldl fun _ _ h1 => h1.linkFall.cutTx).same.same.eventAny.event.debugCover
theorem Keeps.haltLeave (h : Keeps s t) : Keeps s t.haltLeave := h.same.same.setMode.same

theorem Keeps.resetOp {v : Nat} (h : Keeps s t) : Keeps s (t.resetOp v) := by
  unfold State.resetOp
  split
  · exact .ite h.same h.same.warmReset
  · exact .ite h.same <| .ite h.same (.ite h.same h.same.blockBegin)
  · exact .ite h.same.enterMode h.same
  · exact h.same

theorem Keeps.dbgWrite {x : RegWord} {a v : Nat} (h : Keeps s t) : Keeps s (t.dbgWrite x a v) :=
  .ite (.ite h.same.unlockOp h.same) <| .ite (.ite h.same.apGo h.same) <| .ite (.ite h.same.threadGo h.same) <|
      .ite (.ite h.same.haltOp h.same) (.ite (.ite h.same.resetOp h.same) h.same)

theorem Keeps.eaccGet {o : Nat} (h : Keeps s t) : Keeps s (t.eaccGet o) := by
  unfold State.eaccGet
  dsimp only
  split
  · exact h.same.same
  · exact .ite h.same.same (.ite h.same.same h.same.readReg.same)

theorem Keeps.eaccPut {o v : Nat} (h : Keeps s t) : Keeps s (t.eaccPut o v) := by
  unfold State.eaccPut
  split
  · exact h.same.same
  · refine .ite h.same.same (.ite h.same.same ?_)
    split
    · exact h.same.same.dbgWrite
    · exact h.same.same

theorem Keeps.dbgGo {a lo w op : Nat} (h : Keeps s t) : Keeps s (t.dbgGo a lo w op) := h.eaccPut
theorem Keeps.tap {ir : Nat} {pins : Bool} {dr : Nat} (h : Keeps s t) : Leads s (t.tap ir pins dr) := h.same.next
theorem Keeps.tapPins {ir : Nat} (h : Keeps s t) : Leads s (t.tapPins ir) := .ite h.tap h.tap

theorem Keeps.execDeviceHaltEnter (h : Keeps s t) : Leads s (execDeviceHaltEnter t) := by
  unfold Machine.execDeviceHaltEnter
  split
  · exact .ite (.ite h.haltEnter.next h.same.same.next) h.next
  · exact h.next

theorem Keeps.execDeviceHaltResume (h : Keeps s t) : Leads s (execDeviceHaltResume t) := by
  unfold Machine.execDeviceHaltResume
  split
  · exact .ite h.haltLeave.next h.next
  · exact h.next

/-! ### SMBus -/

theorem Keeps.smbReply {v : Nat} (h : Keeps s t) : Keeps s (t.smbReply v) := .ite h.same h

/-! ### The idle step -/

theorem Keeps.countCycle {u i v : Nat} (h : Keeps s t) : Keeps s (t.countCycle u i v) := by
  unfold State.countCycle
  refine .ite ?_ (.opt (.same ?_) (.ite Keeps.rfl.progAdd Keeps.rfl))
  · split
    · exact .ite h.progAdd h
    · exact .ite h.same.progAdd h.same
  · split
    · exact h
    · exact h.same

theorem Keeps.islandCycles (h : Keeps s t) : Keeps s t.islandCycles := .ite h <| h.foldl fun _ _ h1 => .ite h1.countCycle h1
theorem Keeps.badRings (h : Keeps s t) : Keeps s t.badRings := h.foldl fun _ _ h1 => .ite h1.badHeads h1
theorem Keeps.firingsDue (h : Keeps s t) : Keeps s t.firingsDue := .ite (h.foldl fun _ _ h1 => h1.stampFirings) h
theorem Keeps.tick (h : Keeps s t) : Keeps s (tick t) := .ite h.badRings.islandCycles.same.firingsDue h

/-! ### Every command -/

/-- Whatever the command, the waiting ones stay and the memories keep their form. -/
theorem Keeps.exec {c : Instr} (h : Keeps s t) : Leads s (exec c t) := by
  cases c with
  | aluReg => exact h.issue fun _ _ _ h1 => h1.doAlu
  | aluImm => exact h.issue fun _ _ _ h1 => h1.doAlu
  | aluLi => exact h.issue fun _ _ _ h1 => h1.retire
  | aluLih => exact h.issue fun _ _ _ h1 => h1.retire
  | ld => exact h.execLd
  | st => exact h.issue fun _ _ _ h1 => .ite h1.exception h1.storeBytes.watch.retire
  | ext => exact h.issue fun _ _ _ h1 => h1.retire
  | ins => exact h.issue fun _ _ _ h1 => h1.retire
  | br => exact h.issue fun _ _ _ h1 => .ite h1.goTo h1.retire
  | brLink => exact h.issue fun _ _ _ h1 => h1.goTo
  | brReg => exact h.issue fun _ _ _ h1 => h1.goTo
  | brRc => exact h.issue fun _ _ _ h1 => .ite h1.waitAt (.ite h1.goTo h1.retire)
  | csumAdj => exact h.issue fun _ _ _ h1 => h1.retire
  | tstamp => exact h.execTstamp
  | flowGet => exact h.issue fun _ _ _ h1 => (Keeps.ite h1 h1.watch).flowIssue
  | flowAdd => exact h.execFlowAdd
  | flowCas => exact h.issue fun _ _ _ h1 => (Keeps.ite h1 h1.watch).flowIssue
  | flowIns => exact h.issue fun _ _ _ h1 => (Keeps.ite h1 h1.watch).flowIssue
  | flowDel => exact h.issue fun _ _ _ h1 => (Keeps.ite h1 h1.watch).flowIssue
  | lkpEm => exact h.issue fun _ _ _ h1 => h1.asyncIssue fun _ _ h2 => h2.same
  | lkpLpm => exact h.execLkpLpm
  | hashCrc32c => exact h.issueHash
  | csumSum => exact h.issueHash
  | meter => exact h.execMeter
  | hashCrc32 => exact h.issueHash
  | hashH0 => exact h.issueHash
  | wait => exact h.execWait
  | delay => exact h.execDelay
  | yield => exact h.issue fun _ _ _ h1 => h1.join.retire
  | ordrel => exact h.issue fun _ _ _ h1 => (Keeps.ite h1.same.bump.robDrop h1).retire
  | emit => exact h.execEmit
  | drop => exact h.issue fun _ _ _ h1 => .ite h1.waitAt h1.endThread.bump.dropPkt
  | trap => exact h.execTrap
  | recirc => exact h.execRecirc
  | interruptTaken => exact h.execInterruptTaken
  | gateConditionTrue => exact h.execGateConditionTrue
  | asyncComplete => exact h.execAsyncComplete
  | flowOpApply => exact h.execFlowOpApply
  | missQueueRoom => exact h.execMissQueueRoom
  | journalRoom => exact h.execJournalRoom
  | emLookupApply => exact h.execEmLookupApply
  | lpmLookupApply => exact h.execLpmLookupApply
  | meterApply => exact h.execMeterApply
  | hashApply => exact h.execHashApply
  | frameReceive => exact h.execFrameReceive
  | headerBytesArrive => exact h.execHeaderBytesArrive
  | cellRequest => exact h.execCellRequest
  | noCellDrop => exact h.execNoCellDrop
  | refRelease => exact h.execRefRelease
  | hostTxRetry => exact h.execHostTxRetry
  | parserAdmit => exact h.execParserAdmit
  | leatAdmit => exact h.execLeatAdmit
  | heldPassEnqueue => exact h.execHeldPassEnqueue
  | taskDeal => exact h.execTaskDeal
  | dueTaskTake => exact h.execDueTaskTake
  | delayTick => exact .ite ((h.stampFirings.foldl fun _ _ h1 => h1.leaveList).enterInOrder.next) h.next
  | delayEntryObtained => exact h.execDelayEntryObtained
  | dueTaskEnqueue => exact h.execDueTaskEnqueue
  | keepaliveFire => exact h.execKeepaliveFire
  | reorderTimeout => exact h.execReorderTimeout
  | budgetWatchdog => exact h.execBudgetWatchdog
  | tailraceEnqueue => exact h.execTailraceEnqueue
  | multicastReplicate => exact h.execMulticastReplicate
  | spillWrite => exact h.execSpillWrite
  | portSelect => exact h.execPortSelect
  | frameTxDone => exact h.execFrameTxDone
  | gateEntryAdvance => exact .ite (.ite h.enterGate.next h.next) h.next
  | gateListSwitch => exact h.execGateListSwitch
  | pfcFrameReceived => exact .ite h.pfcIn.next h.next
  | pfcPauseExpire => exact .ite h.settleCbs.same.next h.next
  | pfcRefresh => exact .ite h.same.next h.next
  | linkUp => exact .ite h.same.verifyStart.next h.next
  | linkDown => exact h.linkFall.next
  | verifyResponse => exact .ite h.same.next h.next
  | verifyTimeout => exact .ite (.ite h.same.next h.same.next) h.next
  | modRead => exact h.atBus fun _ h1 => h1.modGo
  | modWrite => exact h.atBus fun _ h1 => h1.modGo
  | modTransactionDone => exact .ite ((Keeps.ite h.same.same h).same.next) h.next
  | modulePresenceChange => exact .ite h.next h.same.irq.next
  | moduleInt => exact .ite h.same.irq.next h.same.next
  | sweeperPassStart => exact h.execSweeperPassStart
  | sweeperVisit => exact .ite ((Keeps.ite h.same.visit.passEnd h.same.visit).next) h.next
  | agerPass => exact .ite ((h.same.foldl fun _ _ h1 => h1.ageOne).next) h.next
  | learnApply => exact h.execLearnApply
  | holddownExpire => exact h.same.next
  | walkTimeout => exact h.execWalkTimeout
  | restampDone => exact (h.foldl fun _ _ h1 => .ite h1.restampAll.same.same h1).next
  | meterRefresh => exact .ite h.same.same.next h.next
  | nop => exact (h.startCmd fun _ _ h1 => h1.cmdDone).next
  | abort => exact h.execAbort
  | commit => exact h.execCommit
  | attest => exact (h.startCmd fun _ _ h1 => .ite h1.cmdDone h1.same.same).next
  | attestDone => exact h.execAttestDone
  | search => exact h.execSearch
  | insert => exact h.cmdA fun _ _ h1 => .ite h1.cmdDone ((h1.eachRace fun _ _ h2 => h2.emInsert).cmdDone)
  | delete => exact h.cmdA fun _ _ h1 => .ite h1.cmdDone ((h1.eachRace fun _ _ h2 => h2.emRemove).cmdDone)
  | next => exact h.cmdB fun _ _ h1 => .ite h1.cmdDone h1.walkNext
  | flushPort => exact h.execFlushPort
  | lpmUpdate => exact h.execLpmUpdate
  | walkStart => exact h.cmdB fun _ _ h1 => .ite h1.cmdDone (.ite h1.cmdDone h1.same.cmdDone)
  | flowSearch => exact h.cmdB fun _ _ h1 => .ite h1.cmdDone h1.hostFlow
  | flowInsert => exact h.cmdA fun _ _ h1 => .ite h1.cmdDone (.ite h1.cmdDone h1.hostFlow)
  | flowDelete => exact h.cmdA fun _ _ h1 => .ite h1.cmdDone h1.hostFlow
  | flowNext => exact h.cmdB fun _ _ h1 => .ite h1.cmdDone h1.walkNext
  | flowFlushPort => exact (h.startCmd fun _ _ h1 => .ite h1.cmdDone (.ite h1.cmdDone h1.same.same)).next
  | versionCommit => exact h.execVersionCommit
  | versionChecksDone => exact h.execVersionChecksDone
  | versionActivate => exact h.execVersionActivate
  | versionStatus => exact h.execVersionStatus
  | snapshot => exact h.execSnapshot
  | snapshotLatch => exact h.execSnapshotLatch
  | counterFreeze => exact h.execCounterFreeze
  | counterUnfreeze => exact h.execCounterUnfreeze
  | dumpCfg => exact h.execDumpCfg
  | dumpDue => exact h.execDumpDue
  | dumpComplete => exact h.execDumpComplete
  | evrFreeze => exact h.cmdB fun _ _ h1 => .ite h1.cmdDone h1.same.cmdDone
  | evrThaw => exact h.cmdB fun _ _ h1 => .ite h1.cmdDone h1.thaw.cmdDone
  | evrFreezeExpire => exact (h.foldl fun _ _ h1 => h1.thaw.irq).next
  | evrRead => exact h.cmdB fun _ _ h1 => .ite h1.cmdDone (.ite h1.cmdDone h1.hostWrite.cmdDone)
  | evrClearSec => exact (h.startCmd fun _ _ h1 => .ite h1.same.dmaRead.same.same.occur.cmdDone
      ((Keeps.opt h1.same.dmaRead.bump Keeps.rfl.eventAny).cmdDone)).next
  | eventRecord => exact h.execEventRecord
  | maintStart => exact h.execMaintStart
  | maintStop => exact (h.startCmd fun _ _ h1 => h1.mntStopFor).next
  | maintStatus => exact h.cmdB fun _ _ h1 => .ite h1.cmdDone (.ite h1.cmdDone h1.cmdDone)
  | maintAutoStart => exact h.execMaintAutoStart
  | maintEnd => exact h.execMaintEnd
  | patchLoad => exact h.execPatchLoad
  | patchActivate => exact h.execPatchActivate
  | patchClusterDrained => exact h.execPatchClusterDrained
  | patchDrainTimeout => exact h.execPatchDrainTimeout
  | patchHeartbeatResult => exact h.execPatchHeartbeatResult
  | bufAlloc => exact h.execBufAlloc
  | bufFree => exact h.execBufFree
  | modeReq => exact h.execModeReq
  | blockReset => exact (h.startCmd fun _ _ h1 => .ite h1.cmdDone (.ite h1.cmdDone h1.same.blockBegin)).next
  | islandQuiesced => exact h.execIslandQuiesced
  | quiesceTimeout => exact h.execQuiesceTimeout
  | islandResumed => exact h.execIslandResumed
  | warmReset => exact (h.startCmd fun _ _ h1 => .ite h1.cmdDone h1.cmdDone.warmReset).next
  | restartQuiesced => exact .ite h.warmReach.setMode.next h.next
  | clocksValid => exact .ite h.same.setMode.next h.next
  | trimApplied => exact .ite h.trimLoads.setMode.next h.next
  | bootComplete => exact h.execBootComplete
  | vin12Rise => exact .ite h.next ((Keeps.ite h.same.coldSource h.same).next)
  | brownOut => exact h.execBrownOut
  | powerFailWarning => exact h.execPowerFailWarning
  | commitEnd => exact .ite h.ringAppend.same.coldReset.next h.next
  | rstNRelease => exact h.execRstNRelease
  | rstNLow100ms => exact .ite h.next h.coldReset.same.next
  | windshaftWatchdog => exact h.execWindshaftWatchdog
  | lockstepMismatch => exact h.execLockstepMismatch
  | resonatorFail => exact h.execResonatorFail
  | bothResonatorsFail => exact .ite h.next h.clocksLost.next
  | islandPllLostLock => exact h.execIslandPllLostLock
  | gtcSync => exact .ite ((Keeps.ite h.same.event h.same).next) h.next
  | partitionReset => exact h.presetBegin.next
  | partitionResetClear => exact .ite h.presetClear.next h.next
  | hostBuffersReturn => exact .ite h.next ((h.foldl fun _ _ h1 => h1.bufReturn).same.next)
  | cmdPiDoorbell => exact h.piDoor.next
  | cmdChDoorbell => exact h.chDoor.next
  | rxTailDoorbell => exact h.tailDoor.next
  | txTailDoorbell => exact h.tailDoor.next
  | txDescriptor => exact .ite h.next h.txTake.next
  | txWriteback => exact h.execTxWriteback
  | rxPacketWrite => exact h.execRxPacketWrite
  | stagedCommitGo => exact h.atBus fun _ h1 => h1.commitWrite
  | stagedCommitDiscard => exact h.atBus fun _ h1 => h1.commitWrite
  | gateCommit => exact h.atBus fun _ h1 => h1.commitWrite
  | portCommit => exact h.atBus fun _ h1 => h1.commitWrite
  | tcamWrite => exact h.atBus fun _ h1 => h1.tcamGo
  | tcamVset => exact h.atBus fun _ h1 => h1.tcamGo
  | tcamVclr => exact h.atBus fun _ h1 => h1.tcamGo
  | tcamInvalidate => exact h.atBus fun _ h1 => h1.tcamGo
  | taccRead => exact h.execTaccRead
  | taccWrite => exact h.atBus fun _ h1 => h1.taccWrite
  | lbWdataWrite => exact h.atBus fun _ h1 => h1.lbWrite
  | lbSvcWrite => exact h.atBus fun _ h1 => h1.lbSvc
  | ucsModeNextWrite => exact h.writeAt
  | hstDsubWrite => exact h.writeAt
  | cntSelWrite => exact h.writeAt
  | cntWinWrite => exact h.writeAt
  | cntUserReadWrite => exact h.writeAt
  | lanemapWrite => exact h.writeAt
  | ptpRateWrite => exact h.atBus fun _ h1 => h1.rateWrite
  | ptpStepWrite => exact h.atBus fun _ h1 => h1.stepWrite
  | ptpSetWrite => exact h.atBus fun _ h1 => h1.setWrite
  | ptpChangeApply => exact h.execPtpChangeApply
  | ptpCaptureRead => exact h.readAt
  | ptpTsqPop => exact h.readAt
  | lowWordReadLatch => exact h.readAt
  | hstDenyRead => exact h.readAt
  | ptpPpsinRead => exact h.readAt
  | ptpTodRxRead => exact h.readAt
  | robStatusRead => exact h.readAt
  | portStatusRead => exact h.readAt
  | registerWrite => exact h.writeAt
  | ppsInEdge => exact .ite h.same.next h.next
  | ppsOutEdge => exact .ite h.same.next h.next
  | todTxMessage => exact .ite h.same.next h.next
  | todRxMessage => exact .ite h.same.next h.same.next
  | eecReferenceLoss => exact .ite h.same.irq.next h.next
  | eecCfgWrite => exact h.atBus fun _ h1 => h1.eecWrite
  | fwWrite => exact h.atBus fun _ h1 => h1.fwCtlWrite
  | fwSelect => exact h.atBus fun _ h1 => h1.fwCtlWrite
  | fwActivate => exact h.atBus fun _ h1 => h1.fwCtlWrite
  | fwOperationDone => exact h.execFwOperationDone
  | heartbeatRun => exact h.execHeartbeatRun
  | heartbeatCheck => exact .ite ((h.same.foldl fun _ _ h1 => h1.foldl fun _ _ h2 => h2.hbVerdict).next) h.next
  | selftestStart => exact h.execSelftestStart
  | selftestDone => exact .ite h.stestOver.stestCheck.next h.next
  | tcamScan => exact .ite h.same.safety.next h.next
  | safetyReaction => exact h.execSafetyReaction
  | ageingMeasure => exact .ite ((h.foldl fun _ _ h1 => .ite h1.islandAged h1).ageSummary.same.next) h.next
  | safAliveTick => exact .ite h.same.same.next h.next
  | optimeTick => exact .ite h.same.next h.next
  | powerMonitorUpdate => exact .ite ((Keeps.opt h.same.same.same.same.same.vinAlert.same Keeps.rfl.same).next) h.next
  | smbusMode => exact h.smbReply.next
  | smbusLatch => exact .ite h.smbReply.next (.ite h.same.next h.next)
  | smbusMask => exact .ite h.smbReply.next (.ite h.same.next h.next)
  | smbusVin => exact h.smbReply.next
  | smbusIin => exact h.smbReply.next
  | smbusPin => exact h.smbReply.next
  | smbusTjmax => exact h.smbReply.next
  | smbusTalert => exact .ite h.smbReply.next (.ite h.same.next h.next)
  | smbusOphours => exact h.smbReply.next
  | smbusPcyc => exact h.smbReply.next
  | smbusPart => exact h.smbReply.next
  | smbusAlertResponse => exact .ite h.same.next h.next
  | extest => exact h.tapPins
  | idcode => exact h.tap
  | samplePreload => exact h.tap
  | clamp => exact h.tapPins
  | highz => exact h.tapPins
  | extestPulse => exact h.tapPins
  | extestTrain => exact h.tapPins
  | bypass => exact h.tap
  | eaccRead => exact h.eaccGet.next
  | eaccWrite => exact h.eaccPut.next
  | trstNLow => exact h.sessionEnd.tap
  | unlockChallenge => exact h.dbgGo.next
  | unlock => exact h.dbgGo.next
  | lock => exact h.dbgGo.next
  | programUserDigest => exact h.dbgGo.next
  | challengeExpire => exact .ite h.same.next h.next
  | lockoutExpire => exact .ite h.next h.same.next
  | apRead => exact h.dbgGo.next
  | apWrite => exact h.dbgGo.next
  | threadHalt => exact h.dbgGo.next
  | threadStep => exact h.dbgGo.next
  | threadResume => exact h.dbgGo.next
  | threadAbort => exact h.dbgGo.next
  | threadMstep => exact h.dbgGo.next
  | deviceHaltRequest => exact h.dbgGo.next
  | deviceResumeRequest => exact h.dbgGo.next
  | deviceHaltEnter => exact h.execDeviceHaltEnter
  | deviceHaltResume => exact h.execDeviceHaltResume
  | debugWarmReset => exact h.dbgGo.next
  | debugBlockReset => exact h.dbgGo.next
  | debugTestEntry => exact h.dbgGo.next
  | samplerVisit => exact .ite h.same.next h.next
  | journalRingWrite => exact .ite h.ringStep.next h.next
  | eecLocked => exact .ite h.same.same.same.next h.next
  | perstNRelease => exact h.same.next
  | pcieLinkUp => exact .ite h.same.same.next h.next

end

/-! ### Steps and the reset -/

theorem step_nil {s : State} (h : s.pending = []) : step s = .next (tick s) := by
  unfold step
  rw [h]

theorem step_cons {s : State} {c : Instr} {l : List Instr} (h : s.pending = c :: l) :
    step s = exec c { s with pending := l } := by
  unfold step
  rw [h]

/-- Settles O1. -/
theorem stepRunsTheFrontCommand : Obligations.StepRunsTheFrontCommand := fun c l s =>
  step_cons (s := { s with pending := c :: l }) rfl

/-- Settles O4: of what every command keeps (`Keeps.exec`), the queue. -/
theorem commandsLeaveTheQueue : Obligations.CommandsLeaveTheQueue := fun _ s t h => ((Keeps.refl s).exec t h).1

/-- Settles O5: the idle step and every command keep the form of the memories (`Keeps.tick`, `Keeps.exec`). -/
theorem stepsKeepMemoriesCanonical : Obligations.StepsKeepMemoriesCanonical := by
  intro s t hwf hstep
  cases hp : s.pending with
  | nil =>
    rw [step_nil hp] at hstep
    cases hstep
    exact (Keeps.refl s).tick.2 hwf
  | cons c l =>
    rw [step_cons hp] at hstep
    exact ((Keeps.refl _).exec t hstep).2 hwf

/-- Settles O6: at the point chosen as the reset (log 6, 11, 12) every memory is empty. -/
theorem resetMemoriesCanonical : Obligations.ResetMemoriesCanonical := ⟨⟨rfl, rfl, rfl, rfl, rfl⟩, rfl, rfl, rfl⟩

end Sys2Proof.Proofs

/-! PROOF. Completions: what ends a command writes and leaves. -/

namespace Sys2Proof.Proofs

open Sys2Proof Sys2Proof.Machine Sys2Proof.Laws

/-! ### Completions (R461) -/

section

variable {s t : State} {c : CmdRef}

theorem mems_of_onlySignals (h : OnlySignals s t) : t.mems = s.mems := by rw [h]

theorem host_of_onlySignals (h : OnlySignals s t) : t.host = s.host := by rw [h]

theorem ring_setCmdRing_self (s : State) (p i : Nat) (r : CmdRing) : (s.setCmdRing p i r).ring p i = r :=
  mget_mset_self dCmdRing _ _ r

theorem ring_cmdForget (s : State) (c : CmdRef) : (s.cmdForget c).ring c.part c.ring =
    { s.ring c.part c.ring with
      fg := if (s.ring c.part c.ring).fg = some c then none else (s.ring c.part c.ring).fg } :=
  ring_setCmdRing_self s c.part c.ring _

theorem fg_cmdForget (s : State) (c : CmdRef) : ((s.cmdForget c).ring c.part c.ring).fg ≠ some c := by
  rw [ring_cmdForget]
  dsimp only
  split
  · exact nofun
  · assumption

/-- Where the next completion goes: the next entry of the completion ring. -/
def complPlace (s : State) (c : CmdRef) : Nat :=
  let a := aHstCmdq c.part c.ring
  s.regN (a + 8) + s.regN (a + 12) * 2 ^ 32 + 32 * ((s.ring c.part c.ring).done % s.cmdSize c.part c.ring)

/-- The completion that is written there. -/
def complNext (s : State) (c : CmdRef) (status detail : Nat) : List Byte :=
  complBytes c status (natBool ((s.ring c.part c.ring).done / s.cmdSize c.part c.ring % 2 = 0)) s.clk.gtc detail

theorem length_complNext (s : State) (c : CmdRef) (status detail : Nat) : (complNext s c status detail).length = 32 := by
  simp [complNext, complBytes, length_leBytes]

/-- The block with the completion written and the ring moved on. -/
def completed (s : State) (c : CmdRef) (status detail : Nat) : State :=
  let r := s.ring c.part c.ring
  (s.hostWrite c.part (complPlace s c) (complNext s c status detail)).setCmdRing c.part c.ring { r with done := r.done + 1 }

/-- What follows the completion signals it: its counter, a refusal where it is one, its interrupt. -/
theorem cmdDone_completed (h : c.epoch = s.epoch c.part) (status detail : Nat) :
    OnlySignals (completed (s.cmdForget c) c status detail) (s.cmdDone c status detail) := by
  have hdeny {t : State} : OnlySignals t (if status = stDenied then t.deny c.part 4 c.slot else t) := by
    split
    · exact deny_signals _ _ _ _
    · rfl
  have hirq {t : State} : OnlySignals t (if c.irq then t.irq c.part c.ring else t) := by
    split
    · exact irq_signals _ _ _
    · rfl
  unfold State.cmdDone
  dsimp only
  have hfresh : ¬c.epoch ≠ (s.cmdForget c).epoch c.part := not_not_intro h
  rw [if_neg hfresh]
  exact hirq.after (hdeny.after (bump_signals _ _ _))

/-- A completion of a partition that has been reset since only ends the command. -/
theorem cmdDone_stale (h : c.epoch ≠ s.epoch c.part) (status detail : Nat) : s.cmdDone c status detail = s.cmdForget c :=
  if_pos h

theorem mems_completed (s : State) (c : CmdRef) (status detail : Nat) :
    (completed s c status detail).mems =
      { s.mems with host := setBytes s.mems.host (hostKey c.part (complPlace s c)) (complNext s c status detail) } :=
  mems_of_onlyCounters (hostWrite_only _ _ _ _)

theorem complPlace_cmdForget (s : State) (c : CmdRef) : complPlace (s.cmdForget c) c = complPlace s c := by
  unfold complPlace
  rw [ring_cmdForget]
  rfl

theorem complNext_cmdForget (s : State) (c : CmdRef) (status detail : Nat) :
    complNext (s.cmdForget c) c status detail = complNext s c status detail := by
  unfold complNext
  rw [ring_cmdForget]
  rfl

theorem mems_cmdDone (h : c.epoch = s.epoch c.part) (status detail : Nat) :
    (s.cmdDone c status detail).mems =
      { s.mems with host := setBytes s.mems.host (hostKey c.part (complPlace s c)) (complNext s c status detail) } := by
  rw [mems_of_onlySignals (cmdDone_completed h status detail), mems_completed, complPlace_cmdForget, complNext_cmdForget]
  rfl

theorem ring_cmdDone (h : c.epoch = s.epoch c.part) (status detail : Nat) :
    (s.cmdDone c status detail).ring c.part c.ring =
      { (s.cmdForget c).ring c.part c.ring with done := ((s.cmdForget c).ring c.part c.ring).done + 1 } := by
  unfold State.ring
  rw [host_of_onlySignals (cmdDone_completed h status detail)]
  exact ring_setCmdRing_self _ _ _ _

end

/-- Settles O30. -/
theorem completionsAreWrittenToTheRing : Obligations.CompletionsAreWrittenToTheRing := by
  intro c status detail s _
  refine ⟨fun h _ => ?_, fun h => ?_⟩
  · have hm := mems_cmdDone h status detail
    have hlen := length_complNext s c status detail
    have hr := ring_cmdDone h status detail
    refine ⟨?_, fun k hk => ?_, ?_, ?_, ?_, ?_⟩
    · have hread := getBytes_setBytes (complNext s c status detail) s.mems.host (hostKey c.part (complPlace s c))
      rw [hlen] at hread
      unfold State.hostRead
      rw [hm]
      refine hread.trans ?_
      simp only [complNext, natBool, decide_eq_true_eq]
    · rw [hm]
      refine (getByte_setBytes _ _ _ _).trans (if_neg fun hin => ?_)
      rw [hlen] at hin
      exact hk.elim (fun hlt => absurd hin.1 (Nat.not_le.2 hlt)) fun hle => absurd hin.2 (Nat.not_lt.2 hle)
    · rw [hr, ring_cmdForget]
    · rw [hr]
      exact fg_cmdForget s c
    · rw [hm]
    · rw [hm]
  · rw [cmdDone_stale h]
    exact ⟨rfl, rfl, rfl⟩

end Sys2Proof.Proofs

/-! PROOF. The event recorder: what enters it, and the commands that freeze, thaw, read and clear it. -/

namespace Sys2Proof.Proofs

open Sys2Proof Sys2Proof.Machine Sys2Proof.Laws

/-! ### What leaves the records (R539) -/

section

variable {s t : State}

theorem evr_of_onlyCounters (h : OnlyCounters s t) : t.evr = s.evr := by rw [h.1]

theorem evr_occur_units (s : State) {u : Nat} (ev n : Nat) (hu : u < 107) : (s.occur u ev n).evr = s.evr :=
  evr_of_onlyCounters (occur_only s u ev n hu)

theorem evr_bump (s : State) (a n : Nat) : (s.bump a n).evr = s.evr := evr_of_onlyCounters (bump_only s a n)

theorem evr_irq (s : State) (p src : Nat) : (s.irq p src).evr = s.evr := by
  unfold State.irq
  dsimp only
  split <;> rfl

theorem evr_deny (s : State) (p kind a : Nat) : (s.deny p kind a).evr = s.evr :=
  (evr_irq _ _ _).trans (evr_bump _ _ _)

theorem evr_hostWrite (s : State) (p a : Nat) (l : List Byte) : (s.hostWrite p a l).evr = s.evr :=
  (evr_of_onlyCounters (hostWrite_only s p a l)).trans rfl

theorem evr_dmaRead (s : State) (n : Nat) : (s.dmaRead n).evr = s.evr := evr_occur_units s _ _ (by decide)

theorem evr_setCmdRing (s : State) (p i : Nat) (r : CmdRing) : (s.setCmdRing p i r).evr = s.evr := rfl

theorem evr_cmdForget (s : State) (c : CmdRef) : (s.cmdForget c).evr = s.evr := rfl

/-- The end of a command leaves every record. -/
theorem evr_cmdDone (s : State) (c : CmdRef) (status detail : Nat) : (s.cmdDone c status detail).evr = s.evr := by
  simp only [State.cmdDone, apply_ite State.evr, evr_irq, evr_deny, evr_bump, evr_hostWrite, evr_setCmdRing, evr_cmdForget,
    ite_self]

theorem evr_started (h : HostCmd) (s : State) : (started h s).evr = s.evr :=
  (evr_dmaRead _ _).trans (evr_occur_units _ _ _ (by decide))

end

/-! ### What an event leaves in the input queue (R539, R544, R583) -/

section

variable {src code detail : Nat} {s : State}

theorem event_of_pfail (h : s.top.pfail = true) : s.event src code detail = s := if_pos h

theorem event_dropped (h : s.top.pfail = false) (hcode : code < 0x8000)
    (hfull : 1024 ≤ (s.evr.inq.filter (fun e => e.code < 0x8000)).length) :
    s.event src code detail = s.bump aEvrInDrop 1 := by
  unfold State.event
  rw [if_neg (by simp [h]), if_pos ⟨hcode, hfull⟩]

theorem event_queued (h : s.top.pfail = false)
    (hroom : 0x8000 ≤ code ∨ ¬1024 ≤ (s.evr.inq.filter (fun e => e.code < 0x8000)).length) :
    s.event src code detail = { s with evr := { s.evr with inq := s.evr.inq ++
      [{ src := src, code := code, detail := detail, gtc := s.islGtc (srcIsland src), secs := s.evr.optime,
         pcyc := s.evr.pcyc }] } } := by
  unfold State.event
  rw [if_neg (by simp [h]), if_neg fun hf => hroom.elim (Nat.not_le.2 hf.1) fun hn => hn hf.2]

/-- An event leaves the records that are already in a ring. -/
theorem event_rings (s : State) (src code detail : Nat) :
    (s.event src code detail).evr.sec = s.evr.sec ∧ (s.event src code detail).evr.fault = s.evr.fault := by
  unfold State.event
  split
  · exact ⟨rfl, rfl⟩
  · split
    · rw [evr_bump]
      exact ⟨rfl, rfl⟩
    · exact ⟨rfl, rfl⟩

theorem newNonce_rings (s : State) : s.newNonce.evr.fault = s.evr.fault ∧ s.newNonce.evr.sec = s.evr.sec := ⟨rfl, rfl⟩

end

/-! ### Freezes, thaws and reads (R545 to R548) -/

section

variable {h : HostCmd} {s : State} (hb : Begins h .foreground s) (hm : modeB s.top.mode = true)

include hb hm

/-- A ring frozen for less than 5 s takes a further freeze, and is frozen since the first. -/
theorem evrFreeze_freezes (hf : s.evr.frozenSince ≠ 0 → s.clk.gtc < s.evr.frozenSince - 1 + 5 * second) :
    let t := started h s
    exec (.evrFreeze h) s = .next ((t.setEvr { t.evr with
      freeze := mset zeroN t.evr.freeze h.part.val (t.clk.gtc + 1)
      frozenSince := if t.evr.frozenSince = 0 then t.clk.gtc + 1 else t.evr.frozenSince }).cmdDone (startRef h 0x50 s) stOk
        (t.clk.gtc + t.evr.faultNext * 2 ^ 64)) := by
  change execEvrFreeze h s = _
  have hlong : ¬((started h s).evr.frozenSince ≠ 0 ∧
      (started h s).evr.frozenSince - 1 + 5 * second ≤ (started h s).clk.gtc) := by
    rw [evr_started, started_clk]
    exact fun hx => Nat.not_le.2 (hf hx.1) hx.2
  rw [execEvrFreeze, cmdB_begins hb hm, if_neg hlong]
  rfl

theorem evrFreeze_busy (hf : s.evr.frozenSince ≠ 0) (hlong : s.evr.frozenSince - 1 + 5 * second ≤ s.clk.gtc) :
    exec (.evrFreeze h) s = .next ((started h s).cmdDone (startRef h 0x50 s) stBusy 0) := by
  change execEvrFreeze h s = _
  rw [execEvrFreeze, cmdB_begins hb hm, if_pos (by rw [evr_started, started_clk]; exact ⟨hf, hlong⟩)]

theorem evrThaw_thaws (hf : (started h s).freezeOf h.part.val ≠ 0) :
    let t := started h s
    exec (.evrThaw h) s = .next ((t.thaw h.part.val).2.cmdDone (startRef h 0x51 s) stOk (t.thaw h.part.val).1) := by
  change execEvrThaw h s = _
  have hpart : (startRef h 0x51 s).part = h.part.val := rfl
  rw [execEvrThaw, cmdB_begins hb hm, hpart, if_neg hf]

theorem evrThaw_notFound (hf : (started h s).freezeOf h.part.val = 0) :
    exec (.evrThaw h) s = .next ((started h s).cmdDone (startRef h 0x51 s) stNotFound 0) := by
  change execEvrThaw h s = _
  have hpart : (startRef h 0x51 s).part = h.part.val := rfl
  rw [execEvrThaw, cmdB_begins hb hm, hpart, if_pos hf]

/-- A read in range writes the records to the host's memory: the class's own first and last, and the reader may have it. -/
theorem evrRead_reads (hcls : h.op 0 1 ≤ 1) (hown : h.op 0 1 = 1 → h.part.val = 0) (hz : h.op 1 7 = 0)
    (hn : h.op 16 2 ≠ 0) (hmax : h.op 16 2 ≤ 4096) (hz2 : h.op 18 6 = 0) :
    let t := started h s
    let n := max (h.op 8 8) (if h.op 0 1 = 1 then 0 else t.faultFirst)
    let k := min (h.op 16 2) ((if h.op 0 1 = 1 then t.evr.sec.length else t.evr.faultNext) - n)
    exec (.evrRead h) s = .next ((t.hostWrite h.part.val (h.op 24 8) ((t.evRecs (h.op 0 1) n k).flatMap EvRec.bytes)).cmdDone
      (startRef h 0x52 s) stOk (n + k * 2 ^ 64)) := by
  change execEvrRead h s = _
  have hden : ¬(h.op 0 1 = 1 ∧ (startRef h 0x52 s).part ≠ 0) := fun hx => hx.2 (hown hx.1)
  have hrej : ¬(1 < h.op 0 1 ∨ h.op 1 7 ≠ 0 ∨ h.op 16 2 = 0 ∨ 4096 < h.op 16 2 ∨ h.op 18 6 ≠ 0) := by omega
  rw [execEvrRead, cmdB_begins hb hm, if_neg hden, if_neg hrej]
  rfl

/-- An accepted clear leaves one record of its own in the security ring; another leaves the ring. -/
theorem evrClearSec_clears (hp : h.part.val = 0) :
    ∃ u, exec (.evrClearSec h) s = .next u ∧ u.evr.fault = s.evr.fault ∧
      (if (started h s).clearOk ((started h s).hostRead 0 (h.op 0 8) 268) = true then
        u.evr.sec.length = 1 ∧ u.evr.alarmFill = false ∧ u.evr.alarmRef = false
      else u.evr.sec = s.evr.sec) := by
  refine ⟨_, congrArg Host.Outcome.next (startCmd_begins hb (decide_eq_true hp) hm), ?_⟩
  have hpart : (startRef h 0x53 s).part = 0 := hp
  have hread : ((started h s).newNonce.dmaRead 268).evr.fault = s.evr.fault ∧
      ((started h s).newNonce.dmaRead 268).evr.sec = s.evr.sec := by
    rw [evr_dmaRead, ← evr_started h s]
    exact newNonce_rings _
  dsimp only
  rw [hpart]
  generalize (started h s).newNonce.dmaRead 268 = v at hread ⊢
  split
  · rw [evr_cmdDone, evr_occur_units _ _ _ (by decide)]
    exact ⟨hread.1, rfl, rfl, rfl⟩
  · have hbump := evr_bump v aEvrClrFail 1
    rw [evr_cmdDone]
    generalize v.bump aEvrClrFail 1 = w at hbump ⊢
    rw [← hbump] at hread
    split
    · obtain ⟨hsec, hfault⟩ := event_rings w.useFree srcWindshaft 0x8021 w.freeVal.toNat
      exact ⟨hfault.trans hread.1, hsec.trans hread.2⟩
    · exact hread

end

/-- Settles O37. -/
theorem eventsAreRecordedFrozenAndRead : Obligations.EventsAreRecordedFrozenAndRead := by
  refine ⟨fun h e l s => ⟨fun hq => ?_, rfl, fun hb hm => ⟨fun hf => ⟨fun hlong => ?_, fun hshort => ?_⟩, fun hf => ?_,
    evrThaw_thaws hb hm, evrThaw_notFound hb hm, fun hc hp hz hn hmax hz2 => ?_, fun hc hz hn hmax hz2 => ?_,
    evrClearSec_clears hb hm⟩⟩, fun src code detail s => ⟨event_of_pfail, fun hp hc hfull => ?_, fun hp hroom => ?_⟩⟩
  · change execEventRecord s = _
    rw [execEventRecord, hq]
    rfl
  · exact evrFreeze_busy hb hm hf hlong
  · have hkeep := evrFreeze_freezes hb hm fun _ => hshort
    simp only [evr_started, if_neg hf] at hkeep ⊢
    exact hkeep
  · have hfirst := evrFreeze_freezes hb hm fun hx => absurd hf hx
    simp only [evr_started, if_pos hf] at hfirst ⊢
    exact hfirst
  · have hread := evrRead_reads hb hm (by omega) (fun _ => hp) hz hn hmax hz2
    simpa only [hc, if_true, Nat.max_zero] using hread
  · have hread := evrRead_reads hb hm (by omega) (fun h1 => by omega) hz hn hmax hz2
    simpa only [hc, Nat.zero_ne_one, if_false] using hread
  · rw [event_dropped hp hc hfull]
    exact ⟨rfl, evr_bump _ _ _⟩
  · rw [event_queued hp hroom]
    exact ⟨rfl, rfl⟩

end Sys2Proof.Proofs

/-! PROOF. The debug port: the end of a session, TAP instructions and EACC. -/

namespace Sys2Proof.Proofs

open Sys2Proof Sys2Proof.Machine Sys2Proof.Laws

/-! ### The end of a session (R628, R638) -/

section

variable (s : State)

theorem mems_endService (n : Nat) : (s.endService n).mems = s.mems := by
  have hcover : (s.setThr n {}).haltCover.mems = s.mems :=
    (mems_of_onlySignals (haltCover_signals (s.setThr n {}))).trans rfl
  unfold State.endService
  dsimp only
  split
  · split
    · split
      · exact hcover
      · exact hcover
    · exact hcover
  · rfl

theorem mems_unhalt (n : Nat) (step mstep : Bool) : (s.unhalt n step mstep).mems = s.mems := by
  unfold State.unhalt
  split
  · exact mems_endService _ n
  · refine (mems_of_onlySignals (haltCover_signals _)).trans ?_
    split
    · split <;> rfl
    · rfl

theorem mems_sessionRelease : s.sessionRelease.mems = s.mems := by
  have hset (u : State) (a w v : Nat) (l : List Nat) (f : Nat → Nat) :
      (l.foldl (fun (s : State) i => s.setFld (f i) a w v) u).mems = u.mems := 
    mems_foldl (f := fun (s : State) i => s.setFld (f i) a w v) (fun _ _ => rfl) l u
  have hpts (u : State) : ((upTo 16).foldl (fun (s : State) r =>
      (upTo 4).foldl (fun s i => s.setFld (aDbgWp r i) 31 1 0) ((upTo 8).foldl (fun s i => s.setFld (aDbgBp r i) 31 1 0) s))
      u).mems = u.mems := mems_foldl (fun v r => (hset _ _ _ _ _ _).trans (hset _ _ _ _ _ _)) _ u
  have hthr (l : List (Nat × Thread)) (u : State) :
      (l.foldl (fun s (e : Nat × Thread) => s.unhalt e.1 false false) u).mems = u.mems :=
    mems_foldl (fun v e => mems_unhalt v _ _ _) l u
  unfold State.sessionRelease
  extract_lets u v w
  have hu : u.mems = s.mems := hthr _ s
  clear_value u
  have hv : v.mems = s.mems := (hpts u).trans hu
  clear_value v
  have hw : w.mems = s.mems := hv
  clear_value w
  split
  · split
    · exact hw
    · exact hw
  · split
    · exact hw
    · exact hw

theorem mems_sessionEnd (why : Nat) : (s.sessionEnd why).mems = s.mems := by
  unfold State.sessionEnd
  split
  · rfl
  · exact (mems_of_onlySignals ((debugCover_signals _).after (event_signals _ _ _ _))).trans (mems_sessionRelease s)

theorem level_sessionEnd (why : Nat) : (s.sessionEnd why).dbg.level = 0 := by
  unfold State.sessionEnd
  split
  · assumption
  · dsimp only
    rw [(debugCover_signals _).after (event_signals _ _ _ _)]
    rfl

end

/-! ### Reads and writes through EACC (R624, R625, R639) -/

/-- From `s` to `t` nothing has changed but what reads latch and take. -/
def OnlyLatched (s t : State) : Prop := t = { s with latch := t.latch, ptp := t.ptp, races := t.races, eg := t.eg }

theorem latchAll_onlyLatched (m : Master) (l : List Nat) : ∀ (s : State) (a : Nat), OnlyLatched s (s.latchAll m a l) := by
  induction l with
  | nil => exact fun _ _ => rfl
  | cons v l ih =>
    intro s a
    have h := ih (s.setLatch m a v) (a + 4)
    unfold OnlyLatched at h ⊢
    rw [State.latchAll, h]
    rfl

theorem OnlyLatched.ite {s t u : State} {p : Prop} [Decidable p] (ht : OnlyLatched s t) (hu : OnlyLatched s u) :
    OnlyLatched s (if p then t else u) := by
  split
  · exact ht
  · exact hu

theorem OnlyLatched.frame {s t : State} (h : OnlyLatched s t) : t.mems = s.mems ∧ t.regs = s.regs ∧ t.dbg = s.dbg := by
  rw [h]
  exact ⟨rfl, rfl, rfl⟩

/-- A read of a register changes what it latches and what it takes. -/
theorem readReg_onlyLatched (s : State) (m : Master) (r : RegRow) (is : List Nat) (w a : Nat) :
    OnlyLatched s (s.readReg m r is w a).2 := by
  have hkeep : OnlyLatched s s := rfl
  have hset (a v : Nat) : OnlyLatched s (s.setLatch m a v) := rfl
  have htod : OnlyLatched s (s.readTodRx m).2 := by
    unfold State.readTodRx
    dsimp only
    split
    · exact latchAll_onlyLatched m _ s _
    · exact latchAll_onlyLatched m _ s _
  have hpop (p : Nat) : OnlyLatched s (s.popTsq p).2 := by
    unfold State.popTsq
    split
    · exact hkeep
    · rfl
  have hrob (r : Nat) : OnlyLatched s (s.readRob r).2 := rfl
  have hport (n : Nat) : OnlyLatched s (s.readPortStatus n).2 := rfl
  simp only [State.readReg, apply_ite Prod.snd]
  exact .ite hkeep <| .ite (latchAll_onlyLatched m _ s _) <| .ite (latchAll_onlyLatched m _ s _) <| .ite htod <|
    .ite (hpop _) <| .ite (.ite (latchAll_onlyLatched m _ s _) hkeep) <| .ite (hrob _) <| .ite (hport _) <|
    .ite (.ite (hset _ _) hkeep) hkeep

/-! ### TAP instructions -/

section

variable {o v : Word32} {r : RegRow} {w : Nat} {is : List Nat} {x : RegWord} {s : State}

theorem tapPins_drives (ir : Nat) (h : 1 ≤ s.dbg.level ∧ (s.top.mode = .ready ∨ s.top.mode = .safe)) :
    s.tapPins ir = s.tap ir true 0 := if_pos h

theorem tapPins_bypass (ir : Nat) (h : ¬(1 ≤ s.dbg.level ∧ (s.top.mode = .ready ∨ s.top.mode = .safe))) :
    s.tapPins ir = s.tap 0xFF false 0 := if_neg h

theorem eaccDown_eq_false (hcold : s.top.mode ≠ .cold) (hcommit : s.top.mode ≠ .commit) : s.eaccDown = false := by
  simp [State.eaccDown, hcold, hcommit]

theorem eaccGet_reads (hreg : dbgReg o.toNat = some (r, is, w)) (hdown : s.eaccDown = false)
    (hmay : 1 ≤ s.dbg.level ∨ observeReads o.toNat = true) :
    s.eaccGet o.toNat =
      let x := s.eaccIr.readReg .eosta r is w (0x01300000 + o.toNat)
      x.2.eaccEnd 0 o.toNat x.1 := by
  have hlow : ¬(s.eaccIr.dbg.level = 0 ∧ (!observeReads o.toNat) = true) := fun ⟨h0, hn⟩ =>
    hmay.elim (fun h => absurd h (h0 ▸ Nat.not_succ_le_zero 0)) fun h => by simp [h] at hn
  have hup : ¬s.eaccIr.eaccDown = true := ne_true_of_eq_false hdown
  unfold State.eaccGet
  simp only [hreg, if_neg hup, if_neg hlow]

theorem eaccGet_denied (hreg : dbgReg o.toNat = some (r, is, w)) (hdown : s.eaccDown = false) (h0 : s.dbg.level = 0)
    (hmay : observeReads o.toNat = false) : s.eaccGet o.toNat = s.eaccIr.eaccEnd 2 o.toNat 0 := by
  have hup : ¬s.eaccIr.eaccDown = true := ne_true_of_eq_false hdown
  have hlow : s.eaccIr.dbg.level = 0 ∧ (!observeReads o.toNat) = true := ⟨h0, by simp [hmay]⟩
  unfold State.eaccGet
  simp only [hreg, if_neg hup, if_pos hlow]

theorem eaccGet_error (hreg : dbgReg o.toNat = none) : s.eaccGet o.toNat = s.eaccIr.eaccEnd 3 o.toNat 0 := by
  unfold State.eaccGet
  simp only [hreg]

/-- An access that is allowed at the session's level answers OK and does what a write of the register does. -/
theorem eaccPut_writes {o v : Nat} (hreg : dbgReg o = some (r, is, w)) (hdown : s.eaccDown = false)
    (hmay : 1 ≤ s.dbg.level ∨ observeWrites o = true) (hx : r.words[w]? = some x) :
    s.eaccPut o v = (s.eaccIr.eaccEnd 0 o 0).dbgWrite x (0x01300000 + o) v := by
  have hlow : ¬(s.eaccIr.dbg.level = 0 ∧ (!observeWrites o) = true) := fun ⟨h0, hn⟩ =>
    hmay.elim (fun h => absurd h (h0 ▸ Nat.not_succ_le_zero 0)) fun h => by simp [h] at hn
  have hup : ¬s.eaccIr.eaccDown = true := ne_true_of_eq_false hdown
  unfold State.eaccPut
  simp only [hreg, if_neg hup, if_neg hlow, hx]

theorem eaccPut_denied {o v : Nat} (hreg : dbgReg o = some (r, is, w)) (hdown : s.eaccDown = false) (h0 : s.dbg.level = 0)
    (hmay : observeWrites o = false) : s.eaccPut o v = s.eaccIr.eaccEnd 2 o 0 := by
  have hup : ¬s.eaccIr.eaccDown = true := ne_true_of_eq_false hdown
  have hlow : s.eaccIr.dbg.level = 0 ∧ (!observeWrites o) = true := ⟨h0, by simp [hmay]⟩
  unfold State.eaccPut
  simp only [hreg, if_neg hup, if_pos hlow]

/-- A write without GO only puts the word. -/
theorem dbgWrite_without_go {a v : Nat} (h : bitOf v 31 = false) : s.dbgWrite x a v = s.putWord x a v := by
  have hgo : ¬bitOf v 31 = true := ne_true_of_eq_false h
  simp only [State.dbgWrite, if_neg hgo, ite_self]

end

/-- Settles O57. -/
theorem theTapSelectsAndAccesses : Obligations.TheTapSelectsAndAccesses := by
  intro o v r w is x s
  refine ⟨fun h => ?_, fun h => ?_, rfl, rfl, rfl, ?_, fun hcold hcommit => ?_⟩
  · exact ⟨tapPins_drives _ h, tapPins_drives _ h, tapPins_drives _ h, tapPins_drives _ h, tapPins_drives _ h⟩
  · exact ⟨tapPins_bypass _ h, tapPins_bypass _ h, tapPins_bypass _ h, tapPins_bypass _ h, tapPins_bypass _ h⟩
  · exact ⟨_, rfl, level_sessionEnd s 1, rfl, rfl, mems_sessionEnd s 1⟩
  · have hdown := eaccDown_eq_false hcold hcommit
    refine ⟨fun hreg hmay => ?_, fun hreg h0 hmay => ?_, fun hreg => ?_, fun hreg hmay hx h31 => ?_, fun hreg h0 hmay => ?_⟩
    · obtain ⟨hmems, hregs, hdbg⟩ := (readReg_onlyLatched s.eaccIr .eosta r is w (0x01300000 + o.toNat)).frame
      exact ⟨_, congrArg Host.Outcome.next (eaccGet_reads hreg hdown hmay), ⟨rfl, rfl, rfl, congrArg Dbg.ir hdbg⟩, hmems,
        hregs⟩
    · exact ⟨_, congrArg Host.Outcome.next (eaccGet_denied hreg hdown h0 hmay), ⟨rfl, rfl, rfl, rfl⟩, rfl⟩
    · exact ⟨_, congrArg Host.Outcome.next (eaccGet_error hreg), ⟨rfl, rfl, rfl, rfl⟩, rfl⟩
    · have hgo : bitOf v.toNat 31 = false := (bitOf_eq_testBit _ _).trans h31
      refine ⟨_, congrArg Host.Outcome.next ((eaccPut_writes hreg hdown hmay hx).trans (dbgWrite_without_go hgo)),
        ⟨rfl, rfl, rfl, rfl⟩, rfl, rfl⟩
    · exact ⟨_, congrArg Host.Outcome.next (eaccPut_denied hreg hdown h0 hmay), ⟨rfl, rfl, rfl, rfl⟩, rfl⟩

end Sys2Proof.Proofs

/-! PROOF. The debug port: the operations of its registers, and sessions unlocked and locked. -/

namespace Sys2Proof.Proofs

open Sys2Proof Sys2Proof.Machine Sys2Proof.Laws

/-! ### The word that starts an operation (R624) -/

/-- The control word of a DBG register `v` with operation `op` in `w` bits from `lo` on, and GO. -/
def goWord (v lo w op : Nat) : Nat := putBits (putBits v lo w op) 31 1 1

section

variable {v lo w op : Nat}

theorem testBit_goWord (v lo w op i : Nat) : (goWord v lo w op).testBit i =
    if 31 ≤ i ∧ i < 32 then (1 : Nat).testBit (i - 31)
    else if lo ≤ i ∧ i < lo + w then op.testBit (i - lo) else v.testBit i := by
  rw [goWord, testBit_putBits, testBit_putBits]

theorem bitOf_goWord_go (v lo w op : Nat) : bitOf (goWord v lo w op) 31 = true := by
  rw [bitOf_eq_testBit, testBit_goWord, if_pos (by decide)]
  rfl

/-- The operation is in its field. -/
theorem bitsOf_goWord_op (h : lo + w ≤ 31) : bitsOf (goWord v lo w op) lo w = op % 2 ^ w := by
  refine Nat.eq_of_testBit_eq fun i => ?_
  rw [testBit_bitsOf, testBit_goWord, Nat.testBit_mod_two_pow]
  by_cases hi : i < w
  · rw [if_neg (by omega), if_pos (by omega), Nat.add_sub_cancel_left]
  · simp [hi]

/-- Fields below the operation are those of the register. -/
theorem bitsOf_goWord_low {l k : Nat} (h : l + k ≤ lo) (hlo : lo ≤ 31) : bitsOf (goWord v lo w op) l k = bitsOf v l k := by
  refine Nat.eq_of_testBit_eq fun i => ?_
  rw [testBit_bitsOf, testBit_bitsOf, testBit_goWord]
  by_cases hi : i < k
  · rw [if_neg (by omega), if_neg (by omega)]
  · simp [hi]

theorem bitOf_goWord_low {i : Nat} (h : i < lo) (hlo : lo ≤ 31) : bitOf (goWord v lo w op) i = bitOf v i := by
  rw [bitOf_eq_testBit, bitOf_eq_testBit, testBit_goWord, if_neg (by omega), if_neg (by omega)]

end

/-! ### Operations of the DBG registers reach their function (R624) -/

section

variable {s : State} {x : RegWord} {v : Nat} (hgo : bitOf v 31 = true)

include hgo

theorem dbgWrite_unlock : s.dbgWrite x aDbgUnlock v = (s.putWord x aDbgUnlock v).unlockOp (bitsOf v 28 3) (v % 4) := by
  unfold State.dbgWrite
  rw [if_pos rfl]
  exact if_pos hgo

theorem dbgWrite_apCtl : s.dbgWrite x aDbgApCtl v = (s.putWord x aDbgApCtl v).apGo v := by
  unfold State.dbgWrite
  rw [if_neg (by decide), if_pos rfl]
  exact if_pos hgo

theorem dbgWrite_thrCtl : s.dbgWrite x aDbgThrCtl v = (s.putWord x aDbgThrCtl v).threadGo (bitsOf v 28 3) := by
  unfold State.dbgWrite
  rw [if_neg (by decide), if_neg (by decide), if_pos rfl]
  exact if_pos hgo

theorem dbgWrite_haltCtl : s.dbgWrite x aDbgHaltCtl v = (s.putWord x aDbgHaltCtl v).haltOp (bitsOf v 29 2) := by
  unfold State.dbgWrite
  rw [if_neg (by decide), if_neg (by decide), if_neg (by decide), if_pos rfl]
  exact if_pos hgo

theorem dbgWrite_reset : s.dbgWrite x aDbgReset v = (s.putWord x aDbgReset v).resetOp v := by
  unfold State.dbgWrite
  rw [if_neg (by decide), if_neg (by decide), if_neg (by decide), if_neg (by decide), if_pos rfl]
  exact if_pos hgo

end

section

variable {s : State} {op : Nat} (hcold : s.top.mode ≠ .cold) (hcommit : s.top.mode ≠ .commit)

include hcold hcommit

/-- Where a write of a register with GO puts the word and then acts by `f`, so does the operation's word. -/
theorem dbgGo_acts {r : RegRow} {x : RegWord} {o lo w : Nat} {f : State → Nat → State}
    (hreg : dbgReg o = some (r, [], 0)) (hx : r.words = [x]) (hbase : r.base = 0x01300000 + o)
    (hmay : 1 ≤ s.dbg.level ∨ observeWrites o = true)
    (hf : ∀ t v, bitOf v 31 = true → State.dbgWrite t x r.base v = f (t.putWord x r.base v) v) :
    s.dbgGo r.base lo w op = f (dbgSet r lo w op s) (goWord (s.regN r.base) lo w op) := by
  have ho : r.base - 0x01300000 = o := by rw [hbase, Nat.add_sub_cancel_left]
  have hset : (s.eaccIr.eaccEnd 0 o 0).putWord x r.base (goWord (s.regN r.base) lo w op) = dbgSet r lo w op s := by
    unfold dbgSet
    rw [hx, ← ho]
    rfl
  unfold State.dbgGo
  rw [ho]
  refine (eaccPut_writes hreg (eaccDown_eq_false hcold hcommit) hmay (x := x) (by rw [hx]; rfl)).trans ?_
  rw [← hbase, ← hset]
  exact hf _ _ (bitOf_goWord_go _ _ _ _)

theorem dbgGo_unlock (hop : op < 8) : s.dbgGo aDbgUnlock 28 3 op =
    (dbgSet rowDbgUnlock 28 3 op s).unlockOp op (s.regN aDbgUnlock % 4) := by
  have hop' : bitsOf (goWord (s.regN aDbgUnlock) 28 3 op) 28 3 = op :=
    (bitsOf_goWord_op (by decide)).trans (Nat.mod_eq_of_lt hop)
  have hlevel : goWord (s.regN aDbgUnlock) 28 3 op % 4 = s.regN aDbgUnlock % 4 := by
    have := bitsOf_goWord_low (v := s.regN aDbgUnlock) (w := 3) (op := op) (l := 0) (k := 2) (lo := 28) (by decide) (by decide)
    rwa [bitsOf, bitsOf, Nat.pow_zero, Nat.div_one, Nat.div_one] at this
  have h := dbgGo_acts (r := rowDbgUnlock) (o := 0x4) (lo := 28) (w := 3) (op := op) hcold hcommit rfl rfl rfl (.inr (by decide))
    (f := fun t v => t.unlockOp (bitsOf v 28 3) (v % 4)) fun _ _ => dbgWrite_unlock
  exact h.trans (congrArg₂ (State.unlockOp (dbgSet rowDbgUnlock 28 3 op s)) hop' hlevel)

theorem dbgGo_apCtl (op : Nat) : s.dbgGo aDbgApCtl 30 1 op =
    (dbgSet rowDbgApCtl 30 1 op s).apGo (goWord (s.regN aDbgApCtl) 30 1 op) :=
  dbgGo_acts (r := rowDbgApCtl) (o := 0x400) hcold hcommit rfl rfl rfl (.inr (by decide)) (f := State.apGo) fun _ _ =>
    dbgWrite_apCtl

variable (hlevel : 1 ≤ s.dbg.level)

include hlevel

theorem dbgGo_thrCtl (hop : op < 8) : s.dbgGo aDbgThrCtl 28 3 op = (dbgSet rowDbgThrCtl 28 3 op s).threadGo op := by
  have hop' : bitsOf (goWord (s.regN aDbgThrCtl) 28 3 op) 28 3 = op :=
    (bitsOf_goWord_op (by decide)).trans (Nat.mod_eq_of_lt hop)
  have h := dbgGo_acts (r := rowDbgThrCtl) (o := 0x504) (lo := 28) (w := 3) (op := op) hcold hcommit rfl rfl rfl (.inl hlevel)
    (f := fun t v => t.threadGo (bitsOf v 28 3)) fun _ _ => dbgWrite_thrCtl
  exact h.trans (congrArg (State.threadGo (dbgSet rowDbgThrCtl 28 3 op s)) hop')

theorem dbgGo_haltCtl (hop : op < 4) : s.dbgGo aDbgHaltCtl 29 2 op = (dbgSet rowDbgHaltCtl 29 2 op s).haltOp op := by
  have hop' : bitsOf (goWord (s.regN aDbgHaltCtl) 29 2 op) 29 2 = op :=
    (bitsOf_goWord_op (by decide)).trans (Nat.mod_eq_of_lt hop)
  have h := dbgGo_acts (r := rowDbgHaltCtl) (o := 0x1800) (lo := 29) (w := 2) (op := op) hcold hcommit rfl rfl rfl (.inl hlevel)
    (f := fun t v => t.haltOp (bitsOf v 29 2)) fun _ _ => dbgWrite_haltCtl
  exact h.trans (congrArg (State.haltOp (dbgSet rowDbgHaltCtl 29 2 op s)) hop')

theorem dbgGo_reset (op : Nat) : s.dbgGo aDbgReset 29 2 op =
    (dbgSet rowDbgReset 29 2 op s).resetOp (goWord (s.regN aDbgReset) 29 2 op) :=
  dbgGo_acts (r := rowDbgReset) (o := 0x1900) hcold hcommit rfl rfl rfl (.inl hlevel) (f := State.resetOp) fun _ _ => dbgWrite_reset

end

/-! ### Unlocking (R626 to R628) -/

section

variable (s : State)

theorem event_frame (src code detail : Nat) : (s.event src code detail).dbg = s.dbg ∧
    (s.event src code detail).mems = s.mems ∧ (s.event src code detail).evr.optime = s.evr.optime := by
  refine ⟨?_, mems_of_onlySignals (event_signals s src code detail), ?_⟩
  · rw [event_signals s src code detail]
  · unfold State.event
    split
    · rfl
    · split
      · rw [evr_bump]
      · rfl

theorem debugCover_frame : s.debugCover.dbg = s.dbg ∧ s.debugCover.mems = s.mems := by
  rw [debugCover_signals s]
  exact ⟨rfl, rfl⟩

/-- An attempt uses up the challenge, whatever the checks answer. -/
theorem unlockTry_ends (level : Nat) :
    let u := s.unlockTry level
    let check := (s.unlockCheck level).1
    u.dbg.chal = none ∧ u.dbg.uStatus = check ∧ u.mems = s.mems ∧
      (check = stOk → u.dbg.level = level ∧ u.dbg.fails = 0 ∧ u.dbg.lockEnd = none) ∧
      (check = stReject → u.dbg.level = s.dbg.level ∧ u.dbg.fails = min 4 (s.dbg.fails + 1) ∧
        u.dbg.lockEnd = (if 3 ≤ s.dbg.fails then some (s.evr.optime + 60) else s.dbg.lockEnd)) ∧
      (check ≠ stOk → check ≠ stReject → u.dbg.level = s.dbg.level ∧ u.dbg.fails = s.dbg.fails) := by
  unfold State.unlockTry
  generalize s.unlockCheck level = x
  obtain ⟨st, digest⟩ := x
  dsimp only
  split
  next hok =>
    have hne : ¬st = stReject := hok ▸ (by decide)
    rw [(debugCover_frame _).1, (debugCover_frame _).2, (event_frame _ _ _ _).1, (event_frame _ _ _ _).2.1]
    exact ⟨rfl, rfl, rfl, fun _ => ⟨rfl, rfl, rfl⟩, fun h => absurd h hne, fun h => absurd hok h⟩
  next hok =>
    obtain ⟨hdbg, hmems, htime⟩ := event_frame (s.setDbg { s.dbg with chal := none, uStatus := st }) srcEosta 0x8011
      (level % 4 + st * 256)
    generalize (s.setDbg { s.dbg with chal := none, uStatus := st }).event srcEosta 0x8011 (level % 4 + st * 256) = v
      at hdbg hmems htime ⊢
    obtain ⟨hchal, hst, hlevel, hfails, hlock⟩ : v.dbg.chal = none ∧ v.dbg.uStatus = st ∧ v.dbg.level = s.dbg.level ∧
        v.dbg.fails = s.dbg.fails ∧ v.dbg.lockEnd = s.dbg.lockEnd := by
      rw [hdbg]
      exact ⟨rfl, rfl, rfl, rfl, rfl⟩
    split
    next hr =>
      split
      next hf =>
        have h3 : 3 ≤ s.dbg.fails := by omega
        rw [(event_frame _ _ _ _).1, (event_frame _ _ _ _).2.1, if_pos h3]
        refine ⟨hchal, hst, hmems, fun h => absurd h hok,
          fun _ => ⟨hlevel, rfl, ?_⟩, fun _ h => absurd hr h⟩
        exact congrArg (fun n => some (n + 60)) htime
      next hf =>
        have h3 : ¬3 ≤ s.dbg.fails := by omega
        rw [if_neg h3]
        exact ⟨hchal, hst, hmems, fun h => absurd h hok,
          fun _ => ⟨hlevel, rfl, hlock⟩, fun _ h => absurd hr h⟩
    next hr =>
      exact ⟨hchal, hst, hmems, fun h => absurd h hok, fun h => absurd h hr,
        fun _ _ => ⟨hlevel, hfails⟩⟩

theorem unlockCheck_lockedOut {s : State} (level : Nat) (h : s.lockedOut = true) : (s.unlockCheck level).1 = stDenied := by
  unfold State.unlockCheck
  dsimp only
  rw [if_pos h]

/-- The USER digest is programmed once, from a session, where the fuses hold none. -/
theorem programUser_programs (h : 1 ≤ s.dbg.level) (hu : s.dbg.user = none) :
    s.programUser.dbg.level = s.dbg.level ∧
      (if blank fuseUser = true then s.programUser.dbg.uStatus = stOk ∧
        s.programUser.dbg.user = some ((upTo 16).flatMap fun i => leBytes 4 (s.regN (aDbgUfuse i)))
       else s.programUser.dbg.uStatus = stDenied ∧ s.programUser.dbg.user = none) := by
  unfold State.programUser
  by_cases hblank : blank fuseUser = true
  · have hmay : ¬(s.dbg.level = 0 ∨ s.dbg.user.isSome ∨ (!blank fuseUser) = true) := by
      simp [Nat.one_le_iff_ne_zero.1 h, hu, hblank]
    dsimp only
    rw [if_pos hblank, if_neg hmay, (event_frame _ _ _ _).1]
    exact ⟨rfl, rfl, rfl⟩
  · have hno : s.dbg.level = 0 ∨ s.dbg.user.isSome ∨ (!blank fuseUser) = true := .inr (.inr (by simp [hblank]))
    dsimp only
    rw [if_neg hblank, if_pos hno]
    exact ⟨rfl, rfl, hu⟩

theorem programUser_denied (h : s.dbg.level = 0 ∨ s.dbg.user ≠ none) :
    s.programUser.dbg.uStatus = stDenied ∧ s.programUser.dbg.user = s.dbg.user := by
  have hno : s.dbg.level = 0 ∨ s.dbg.user.isSome ∨ (!blank fuseUser) = true :=
    h.imp_right fun hu => .inl (Option.isSome_iff_ne_none.2 hu)
  unfold State.programUser
  dsimp only
  rw [if_pos hno]
  exact ⟨rfl, rfl⟩

theorem length_freeBytes64 : s.freeBytes64.1.length = 64 := by
  simp [State.freeBytes64, List.length_flatMap, upTo]

end

theorem challengeExpire_expires {s : State} {l : List Byte} {g : Nat} (hc : s.dbg.chal = some (l, g))
    (h : g + 60 * second ≤ s.clk.gtc) :
    exec .challengeExpire s = .next { s with dbg := { s.dbg with chal := none } } := by
  have hnone : s.challenge = none := by
    unfold State.challenge
    rw [hc]
    exact if_neg (Nat.not_lt.2 h)
  exact if_pos hnone

theorem challengeExpire_waits {s : State} {l : List Byte} {g : Nat} (hc : s.dbg.chal = some (l, g))
    (h : s.clk.gtc < g + 60 * second) : exec .challengeExpire s = .next s := by
  have hsome : s.challenge = some l := by
    unfold State.challenge
    rw [hc]
    exact if_pos h
  exact if_neg (hsome ▸ Option.some_ne_none l)

theorem lockoutExpire_expires {s : State} {g : Nat} (hl : s.dbg.lockEnd = some g) (h : g ≤ s.evr.optime) :
    exec .lockoutExpire s = .next { s with dbg := { s.dbg with lockEnd := none } } := by
  have hout : ¬s.lockedOut = true := by simp [State.lockedOut, hl, h]
  exact if_neg hout

theorem lockoutExpire_waits {s : State} {g : Nat} (hl : s.dbg.lockEnd = some g) (h : s.evr.optime < g) :
    exec .lockoutExpire s = .next s := by
  have hout : s.lockedOut = true := by simp [State.lockedOut, hl, h]
  exact if_pos hout

/-- The operation's word moves only its own register. -/
theorem regN_dbgSet_ne {r : RegRow} {lo w op b : Nat} {s : State} (h : b ≠ r.base) : (dbgSet r lo w op s).regN b = s.regN b := by
  unfold dbgSet
  split
  · exact (regN_setRegN _ _ _ _).trans (if_neg h)
  · rfl

/-- Settles O58. -/
theorem sessionsAreUnlockedAndLocked : Obligations.SessionsAreUnlockedAndLocked := by
  intro l g s
  refine ⟨fun hcold hcommit => ⟨?_, ?_, fun hout => unlockCheck_lockedOut _ hout, ?_, fun hlevel huser => ?_, fun hno => ?_⟩,
    challengeExpire_expires, challengeExpire_waits, lockoutExpire_expires, lockoutExpire_waits⟩
  · exact ⟨_, _, congrArg Host.Outcome.next (dbgGo_unlock hcold hcommit (by decide)), rfl, length_freeBytes64 _, rfl, rfl, rfl,
      rfl⟩
  · exact ⟨_, congrArg Host.Outcome.next (dbgGo_unlock hcold hcommit (by decide)), unlockTry_ends _ _⟩
  · exact ⟨_, congrArg Host.Outcome.next (dbgGo_unlock hcold hcommit (by decide)), level_sessionEnd _ 0, rfl,
      mems_sessionEnd _ 0⟩
  · refine ⟨_, congrArg Host.Outcome.next (dbgGo_unlock hcold hcommit (by decide)), ?_⟩
    obtain ⟨hl, hp⟩ := programUser_programs (dbgSet rowDbgUnlock 28 3 4 s) hlevel huser
    have hfuse (i : Nat) : (dbgSet rowDbgUnlock 28 3 4 s).regN (aDbgUfuse i) = s.regN (aDbgUfuse i) :=
      regN_dbgSet_ne (by unfold aDbgUfuse; simp only [rowDbgUnlock]; omega)
    simp only [hfuse] at hp
    exact ⟨hl, hp⟩
  · exact ⟨_, congrArg Host.Outcome.next (dbgGo_unlock hcold hcommit (by decide)), programUser_denied _ hno⟩

end Sys2Proof.Proofs

/-! PROOF. The debug port: the access port, and threads halted, stepped and resumed. -/

namespace Sys2Proof.Proofs

open Sys2Proof Sys2Proof.Machine Sys2Proof.Laws

/-! ### The access port (R629, R630) -/

section

variable {s : State} {v : Nat}

/-- The size and the place of the access that a CTL word starts. -/
def apSize (v : Nat) : Nat := if bitOf v 29 then 8 else 4

def apPlace (s : State) (v : Nat) : Nat :=
  (s.regN aDbgApAddr + s.regN (aDbgApAddr + 4) * 2 ^ 32) / apSize v * apSize v

/-- The value read in the data register. -/
def apShow (w : State) (x : Nat) : State :=
  (w.setRegN aDbgApData (x % 2 ^ 32)).setRegN (aDbgApData + 4) (x / 2 ^ 32)

/-- The address register at `a`. -/
def apStep (w : State) (a : Nat) : State := (w.setRegN aDbgApAddr (a % 2 ^ 32)).setRegN (aDbgApAddr + 4) (a / 2 ^ 32 % 2 ^ 32)

/-- What an access leaves in `u` once it has answered `st` and read `x`. -/
def apEnd (s : State) (v st x : Nat) (u : State) : State :=
  let w := u.setDbg { u.dbg with apStatus := st }
  if st = stDenied then w
  else
    let w := if bitOf v 30 then (if st = stOk then w.firstWrite (bitsOf v 8 3) else w) else apShow w x
    if bitOf v 28 then apStep w (s.regN aDbgApAddr + s.regN (aDbgApAddr + 4) * 2 ^ 32 + apSize v) else w

theorem apGo_ends {u : State} {st x : Nat}
    (h : s.apDo (bitOf v 30) (bitsOf v 8 3) (apPlace s v) (apSize v)
      ((s.regN aDbgApData + s.regN (aDbgApData + 4) * 2 ^ 32) % 2 ^ (8 * apSize v)) = (st, x, u)) :
    s.apGo v = apEnd s v st x u := by
  unfold apPlace apSize at h
  unfold State.apGo
  dsimp only
  rw [h]
  rfl

/-- An access below its level is denied, and nothing else happens. -/
theorem apGo_denied (hspace : bitsOf v 8 3 < 6) (hl : s.dbg.level < spaceLevel (bitsOf v 8 3) (bitOf v 30) (apPlace s v)) :
    s.apGo v = s.setDbg { s.dbg with apStatus := stDenied } :=
  apGo_ends (x := 0) (by unfold State.apDo; rw [if_neg (Nat.not_le.2 hspace), if_pos hl])

theorem mems_useFree_ite (s : State) (p : Prop) [Decidable p] : (if p then s else s.useFree).mems = s.mems := by
  split <;> rfl

theorem mems_dramWord (s : State) (a : Nat) : (s.dramWord a).2.mems = s.mems := by
  unfold State.dramWord
  split
  · rfl
  · rfl
  · rfl
  · rfl
  · exact mems_useFree_ite s _
  · rfl
  · rfl

theorem mems_dramGet (s : State) (a n : Nat) : (s.dramGet a n).2.mems = s.mems := mems_dramWord s _

/-- A read of memory below the places that need more than level 1. -/
theorem apDo_dram {a n x : Nat} (hl : 1 ≤ s.dbg.level) (hn : 0 < n) (hin : a + n ≤ 0xF80000000) :
    s.apDo false 2 a n x = (stOk, (s.dramGet a n).1, (s.dramGet a n).2) := by
  have hlevel : ¬s.dbg.level < spaceLevel 2 false a := by
    have : ¬0xF80000000 ≤ a := by omega
    simp only [spaceLevel, if_neg this]
    omega
  have hhas : spaceHas 2 a n = true := decide_eq_true (by omega)
  unfold State.apDo
  rw [if_neg (by decide), if_neg hlevel, hhas]
  rfl

theorem apShow_shows (w : State) (x : Nat) :
    (apShow w x).regN aDbgApData = x % 2 ^ 32 ∧ (apShow w x).dbg = w.dbg ∧ (apShow w x).mems = w.mems := by
  refine ⟨?_, rfl, rfl⟩
  unfold apShow
  rw [regN_setRegN, if_neg (by decide), regN_setRegN, if_pos rfl, Nat.mod_mod]

theorem apStep_frame (w : State) (a : Nat) :
    (apStep w a).regN aDbgApData = w.regN aDbgApData ∧ (apStep w a).dbg = w.dbg ∧ (apStep w a).mems = w.mems := by
  refine ⟨?_, rfl, rfl⟩
  unfold apStep
  rw [regN_setRegN, if_neg (by decide), regN_setRegN, if_neg (by decide)]

/-- A read that is OK shows the value in the data register and leaves the memories. -/
theorem apEnd_read {u : State} {x : Nat} (hr : bitOf v 30 = false) :
    (apEnd s v stOk x u).dbg.apStatus = stOk ∧ (apEnd s v stOk x u).regN aDbgApData = x % 2 ^ 32 ∧
      (apEnd s v stOk x u).mems = u.mems := by
  have hok : ¬stOk = stDenied := by decide
  have hwrite : ¬bitOf v 30 = true := ne_true_of_eq_false hr
  obtain ⟨hdata, hdbg, hmems⟩ := apShow_shows (u.setDbg { u.dbg with apStatus := stOk }) x
  unfold apEnd
  dsimp only
  rw [if_neg hok, if_neg hwrite]
  generalize apShow (u.setDbg { u.dbg with apStatus := stOk }) x = w at hdata hdbg hmems ⊢
  split
  · obtain ⟨hd, hg, hm⟩ := apStep_frame w (s.regN aDbgApAddr + s.regN (aDbgApAddr + 4) * 2 ^ 32 + apSize v)
    rw [hd, hg, hm, hdbg]
    exact ⟨rfl, hdata, hmems⟩
  · rw [hdbg]
    exact ⟨rfl, hdata, hmems⟩

theorem apGo_reads_dram (hspace : bitsOf v 8 3 = 2) (hr : bitOf v 30 = false) (hl : 1 ≤ s.dbg.level)
    (hin : apPlace s v + apSize v ≤ 0xF80000000) :
    (s.apGo v).dbg.apStatus = stOk ∧ (s.apGo v).regN aDbgApData = (s.dramGet (apPlace s v) (apSize v)).1 % 2 ^ 32 ∧
      (s.apGo v).mems = s.mems := by
  have hsize : 0 < apSize v := by
    unfold apSize
    split <;> decide
  have hdo (x : Nat) : s.apDo (bitOf v 30) (bitsOf v 8 3) (apPlace s v) (apSize v) x =
      (stOk, (s.dramGet (apPlace s v) (apSize v)).1, (s.dramGet (apPlace s v) (apSize v)).2) := by
    rw [hr, hspace]
    exact apDo_dram hl hsize hin
  have hmems := mems_dramGet s (apPlace s v) (apSize v)
  rw [apGo_ends (hdo _), ← hmems]
  exact apEnd_read hr

end

/-! ### Threads halted, stepped and resumed (R631, R632) -/

section

variable {s : State} {n op : Nat}

theorem selThread_lt (h : s.selThread = some n) : n < 816 * 16 := by
  unfold State.selThread at h
  dsimp only at h
  split at h
  next hlt =>
    cases h
    have h4 : bitsOf (s.regN aDbgThrSel) 11 4 < 16 := Nat.mod_lt _ (by decide)
    have h2 : bitsOf (s.regN aDbgThrSel) 0 2 < 4 := Nat.mod_lt _ (by decide)
    omega
  · cases h

theorem threadGo_of {u : State} {st : Nat} (h : s.threadOp op = (st, u)) :
    s.threadGo op = u.setDbg { u.dbg with thrStatus := st } := by
  unfold State.threadGo
  rw [h]

theorem stale_dbgSet (hn : n < 816 * 16) : (dbgSet rowDbgThrCtl 28 3 op s).stale n = s.stale n := by
  have hver : (dbgSet rowDbgThrCtl 28 3 op s).reg (aUcsPatchVersion (cluOf n)) = s.reg (aUcsPatchVersion (cluOf n)) :=
    BitVec.eq_of_toNat_eq (regN_dbgSet_ne (by unfold aUcsPatchVersion cluOf; simp only [rowDbgThrCtl]; omega))
  unfold State.stale
  rw [hver]
  rfl

theorem thr_haltCover (s : State) (n : Nat) : s.haltCover.thr n = s.thr n := by
  unfold State.thr
  rw [haltCover_signals s]

/-- A halted thread that goes on: the halted time does not count. -/
theorem thr_unhalt {step : Bool} (h : s.stale n = false) : (s.unhalt n step false).thr n = { s.thr n with
    ctx := (s.thr n).ctx.map (fun c => { c with start := c.start + (s.clk.gtc - (s.thr n).haltAt) }), halted := none
    stepping := step, mstep := false, bpPass := true, svcAt := s.clk.gtc } := by
  unfold State.unhalt
  rw [if_neg (ne_true_of_eq_false h)]
  dsimp only
  rw [thr_haltCover]
  split
  · split
    · exact (thr_setThr _ _ _ _).trans (if_pos rfl)
    · exact (thr_setThr _ _ _ _).trans (if_pos rfl)
  · exact (thr_setThr _ _ _ _).trans (if_pos rfl)

theorem unhalt_stale {step : Bool} (h : s.stale n = true) :
    s.unhalt n step false = (s.setThr n { s.thr n with ints := {} }).endService n := if_pos h

variable (hsel : s.selThread = some n)

include hsel

theorem threadOp_halt (hbusy : ((s.thr n).ctx.isNone && (s.thr n).svc.isNone) = false) (hh : (s.thr n).halted = none) :
    s.threadOp 1 = (stOk, s.setThr n { s.thr n with ints := { (s.thr n).ints with halt := true } }) := by
  unfold State.threadOp
  simp only [hsel, hbusy, hh, Option.isSome_none, Bool.false_eq_true, if_false]

theorem threadOp_abort (hbusy : ((s.thr n).ctx.isNone && (s.thr n).svc.isNone) = false) :
    s.threadOp 4 = (stOk, s.setThr n { s.thr n with ints := { (s.thr n).ints with abort := true } }) := by
  unfold State.threadOp
  simp only [hsel, hbusy, Bool.false_eq_true, if_false]

/-- There is no thread to halt or to end. -/
theorem threadOp_idle (hidle : ((s.thr n).ctx.isNone && (s.thr n).svc.isNone) = true) :
    s.threadOp 1 = (stNotFound, s) ∧ s.threadOp 4 = (stNotFound, s) := by
  unfold State.threadOp
  simp only [hsel, hidle, if_true, and_self]

/-- A step or a resume of a halted thread lets it go on. -/
theorem threadOp_unhalt (hh : (s.thr n).halted.isNone = false) :
    s.threadOp 2 = (stOk, s.unhalt n true false) ∧ s.threadOp 3 = (stOk, s.unhalt n false false) := by
  unfold State.threadOp
  simp only [hsel, hh, Bool.false_eq_true, if_false, and_self]

theorem threadOp_mstep (hlevel : 2 ≤ s.dbg.level) (hh : (s.thr n).halted.isNone = false) :
    s.threadOp 5 = (stOk, s.microStep n 2) := by
  unfold State.threadOp
  simp only [hsel, if_neg (Nat.not_lt.2 hlevel), hh, Bool.false_eq_true, if_false]

theorem threadOp_mstep_denied (hlevel : s.dbg.level < 2) : s.threadOp 5 = (stDenied, s) := by
  unfold State.threadOp
  simp only [hsel, if_pos hlevel]

/-- A thread that is not halted does not step. -/
theorem threadOp_running (hh : (s.thr n).halted.isNone = true) :
    s.threadOp 2 = (stReject, s) ∧ s.threadOp 3 = (stReject, s) ∧ (2 ≤ s.dbg.level → s.threadOp 5 = (stReject, s)) := by
  refine ⟨?_, ?_, fun hlevel => ?_⟩
  · unfold State.threadOp
    simp only [hsel, hh, if_true]
  · unfold State.threadOp
    simp only [hsel, hh, if_true]
  · unfold State.threadOp
    simp only [hsel, if_neg (Nat.not_lt.2 hlevel), hh, if_true]

end

theorem busy_iff {t : Thread} (h : t.ctx.isSome = true ∨ t.svc.isSome = true) : (t.ctx.isNone && t.svc.isNone) = false := by
  rw [Bool.and_eq_false_iff, Option.isNone_eq_false_iff, Option.isNone_eq_false_iff]
  exact h

/-- Settles O59. -/
theorem debugAccessesAndThreads : Obligations.DebugAccessesAndThreads := by
  intro n s ap word space size at_ th x hcold hcommit
  have hgo (op : Nat) : s.dbgGo aDbgApCtl 30 1 op = (ap op).apGo (word op) := dbgGo_apCtl hcold hcommit op
  have hspace (op : Nat) : bitsOf (word op) 8 3 = space := bitsOf_goWord_low (by decide) (by decide)
  have hrw (op : Nat) (hop : op < 2) : bitOf (word op) 30 = decide (op = 1) := by
    have hbit : bitOf (word op) 30 = op.testBit 0 := by
      rw [bitOf_eq_testBit]
      exact (testBit_goWord _ _ _ _ _).trans (by rw [if_neg (by decide), if_pos (by decide)])
    rw [hbit, Nat.testBit_zero]
    exact decide_eq_decide.2 (by omega)
  have hsize (op : Nat) : apSize (word op) = size := by
    unfold apSize
    rw [show bitOf (word op) 29 = bitOf (s.regN aDbgApCtl) 29 from bitOf_goWord_low (by decide) (by decide)]
  have hplace (op : Nat) : apPlace (ap op) (word op) = at_ := by
    unfold apPlace
    rw [hsize, regN_dbgSet_ne (by decide), regN_dbgSet_ne (by decide)]
  refine ⟨congrArg _ (hgo 0), congrArg _ (hgo 1), fun h6 hlow => ?_, fun h2 hl hin => ?_, fun hl hsel => ?_⟩
  · refine congrArg Host.Outcome.next ((hgo 1).trans (apGo_denied ?_ ?_))
    · rw [hspace]
      exact h6
    · rw [hspace, hrw 1 (by decide), hplace]
      exact hlow
  · obtain ⟨hst, hdata, hmems⟩ := apGo_reads_dram (s := ap 0) (v := word 0) ((hspace 0).trans h2) (hrw 0 (by decide)) hl
      (by rw [hplace, hsize]; exact hin)
    rw [hplace, hsize] at hdata
    exact ⟨_, congrArg Host.Outcome.next (hgo 0), hst, hdata, hmems⟩
  · have hselT (op : Nat) : (th op).selThread = some n := by
      rw [← hsel]
      unfold State.selThread
      rw [regN_dbgSet_ne (by decide)]
    have hend {op st : Nat} {u : State} (hop : op < 8) (h : (th op).threadOp op = (st, u)) :
        s.dbgGo aDbgThrCtl 28 3 op = u.setDbg { u.dbg with thrStatus := st } :=
      (dbgGo_thrCtl hcold hcommit hl hop).trans (threadGo_of h)
    have hstale (op : Nat) : (th op).stale n = s.stale n := stale_dbgSet (selThread_lt hsel)
    refine ⟨fun hbusy hh => ?_, fun hh => ⟨?_, ?_, fun b hs => ?_, fun b hs => ?_, fun h2 => ?_⟩, fun h2 => ?_, fun hbusy => ?_,
      fun hh => ?_, fun hc hv => ?_⟩
    · exact congrArg _ (hend (by decide) (threadOp_halt (hselT 1) (busy_iff hbusy) hh))
    · exact congrArg _ (hend (by decide) (threadOp_unhalt (hselT 2) (Option.isNone_eq_false_iff.2 hh)).1)
    · exact congrArg _ (hend (by decide) (threadOp_unhalt (hselT 3) (Option.isNone_eq_false_iff.2 hh)).2)
    · exact thr_unhalt ((hstale 2).trans hs)
    · exact unhalt_stale ((hstale 2).trans hs)
    · exact congrArg _ (hend (by decide) (threadOp_mstep (hselT 5) h2 (Option.isNone_eq_false_iff.2 hh)))
    · exact congrArg _ (hend (by decide) (threadOp_mstep_denied (hselT 5) h2))
    · exact congrArg _ (hend (by decide) (threadOp_abort (hselT 4) (busy_iff hbusy)))
    · have hn (op : Nat) : ((th op).thr n).halted.isNone = true := Option.isNone_iff_eq_none.2 hh
      exact ⟨congrArg _ (hend (by decide) (threadOp_running (hselT 2) (hn 2)).1),
        congrArg _ (hend (by decide) (threadOp_running (hselT 3) (hn 3)).2.1),
        fun h2 => congrArg _ (hend (by decide) ((threadOp_running (hselT 5) (hn 5)).2.2 h2))⟩
    · have hidle (op : Nat) : (((th op).thr n).ctx.isNone && ((th op).thr n).svc.isNone) = true := by
        rw [Bool.and_eq_true, Option.isNone_iff_eq_none, Option.isNone_iff_eq_none]
        exact ⟨hc, hv⟩
      exact ⟨congrArg _ (hend (by decide) (threadOp_idle (hselT 4) (hidle 4)).2),
        congrArg _ (hend (by decide) (threadOp_idle (hselT 1) (hidle 1)).1)⟩

end Sys2Proof.Proofs

/-! PROOF. The debug port: the device HALT and debug resets. -/

namespace Sys2Proof.Proofs

open Sys2Proof Sys2Proof.Machine Sys2Proof.Laws

/-! ### What signals leave (R474, R544, R565, R616) -/

section

variable {s t : State}

theorem dbg_of_onlySignals (h : OnlySignals s t) : t.dbg = s.dbg := by rw [h]

theorem top_of_onlySignals (h : OnlySignals s t) : t.top = s.top := by rw [h]

theorem clk_of_onlySignals (h : OnlySignals s t) : t.clk = s.clk := by rw [h]

theorem coverageEnd_signals (s : State) (cause : Nat) : OnlySignals s (s.coverageEnd cause) := setRegN_signals _ _ _

theorem regN_coverage_ne {a : Nat} (cause : Nat) (ho : NotOvf a) (ha : a ≠ aSafStatus) :
    (s.coverage cause).regN a = s.regN a := by
  have hset (v : Nat) : (s.setRegN aSafStatus v).regN a = s.regN a := (regN_setRegN _ _ _ _).trans (if_neg ha)
  unfold State.coverage
  dsimp only
  split
  · exact hset _
  · exact (regN_event _ _ _ _ ho).trans (hset _)

end

/-! ### The device HALT (R635, R636) -/

section

variable {s : State}

/-- The instant of a HALT or a resume, once DBG_HALT AT has been looked at. -/
theorem haltAt_of_ok {t : State} {ask g : Nat} (hask : t.regN aDbgHaltAt + t.regN (aDbgHaltAt + 4) * 2 ^ 32 = ask)
    (hg : t.clk.gtc = g) (h : ask = 0 ∨ (g + 8000 ≤ ask ∧ ask ≤ g + 10 * second)) :
    t.haltAt = some (if ask = 0 then nextMultiple 4096 (g + 8000) else ask) := by
  unfold State.haltAt
  rw [hask, hg]
  dsimp only
  by_cases h0 : ask = 0
  · rw [if_pos h0, if_pos h0]
    rfl
  · have hin : ¬(ask < g + 8000 ∨ g + 10 * second < ask) := by omega
    rw [if_neg h0, if_neg h0, if_neg hin]

theorem haltAt_of_past {t : State} {ask g : Nat} (hask : t.regN aDbgHaltAt + t.regN (aDbgHaltAt + 4) * 2 ^ 32 = ask)
    (hg : t.clk.gtc = g) (h0 : ask ≠ 0) (h : ask < g + 8000) : t.haltAt = none := by
  unfold State.haltAt
  rw [hask, hg]
  dsimp only
  rw [if_neg h0, if_pos (.inl h)]

/-- The HALT, or the resume from it, that waits for its instant. -/
def haltAsked (t : State) (enter : Bool) (a : Nat) : State :=
  ((t.setRegN aDbgHaltAt (a % 2 ^ 32)).setRegN (aDbgHaltAt + 4) (a / 2 ^ 32)).setDbg
    { t.dbg with halt := some { enter := enter, at_ := a }, haltStatus := stOk }

theorem haltAsked_frame (t : State) (enter : Bool) (a : Nat) :
    (haltAsked t enter a).dbg.halt = some { enter := enter, at_ := a } ∧ (haltAsked t enter a).dbg.haltStatus = stOk ∧
      (haltAsked t enter a).top = t.top := by
  have hsig : OnlySignals t ((t.setRegN aDbgHaltAt (a % 2 ^ 32)).setRegN (aDbgHaltAt + 4) (a / 2 ^ 32)) :=
    (setRegN_signals _ _ _).after (setRegN_signals _ _ _)
  have htop := top_of_onlySignals hsig
  exact ⟨rfl, rfl, htop⟩

/-- A HALT that is asked for is told to the hosts, and AT shows its instant. -/
theorem haltOp_asks {t : State} {a : Nat} (hm : modeB t.top.mode = true) (ha : t.haltAt = some a) :
    (t.haltOp 1).dbg.halt = some { enter := true, at_ := a } ∧ (t.haltOp 1).dbg.haltStatus = stOk ∧
      (t.haltOp 1).top = t.top ∧ (t.haltOp 1).regN aDbgHaltAt = a % 2 ^ 32 := by
  have hop : t.haltOp 1 = ((haltAsked t true a).irqAll 136).coverage 3 := by
    unfold State.haltOp
    simp only [if_true, hm, ha]
    rfl
  have hsig : OnlySignals (haltAsked t true a) (t.haltOp 1) := hop ▸ (coverage_signals _ 3).after (irqAll_signals _ 136)
  have hovf : NotOvf aDbgHaltAt := fun u hu => by unfold aDbgHaltAt aCntOvf; omega
  have hpend (p : Nat) : aDbgHaltAt ≠ aHstIpend p (136 / 32) := by unfold aDbgHaltAt aHstIpend; omega
  rw [dbg_of_onlySignals hsig, top_of_onlySignals hsig]
  refine ⟨rfl, rfl, rfl, ?_⟩
  rw [hop, regN_coverage_ne 3 hovf (by decide), regN_irqAll_ne hpend]
  refine (regN_setRegN _ _ _ _).trans ?_
  rw [if_neg (by decide), regN_setRegN, if_pos rfl, Nat.mod_mod]

theorem haltOp_resumes {t : State} {a : Nat} (hm : t.top.mode = .halt) (ha : t.haltAt = some a) :
    t.haltOp 2 = haltAsked t false a := by
  unfold State.haltOp
  simp only [hm, ha]
  rfl

/-- A HALT at an instant that is too near is rejected. -/
theorem haltOp_rejects {t : State} (ha : t.haltAt = none) :
    t.haltOp 1 = t.setDbg { t.dbg with haltStatus := stReject } := by
  unfold State.haltOp
  simp only [ha, ite_self]

theorem haltEnter_halts (s : State) (a : Nat) :
    (s.haltEnter a).top.mode = .halt ∧ (s.haltEnter a).dbg.halt = none ∧ (s.haltEnter a).dbg.mine = true := by
  unfold State.haltEnter
  dsimp only
  generalize List.foldl _ s _ = t
  have hsig (u : State) : OnlySignals u.useFree ((u.eventAny srcReset 0x0002).event srcEosta 0x8014 a).debugCover :=
    (debugCover_signals _).after ((event_signals _ _ _ _).after (eventAny_signals u _ _))
  rw [top_of_onlySignals (hsig _), dbg_of_onlySignals (hsig _)]
  exact ⟨rfl, rfl, rfl⟩

/-- The block in mode `m`, with the mode that it leaves noted. -/
def modeNoted (s : State) (m : Mode) : State :=
  let fresh := !s.runs && s.top.mode != .halt && m != .halt
  { s with top := { s.top with
      prev := s.top.mode, mode := m, modeGtc := s.clk.gtc, resumeGtc := if fresh then s.clk.gtc else s.top.resumeGtc } }

/-- A mode change notes the mode and signals it (R511). -/
theorem setMode_signals {s : State} {m : Mode} (h : s.top.mode ≠ m) : OnlySignals (modeNoted s m).useFree (s.setMode m) := by
  have htold := (debugCover_signals _).after ((irqAll_signals _ 136).after (eventAny_signals (modeNoted s m) srcReset 0x0002))
  unfold State.setMode
  rw [if_neg h]
  dsimp only
  split
  · exact (alertCause_signals _ 3).after htold
  · exact htold

theorem setMode_frame (s : State) (m : Mode) :
    (s.setMode m).top.mode = m ∧ (s.setMode m).dbg = s.dbg ∧ (s.setMode m).mems = s.mems := by
  by_cases h : s.top.mode = m
  · have heq : s.setMode m = s := if_pos h
    rw [heq]
    exact ⟨h, rfl, rfl⟩
  · rw [top_of_onlySignals (setMode_signals h), dbg_of_onlySignals (setMode_signals h), mems_of_onlySignals (setMode_signals h)]
    exact ⟨rfl, rfl, rfl⟩

theorem haltLeave_resumes (s : State) :
    s.haltLeave.top.mode = s.top.preHalt ∧ s.haltLeave.dbg.halt = none ∧ s.haltLeave.mems = s.mems := by
  unfold State.haltLeave
  extract_lets d _ u _ v
  have hpre : v.top.preHalt = s.top.preHalt := rfl
  have hhalt : v.dbg.halt = none := rfl
  have hm : v.mems = s.mems := rfl
  clear_value v
  obtain ⟨hmode, hdbg, hmems⟩ := setMode_frame v s.top.preHalt
  have hsig := coverageEnd_signals (v.setMode s.top.preHalt) 3
  rw [hpre, top_of_onlySignals hsig, dbg_of_onlySignals hsig, mems_of_onlySignals hsig, hdbg]
  exact ⟨hmode, hhalt, hmems.trans hm⟩

theorem deviceHaltEnter_enters {h : HaltReq} (hh : s.dbg.halt = some h) (hat : h.at_ ≤ s.clk.gtc) (he : h.enter = true)
    (hm : modeB s.top.mode = true) : exec .deviceHaltEnter s = .next (s.haltEnter h.at_) := by
  change execDeviceHaltEnter s = _
  unfold execDeviceHaltEnter
  rw [hh]
  dsimp only
  rw [if_pos ⟨he, hat⟩, if_pos hm]

theorem deviceHaltResume_resumes {h : HaltReq} (hh : s.dbg.halt = some h) (hat : h.at_ ≤ s.clk.gtc) (he : h.enter = false)
    (hm : s.top.mode = .halt) : exec .deviceHaltResume s = .next s.haltLeave := by
  change execDeviceHaltResume s = _
  unfold execDeviceHaltResume
  rw [hh]
  dsimp only
  rw [if_pos ⟨by rw [he]; rfl, hat, hm⟩]

end

/-! ### Debug resets (R637) -/

section

variable {s : State} {v : Nat}

theorem resetOp_warm (hop : bitsOf v 29 2 = 0) (hm : s.top.mode ≠ .test) :
    s.resetOp v = (s.setDbg { s.dbg with resetStatus := stOk }).warmReset rstDbg (if bitOf v 28 then some 5 else none) false := by
  unfold State.resetOp
  rw [hop]
  exact if_neg hm

theorem resetOp_block (hop : bitsOf v 29 2 = 1) (hm : modeB s.top.mode = true)
    (hex : blockExists (bitsOf v 24 4) (bitsOf v 16 8) = true) (hblk : s.top.blk = none) :
    s.resetOp v =
      (s.setDbg { s.dbg with resetStatus := stOk }).blockBegin rstDbg (bitsOf v 24 4) (bitsOf v 16 8) none := by
  have hrestarts : ¬s.restarts = true := by
    unfold State.restarts
    split
    · rename_i he
      rw [he] at hm
      cases hm
    · rename_i he
      rw [he] at hm
      cases hm
    · rename_i he
      rw [he] at hm
      cases hm
    · exact Bool.false_ne_true
  have hmay : ¬((!modeB s.top.mode) = true ∨ (!blockExists (bitsOf v 24 4) (bitsOf v 16 8)) = true) := by simp [hm, hex]
  have hfree : ¬s.top.blk.isSome = true := by simp [hblk]
  unfold State.resetOp
  rw [hop]
  dsimp only
  rw [if_neg hrestarts, if_neg hmay, if_neg hfree]
  rfl

theorem rstCause_signals (s : State) (src reach : Nat) : OnlySignals s (s.rstCause src reach) :=
  (event_signals _ _ _ _).after (setRegN_signals _ _ _)

/-- A block reset that begins. -/
theorem blockBegin_begins (s : State) (src kind i : Nat) (who : Option CmdRef) :
    (s.blockBegin src kind i who).top.blk = some { kind := kind, index := i, phase := 0, since := s.clk.gtc, who := who } ∧
      (s.blockBegin src kind i who).dbg = s.dbg ∧ (s.blockBegin src kind i who).mems = s.mems := by
  have hsig : OnlySignals s ((s.bump (aRstCnt src) 1).rstCause src 2) := (rstCause_signals _ _ _).after (bump_signals _ _ _)
  have hdbg := dbg_of_onlySignals hsig
  have hmems := mems_of_onlySignals hsig
  refine ⟨?_, hdbg, hmems⟩
  unfold State.blockBegin
  dsimp only
  rw [clk_of_onlySignals hsig]
  rfl

theorem resetOp_test (hop : bitsOf v 29 2 = 2) (hl : s.dbg.level = 2) (hm : s.top.mode = .ready) :
    s.resetOp v = (s.setDbg { s.dbg with resetStatus := stOk }).setMode .test := by
  have hserves : (s.setDbg { s.dbg with resetStatus := stOk }).serves = false := by
    unfold State.serves
    rw [show (s.setDbg { s.dbg with resetStatus := stOk }).top.mode = .ready from hm]
  unfold State.resetOp
  rw [hop]
  refine (if_pos (And.intro hl hm)).trans ?_
  unfold State.enterMode
  dsimp only
  rw [hserves, Bool.false_and, if_neg Bool.false_ne_true, if_neg (by decide)]

theorem resetOp_test_rejected (hop : bitsOf v 29 2 = 2) (hl : s.dbg.level ≠ 2) :
    s.resetOp v = s.setDbg { s.dbg with resetStatus := stReject } := by
  unfold State.resetOp
  rw [hop]
  exact if_neg fun h => hl h.1

end

theorem ne_of_modeB {m : Mode} (h : modeB m = true) : m ≠ .cold ∧ m ≠ .commit := by
  refine ⟨?_, ?_⟩
  · rintro rfl
    cases h
  · rintro rfl
    cases h

/-- Settles O60. -/
theorem theDebugPortHaltsAndResets : Obligations.TheDebugPortHaltsAndResets := by
  intro h s ask g at_ rw_ t done bk bi
  have hask (op : Nat) : (dbgSet rowDbgHaltCtl 29 2 op s).regN aDbgHaltAt +
      (dbgSet rowDbgHaltCtl 29 2 op s).regN (aDbgHaltAt + 4) * 2 ^ 32 = ask := by
    rw [regN_dbgSet_ne (by decide), regN_dbgSet_ne (by decide)]
  have hop {op : Nat} (hlt : op < 4) : bitsOf (rw_ op) 29 2 = op :=
    (bitsOf_goWord_op (by decide)).trans (Nat.mod_eq_of_lt hlt)
  refine ⟨fun hl hin => ⟨fun hm => ?_, fun hm => ?_⟩, fun hl hcold hcommit h0 hnear => ?_, fun hh hat => ⟨fun he hm => ?_,
    fun he hm => ?_⟩, fun hl hcold hcommit htest => ?_, fun hl hm hex hblk => ?_, fun hl hm => ?_, fun hl hm => ?_⟩
  · obtain ⟨hcold, hcommit⟩ := ne_of_modeB hm
    exact ⟨_, congrArg Host.Outcome.next (dbgGo_haltCtl hcold hcommit hl (by decide)), haltOp_asks hm (haltAt_of_ok (hask 1) rfl hin)⟩
  · have hhalt := haltOp_resumes (t := dbgSet rowDbgHaltCtl 29 2 2 s) hm (haltAt_of_ok (hask 2) rfl hin)
    exact ⟨_, congrArg Host.Outcome.next ((dbgGo_haltCtl (by simp [hm]) (by simp [hm]) hl (by decide)).trans hhalt),
      haltAsked_frame _ _ _⟩
  · have hrej := haltOp_rejects (haltAt_of_past (hask 1) rfl h0 hnear)
    exact ⟨_, congrArg Host.Outcome.next ((dbgGo_haltCtl hcold hcommit hl (by decide)).trans hrej), rfl, rfl, rfl⟩
  · exact ⟨_, deviceHaltEnter_enters hh hat he hm, haltEnter_halts s _⟩
  · exact ⟨_, deviceHaltResume_resumes hh hat he hm, haltLeave_resumes s⟩
  · exact congrArg Host.Outcome.next ((dbgGo_reset hcold hcommit hl 0).trans (resetOp_warm (hop (by decide)) htest))
  · obtain ⟨hcold, hcommit⟩ := ne_of_modeB hm
    obtain ⟨hb, hd, hmems⟩ := blockBegin_begins (done 1) rstDbg bk bi none
    exact ⟨_, congrArg Host.Outcome.next ((dbgGo_reset hcold hcommit hl 1).trans (resetOp_block (hop (by decide)) hm hex hblk)),
      hb, congrArg Dbg.resetStatus hd, hmems⟩
  · obtain ⟨hmode, hd, hmems⟩ := setMode_frame (done 2) .test
    exact ⟨_, congrArg Host.Outcome.next ((dbgGo_reset (by simp [hm]) (by simp [hm]) (by omega) 2).trans
      (resetOp_test (hop (by decide)) hl hm)), hmode, congrArg Dbg.resetStatus hd, hmems⟩
  · exact ⟨_, congrArg Host.Outcome.next ((dbgGo_reset (by simp [hm]) (by simp [hm]) (by omega) 2).trans
      (resetOp_test_rejected (hop (by decide)) (by rw [show (dbgSet rowDbgReset 29 2 2 s).dbg.level = s.dbg.level from rfl, hl]
                                                   decide))), hm, rfl⟩

end Sys2Proof.Proofs

/-! PROOF. Commands of the hosts: taken up, refused, and ABORT, COMMIT and ATTEST. -/

namespace Sys2Proof.Proofs

open Sys2Proof Sys2Proof.Machine Sys2Proof.Laws

/-! ### Taking a command up (R462, R465, R466) -/

section

variable {h : HostCmd} {s : State} {opcode : Nat} {kind : CmdKind} {body : CmdRef → State → State}

theorem started_only (h : HostCmd) (s : State) :
    OnlyCounters (s.setRegN (aHstCmdq h.part.val h.ring.val + 24) ((s.cmdCi h.part.val h.ring.val + 1) % 65536)) (started h s) :=
  onlyCounters_trans (occur_only _ 105 0x010 1 (by decide)) (occur_only _ 105 0x011 1 (by decide))

theorem cmdCi_started (h : HostCmd) (s : State) :
    (started h s).cmdCi h.part.val h.ring.val = (s.cmdCi h.part.val h.ring.val + 1) % 65536 := by
  have hovf : NotOvf (aHstCmdq h.part.val h.ring.val + 24) := fun u hu => by
    unfold aHstCmdq aCntOvf
    omega
  have hreg := congrArg BitVec.toNat ((started_only h s).2 _ hovf)
  refine hreg.trans ((regN_setRegN _ _ _ _).trans ?_)
  rw [if_pos rfl]
  omega

/-- A descriptor with a field that must be 0 answers BADCMD. -/
theorem startCmd_bad {issuer mode : Bool} (hs : s.mayStart h.part.val h.ring.val kind = true)
    (hbad : h.rsv ≠ 0 ∨ h.flags.toNat / 2 ≠ 0) :
    s.startCmd h opcode kind issuer mode body = (started h s).cmdDone (startRef h opcode s) stBadCmd 0 := by
  unfold State.startCmd
  dsimp only
  rw [if_pos hs, if_pos hbad]
  rfl

/-- A mode that does not allow the command answers REJECT. -/
theorem startCmd_rejected {issuer mode : Bool} (hb : Begins h kind s) (hi : issuer = true) (hm : mode = false) :
    s.startCmd h opcode kind issuer mode body = (started h s).cmdDone (startRef h opcode s) stReject 0 := by
  obtain ⟨hstart, hrsv, hflags⟩ := hb
  have hbad : ¬(h.rsv ≠ 0 ∨ h.flags.toNat / 2 ≠ 0) := by simp [hrsv, hflags]
  unfold State.startCmd
  simp only [hstart, if_true, if_neg hbad, hi, hm, Bool.not_true, Bool.not_false, Bool.false_eq_true, if_false]
  rfl

end

/-! ### ABORT (R468) -/

section

variable {h : HostCmd} {s : State}

/-- An ABORT with its operands in range acts on what its kind names. -/
theorem abort_acts (hb : Begins h .ahead s) (hm : modeC s.top.mode h.part.val = true)
    (htag : h.op 0 1 = 1 ∨ h.op 4 4 = 0) (hlow : 5 ≤ h.op 0 1 ∨ h.op 2 2 = 0) :
    let t := started h s
    let c := startRef h 0x02 s
    let sub := h.op 2 2
    let n := ((h.op 1 1 * 12 + sub % 16) * 17 + bitsOf sub 4 5) * 4 + bitsOf sub 9 2
    (h.op 0 1 = 1 → h.op 1 1 ≤ 3 → exec (.abort h) s = .next (t.abortCmd c (h.op 1 1) (h.op 4 4))) ∧
    (h.op 0 1 = 2 → h.op 1 1 ≤ 63 → exec (.abort h) s = .next (t.abortRx c (h.op 1 1))) ∧
    (h.op 0 1 = 3 → h.op 1 1 ≤ 63 → exec (.abort h) s = .next (t.abortTx c (h.op 1 1))) ∧
    (h.op 0 1 = 4 → h.op 1 1 ≤ 16 → exec (.abort h) s = .next
      (if (t.walk h.part.val (h.op 1 1)).isSome then
        ((t.walkBreak h.part.val (h.op 1 1)).bump (aEmtWalkCnt h.part.val 3) 1).cmdDone c stOk 0
      else t.cmdDone c stNotFound 0)) ∧
    (h.op 0 1 = 5 → 1 ≤ sub → sub ≤ 12 → h.part.val = 0 → exec (.abort h) s = .next (t.mntStopFor c sub)) ∧
    (h.op 0 1 = 6 → h.op 1 1 ≤ 15 → sub % 16 ≤ 11 → bitsOf sub 4 5 ≤ 16 → sub < 2 ^ 11 →
      exec (.abort h) s = .next (t.abortThread c n)) := by
  intro t c sub n
  have hshape : ¬((h.op 0 1 ≠ 1 ∧ h.op 4 4 ≠ 0) ∨ (h.op 0 1 < 5 ∧ h.op 2 2 ≠ 0)) := by omega
  rw [show exec (.abort h) s = execAbort h s from rfl, execAbort, startCmd_begins hb rfl hm]
  dsimp only
  rw [if_neg hshape]
  refine ⟨fun hk hr => ?_, fun hk hr => ?_, fun hk hr => ?_, fun hk hr => ?_, fun hk h1 h2 hp => ?_, fun hk hr ha he hs => ?_⟩
  · rw [hk]
    exact congrArg _ (if_neg (Nat.not_lt.2 hr))
  · rw [hk]
    exact congrArg _ (if_neg (Nat.not_lt.2 hr))
  · rw [hk]
    exact congrArg _ (if_neg (Nat.not_lt.2 hr))
  · rw [hk]
    exact congrArg _ (if_neg (Nat.not_lt.2 hr))
  · have hin : ¬(sub = 0 ∨ 12 < sub) := by omega
    rw [hk]
    exact congrArg _ ((if_neg hin).trans (if_neg (not_not_intro hp)))
  · have hin : ¬(15 < h.op 1 1 ∨ 11 < sub % 16 ∨ 16 < bitsOf sub 4 5 ∨ 2 ^ 11 ≤ sub) := by omega
    rw [hk]
    exact congrArg _ (if_neg hin)

end

/-! ### COMMIT and ATTEST (R469, R477, R480, R481) -/

section

variable {h : HostCmd} {s : State}

/-- A commit of a block by its writer answers what the block answers. -/
theorem commit_answers {addr : Nat} (hb : Begins h .foreground s) (hm : modeB s.top.mode = true)
    (ha : commitAddr (h.op 0 2) (h.op 2 2) = some addr) (hw : commitWriter addr = some h.part.val) :
    let t := started h s
    let a := t.commitGo addr h.part.val
    exec (.commit h) s = .next (a.2.cmdDone (startRef h 0x03 s) a.1 (if a.1 = stDenied then 0
      else (if a.1 = stOk then t.clk.gtc else 0) % 2 ^ 64 + a.2.regN (addr + 4) * 2 ^ 64)) := by
  have hwriter : ¬commitWriter addr ≠ some (startRef h 0x03 s).part := not_not_intro hw
  have hmode : ¬(!modeB (started h s).top.mode) = true := by rw [started_top, hm]; decide
  change execCommit h s = _
  rw [execCommit, startCmd_begins hb rfl rfl, ha]
  dsimp only
  rw [if_neg hwriter, if_neg hmode]
  rfl

theorem attest_accepts (hb : Begins h .background s) (hm : modeC s.top.mode h.part.val = true) (hl : 1012 ≤ h.op 24 4) :
    ∃ u, exec (.attest h) s = .next u ∧ u.host.bg = s.host.bg ++ [startRef h 0x04 s] ∧
      u.host.attests = s.host.attests ++ [{ ref := startRef h 0x04 s, nonce := h.op 0 16, res := h.op 16 8 }] ∧
      u.mems = s.mems := by
  change ∃ u, execAttest h s = .next u ∧ _
  have hhost := started_host h s
  have hmems := started_mems h s
  rw [execAttest, startCmd_begins hb rfl hm, if_neg (Nat.not_lt.2 hl), ← hhost, ← hmems]
  generalize started h s = t
  generalize startRef h 0x04 s = c
  exact ⟨_, rfl, rfl, rfl, rfl⟩

end

/-- Settles O31. That COMMIT's DETAIL carries the time only with OK is the model's choice (log 68), as are the ABORT of an
activity without a look at RING (log 99) and the ATTEST of a reset partition that writes nothing (log 98). -/
theorem generalCommandsStartAndComplete : Obligations.GeneralCommandsStartAndComplete := by
  refine ⟨fun h part ring tag addr w x s => ⟨fun hb hm => ?_, fun hb hm hk hr hs htag hw => ?_, fun hb hm htag hlow => ?_,
    fun hb hm ha hw hok => ?_, fun hb hm ha hw hno => ?_, attest_accepts, fun hf => ⟨fun he => ?_, fun he => ?_⟩⟩, fun h s hs =>
    ⟨cmdCi_started h s, started_only h s, fun hbad => ⟨congrArg _ (startCmd_bad hs hbad), congrArg _ (startCmd_bad hs hbad)⟩,
      fun hrsv hflags hm => congrArg _ (startCmd_rejected ⟨hs, hrsv, hflags⟩ rfl hm)⟩⟩
  · exact congrArg _ (startCmd_begins hb rfl hm)
  · obtain ⟨-, -, -, hwalk, -⟩ := abort_acts hb hm (.inr htag) (.inr hs)
    rw [hwalk hk hr, hw]
    rfl
  · obtain ⟨h1, h2, h3, h4, h5, h6⟩ := abort_acts hb hm htag hlow
    refine ⟨h1, h2, h3, fun hk hr hn => ?_, h5, h6⟩
    rw [h4 hk hr, hn]
    rfl
  · have hden : ¬stOk = stDenied := by decide
    rw [commit_answers hb hm ha hw, hok, if_neg hden, if_pos rfl]
  · rw [commit_answers hb hm ha hw]
    dsimp only
    rw [if_neg hno, Nat.zero_mod, Nat.zero_add]
  · change execAttestDone part ring tag s = _
    rw [execAttestDone, hf]
    exact congrArg (fun u : State => Host.Outcome.next (u.cmdDone x.ref stOk 1012)) (if_neg he)
  · change execAttestDone part ring tag s = _
    rw [execAttestDone, hf]
    exact congrArg (fun u : State => Host.Outcome.next (u.cmdDone x.ref stOk 1012)) (if_pos he)

end Sys2Proof.Proofs

/-! PROOF. Partition resets: what a reset drops, and the link that trains again. -/

namespace Sys2Proof.Proofs

open Sys2Proof Sys2Proof.Machine Sys2Proof.Laws

/-! ### Partition resets (R450, R482) -/

/-- From `s` to `t` nothing has changed but dump streams and walks. -/
def OnlyStreamsWalks (s t : State) : Prop := t = { s with coll := t.coll, walks := t.walks }

theorem OnlyStreamsWalks.after {s t u : State} (hu : OnlyStreamsWalks t u) (h : OnlyStreamsWalks s t) : OnlyStreamsWalks s u := by
  unfold OnlyStreamsWalks at *
  rw [hu, h]

theorem OnlyStreamsWalks.foldl {α : Type} {f : State → α → State} (hf : ∀ t x, OnlyStreamsWalks t (f t x)) (l : List α)
    (s : State) : OnlyStreamsWalks s (l.foldl f s) :=
  List.foldlRecOn (motive := OnlyStreamsWalks s) l f rfl fun t ht x _ => (hf t x).after ht

/-- The requests for cells of a partition are withdrawn at its reset: those of its commands and its transmit rings. -/
def reqOfPart (p : Nat) : ReqFor → Bool
  | .alloc c _ _ _ _ => decide (c.part = p)
  | .hostTx q _ => decide (q = p)
  | _ => false

theorem reqOfPart_eq_false {p : Nat} {w : ReqFor} : reqOfPart p w = false ↔
    (∀ c n len src res, w = .alloc c n len src res → c.part ≠ p) ∧ ∀ x j, w = .hostTx x j → x ≠ p := by
  cases w with
  | frame k => exact ⟨fun _ => ⟨nofun, nofun⟩, fun _ => rfl⟩
  | alloc c n len src res =>
    exact ⟨fun h => ⟨fun c' _ _ _ _ he => by cases he; exact of_decide_eq_false h, nofun⟩,
      fun h => decide_eq_false (h.1 c n len src res rfl)⟩
  | hostTx q j =>
    exact ⟨fun h => ⟨nofun, fun x _ he => by cases he; exact of_decide_eq_false h⟩, fun h => decide_eq_false (h.2 q j rfl)⟩
  | keepalive r i => exact ⟨fun _ => ⟨nofun, nofun⟩, fun _ => rfl⟩

section

variable (s : State) (p : Nat)

theorem setStream_only (k : Nat) (x : Stream) : OnlyStreamsWalks s (s.setStream p k x) := rfl

theorem stopHostDumps_only : OnlyStreamsWalks s (s.stopHostDumps p) := .foldl (fun t k => setStream_only t p k _) _ s

theorem walkBreak_only (k : Nat) : OnlyStreamsWalks s (if (s.walk p k).isSome then s.walkBreak p k else s) := by
  split
  · rfl
  · rfl

/-- The partition `p` as its reset begins: its link is down, and its commands and rings have ended. -/
def presetTaken (perst : Bool) : State :=
  let h := s.host
  let ring := fun (m : SMap (List TxSlot)) => m.filter (fun e => decide (e.1 / 64 ≠ p))
  State.setLink { s with host := { h with
      preset := mset zeroN h.preset p 1, presetAt := mset zeroN h.presetAt p s.clk.gtc
      perst := mset (fun _ => false) h.perst p perst
      epoch := mset zeroN h.epoch p (mget zeroN h.epoch p + 1)
      rings := (h.rings.map (noForeground p)).filter (fun e => decide (e.2 ≠ CmdRing.mk 0 none))
      txs := ring h.txs, txWait := h.txWait.filter (fun k => decide (k / 64 ≠ p)) } } p false

/-- Besides, the reset stops the partition's dumps and walks and withdraws its requests for cells. -/
theorem presetBegin_only (perst : Bool) :
    OnlyStreamsWalks ((presetTaken s p perst).withdraw (reqOfPart p)) (s.presetBegin p perst) := by
  have hdumps : OnlyStreamsWalks ((presetTaken s p perst).withdraw (reqOfPart p))
      (((presetTaken s p perst).stopHostDumps p).withdraw (reqOfPart p)) := by
    have h := stopHostDumps_only (presetTaken s p perst) p
    unfold OnlyStreamsWalks at h ⊢
    rw [h]
    rfl
  have hwalks := OnlyStreamsWalks.foldl (fun t k => walkBreak_only t p k) (upTo 17)
    (((presetTaken s p perst).stopHostDumps p).withdraw (reqOfPart p))
  exact hwalks.after hdumps

theorem partitionReset_begins (perst : Bool) :
    let u := s.presetBegin p perst
    u.linkUp p = false ∧ u.epoch p = s.epoch p + 1 ∧
      mget zeroN u.host.preset p = 1 ∧ mget zeroN u.host.presetAt p = s.clk.gtc ∧
      mget (fun _ => false) u.host.perst p = perst ∧ (∀ q, q ≠ p → u.linkUp q = s.linkUp q ∧ u.epoch q = s.epoch q) ∧
      u.threads = s.threads ∧ u.mems = s.mems ∧ u.hop = { s.hop with reqs := u.hop.reqs } ∧
      ∀ q, q ∈ u.hop.reqs ↔ q ∈ s.hop.reqs ∧ (∀ c n len src res, q.who = .alloc c n len src res → c.part ≠ p) ∧
        ∀ x j, q.who = .hostTx x j → x ≠ p := by
  have h := presetBegin_only s p perst
  dsimp only
  generalize s.presetBegin p perst = u at h ⊢
  rw [h]
  refine ⟨mget_mset_self linkDown0 s.link p false, mget_mset_self zeroN s.host.epoch p (s.epoch p + 1), mget_mset_self zeroN s.host.preset p 1,
    mget_mset_self zeroN s.host.presetAt p s.clk.gtc, mget_mset_self _ s.host.perst p perst,
    fun q hq => ⟨mget_mset_ne linkDown0 s.link false hq, mget_mset_ne zeroN s.host.epoch (s.epoch p + 1) hq⟩, rfl, rfl, rfl, fun q => ?_⟩
  refine List.mem_filter.trans (and_congr_right fun _ => ?_)
  rw [Bool.not_eq_true', reqOfPart_eq_false]

end

/-- A link trains again when its partition is in no reset, or 100 µs after it. -/
theorem pcieLinkUp_trains {s : State} {part : Part} (ht : s.trains part.val = true) (hl : s.linkUp part.val = false)
    (hp : mget (fun _ => false) s.host.perst part.val = false)
    (hph : mget zeroN s.host.preset part.val = 0 ∨
      (mget zeroN s.host.preset part.val = 2 ∧ mget zeroN s.host.presetAt part.val + 400000 ≤ s.clk.gtc)) :
    exec (.pcieLinkUp part) s = .next (State.setLink { s with host := { s.host with
      preset := mset zeroN s.host.preset part.val 0 } } part.val true) := by
  have hdown : (!s.linkUp part.val) = true := by rw [hl]; rfl
  change execPcieLinkUp part s = _
  have hmay : s.trains part.val = true ∧ (!s.linkUp part.val) = true ∧ mget (fun _ => false) s.host.perst part.val = false ∧
      (mget zeroN s.host.preset part.val = 0 ∨
        (mget zeroN s.host.preset part.val = 2 ∧ mget zeroN s.host.presetAt part.val + 400000 ≤ s.clk.gtc)) :=
    ⟨ht, hdown, hp, hph⟩
  unfold execPcieLinkUp
  dsimp only
  rw [if_pos hmay]

/-- The reset of a partition clears its registers 50 µs after it began. -/
theorem partitionResetClear_clears {s : State} {part : Part} (hph : mget zeroN s.host.preset part.val = 1)
    (hat : mget zeroN s.host.presetAt part.val + 200000 ≤ s.clk.gtc) :
    exec (.partitionResetClear part) s = .next (s.presetClear part.val) := by
  change execPartitionResetClear part s = _
  have hdue : mget zeroN s.host.preset part.val = 1 ∧ mget zeroN s.host.presetAt part.val + 200000 ≤ s.clk.gtc := ⟨hph, hat⟩
  unfold execPartitionResetClear
  dsimp only
  rw [if_pos hdue]

/-- Settles O45. -/
theorem partitionsAreResetAndLinkAgain : Obligations.PartitionsAreResetAndLinkAgain := by
  intro part perst s p due
  have hreset : exec (.partitionReset part perst) s = .next (s.presetBegin p perst) := rfl
  refine ⟨⟨_, hreset, partitionReset_begins s p perst⟩, fun hph hat => partitionResetClear_clears hph hat, fun hfree => ?_, ⟨_, rfl, ?_, rfl, rfl, rfl⟩,
    fun ht hl hp hph => ⟨_, pcieLinkUp_trains ht hl hp hph, ?_, ?_, fun q hq => ?_, rfl⟩⟩
  · refine if_neg fun hany => ?_
    obtain ⟨d, hd, hq⟩ := List.any_eq_true.1 hany
    obtain ⟨hpart, hbuf⟩ := Bool.and_eq_true_iff.1 hq
    obtain ⟨e, he, hin⟩ := List.any_eq_true.1 hbuf
    exact hfree d hd (of_decide_eq_true hpart) e he (List.contains_iff_mem.1 hin)
  · exact mget_mset_self _ s.host.perst p false
  · exact mget_mset_self linkDown0 s.link p true
  · exact mget_mset_self zeroN s.host.preset p 0
  · exact mget_mset_ne linkDown0 s.link true hq

end Sys2Proof.Proofs

/-! PROOF. Block resets: begun, cleared and ended. -/

namespace Sys2Proof.Proofs

open Sys2Proof Sys2Proof.Machine Sys2Proof.Laws

/-! ### BLOCK_RESET and its end (R497, R515, R521) -/

section

variable {h : HostCmd} {s : State} {b : BlkReset}

theorem races_of_onlySignals {t : State} (h : OnlySignals s t) : t.races = s.races := by rw [h]

/-- What a block reset that begins keeps of the host's record and of the races. -/
theorem blockBegin_frame (s : State) (src kind i : Nat) (who : Option CmdRef) :
    (s.blockBegin src kind i who).host = s.host ∧ (s.blockBegin src kind i who).races = s.races := by
  have hsig : OnlySignals s ((s.bump (aRstCnt src) 1).rstCause src 2) := (rstCause_signals _ _ _).after (bump_signals _ _ _)
  have hhost := host_of_onlySignals hsig
  have hraces := races_of_onlySignals hsig
  exact ⟨hhost, hraces⟩

/-- A BLOCK_RESET of a block that exists begins where no other one runs. -/
theorem blockReset_begins (hb : Begins h .background s) (hp : h.part.val = 0) (hm : modeB s.top.mode = true)
    (hex : blockExists (h.op 0 1) (h.op 1 1) = true) (hblk : s.top.blk = none) :
    exec (.blockReset h) s = .next (((started h s).cmdAccept (startRef h 0xA0 s)).blockBegin rstSwr (h.op 0 1) (h.op 1 1)
      (some (startRef h 0xA0 s))) := by
  have hpart : decide (h.part.val = 0) = true := decide_eq_true hp
  have hfree : ¬(started h s).top.blk.isSome = true := by rw [started_top, hblk]; decide
  have hknown : ¬(!blockExists (h.op 0 1) (h.op 1 1)) = true := by rw [hex]; decide
  change execBlockReset h s = _
  rw [execBlockReset, startCmd_begins hb hpart hm]
  dsimp only
  rw [if_neg hknown, if_neg hfree]

/-- What a BLOCK_RESET that begins records: the reset that runs, and the command that waits for its end. -/
theorem blockReset_records (h : HostCmd) (s : State) :
    let c := startRef h 0xA0 s
    let u := ((started h s).cmdAccept c).blockBegin rstSwr (h.op 0 1) (h.op 1 1) (some c)
    u.top.blk = some { kind := h.op 0 1, index := h.op 1 1, phase := 0, since := s.clk.gtc, who := some c } ∧
      u.host.bg = s.host.bg ++ [c] ∧ u.mems = s.mems ∧ u.races = s.races := by
  dsimp only
  have hclk := started_clk h s
  have hhost := started_host h s
  have hmems := started_mems h s
  have hraces : (started h s).races = s.races := races_of_onlySignals (started_signals h s)
  rw [← hclk, ← hhost, ← hmems, ← hraces]
  generalize started h s = t
  generalize startRef h 0xA0 s = c
  obtain ⟨hblk, -, hm⟩ := blockBegin_begins (t.cmdAccept c) rstSwr (h.op 0 1) (h.op 1 1) (some c)
  obtain ⟨hh, hr⟩ := blockBegin_frame (t.cmdAccept c) rstSwr (h.op 0 1) (h.op 1 1) (some c)
  exact ⟨hblk, by rw [hh]; rfl, hm, hr⟩

theorem islandQuiesced_clears (hblk : s.top.blk = some b) (hph : b.phase = 0) (hidle : s.blockIdle b.kind b.index = true) :
    exec .islandQuiesced s = .next (s.blockApply b false) := by
  have hgo : b.phase = 0 ∧ s.blockIdle b.kind b.index = true := ⟨hph, hidle⟩
  change execIslandQuiesced s = _
  unfold execIslandQuiesced
  rw [hblk]
  dsimp only
  rw [if_pos hgo]

theorem quiesceTimeout_clears (hblk : s.top.blk = some b) (hph : b.phase = 0)
    (hat : b.since + 4000 * s.fld aRstQuiesceTmo 0 16 ≤ s.clk.gtc) :
    exec .quiesceTimeout s = .next (s.blockApply b true) := by
  have hgo : b.phase = 0 ∧ b.since + 4000 * s.fld aRstQuiesceTmo 0 16 ≤ s.clk.gtc := ⟨hph, hat⟩
  change execQuiesceTimeout s = _
  unfold execQuiesceTimeout
  rw [hblk]
  dsimp only
  rw [if_pos hgo]

/-- The DETAIL of a block reset: the work lost, and in bit 63 whether the island was stopped. -/
theorem islandResumed_completes (hblk : s.top.blk = some b) (hph : b.phase = 1) :
    let on := s.setTop { s.top with blk := none }
    let u := if b.kind = 1 then (slicesOf b.index).foldl (fun s sl => s.passCut sl) on else on
    exec .islandResumed s = .next (match b.who with
      | some c => u.cmdDone c stOk (b.drops % 2 ^ 32 + natBool b.timedOut * 2 ^ 63)
      | none => u) := by
  intro on u
  change execIslandResumed s = _
  unfold execIslandResumed
  rw [hblk]
  dsimp only
  rw [if_pos hph]
  cases b.who <;> rfl

theorem natBool_mul_stopped (t : Bool) : natBool t * 2 ^ 63 = if t = true then 2 ^ 63 else 0 := by
  cases t <;> decide

end

/-- Settles O41. That the reset of a flow island ends its sweeper passes is the model's choice (log 105). -/
theorem blocksQuiesceResetAndResume : Obligations.BlocksQuiesceResetAndResume := by
  intro h b c s start reset
  refine ⟨fun hb hp hm hex hblk => ⟨_, blockReset_begins hb hp hm hex hblk, blockReset_records h s⟩, fun hblk hph hidle =>
    islandQuiesced_clears hblk hph hidle, fun hblk hph hat => ⟨_, bump_only s aRstBlkDrop (s.blockWork b.kind b.index),
    quiesceTimeout_clears hblk hph hat⟩, fun hblk hph => ?_⟩
  · have hres := islandResumed_completes hblk hph
    dsimp only at hres ⊢
    refine ⟨fun hw => hres.trans ?_, fun hw => hres.trans ?_⟩
    · rw [hw, natBool_mul_stopped]
    · rw [hw]

end Sys2Proof.Proofs

/-! PROOF. Power and the pin RST_N: resets of cold reach. -/

namespace Sys2Proof.Proofs

open Sys2Proof Sys2Proof.Machine Sys2Proof.Laws

/-! ### A reset of cold reach (R494, R496, R498) -/

section

variable {s : State}

theorem top_ringStep (s : State) : s.ringStep.top = s.top := by
  have hbump (t : State) (a n : Nat) : (t.bump a n).top = t.top := top_of_onlySignals (bump_signals _ _ _)
  unfold State.ringStep
  dsimp only
  split
  · rfl
  · split
    · exact hbump _ _ _
    · rfl

theorem top_drainTail (s : State) : s.drainTail.top = s.top :=
  List.foldlRecOn (motive := fun t => t.top = s.top) _ _ rfl fun t ht _ _ => (top_ringStep t).trans ht

theorem sessionReset_signals (s : State) : OnlySignals s s.sessionReset := by
  unfold State.sessionReset
  split
  · rfl
  · exact event_signals _ _ _ _

/-- A mode change leaves the state of the 12 V supply as it is. -/
theorem vinUp_setMode (s : State) (m : Mode) : (s.setMode m).top.vinUp = s.top.vinUp := by
  by_cases h : s.top.mode = m
  · rw [show s.setMode m = s from if_pos h]
  · rw [top_of_onlySignals (setMode_signals h)]
    rfl

/-- A reset of cold reach leaves the block cold, whatever it did before, and the supply as it is. -/
theorem coldReset_cold (s : State) {src : Nat} (hsrc : src < 4) : Cold src s (s.coldReset src) ∧
    (s.coldReset src).top.vinUp = s.top.vinUp := by
  have hpending : (s.coldReset src).pending = s.pending := (Keeps.refl s).coldReset.1
  have hvin : (s.drainTail.sessionReset.setMode .cold).top.vinUp = s.top.vinUp := by
    rw [vinUp_setMode, top_of_onlySignals (sessionReset_signals _), top_drainTail]
  revert hpending
  unfold State.coldReset
  extract_lets u v j r w e _ x n
  intro hpending
  obtain ⟨hmode, hrun, hthr, hpkts⟩ : x.top.mode = .cold ∧ x.clk.run = false ∧ x.threads = [] ∧ x.pkts = [] := ⟨rfl, rfl, rfl, rfl⟩
  obtain ⟨hraces, hem, hdram, hlink, hlevel⟩ : x.races = [] ∧ x.em = [] ∧ x.mems.dram = [] ∧ x.link = [] ∧ x.dbg.level = 0 :=
    ⟨rfl, rfl, rfl, rfl, rfl⟩
  have hup : x.top.vinUp = s.top.vinUp := hvin
  have hn : n < 2 ^ 32 := by
    change 2 ^ src + src * 2 ^ 16 < 2 ^ 32
    interval_cases src <;> decide
  clear_value x
  have hcause : ((x.setRegN aRstCause n).event srcReset 0x0001 n).regN aRstCause = n := by
    have hovf : NotOvf aRstCause := fun u hu => by unfold aRstCause aCntOvf; omega
    rw [regN_event _ _ _ _ hovf, regN_setRegN, if_pos rfl, Nat.mod_eq_of_lt hn]
  have hsig : OnlySignals x ((x.setRegN aRstCause n).event srcReset 0x0001 n) :=
    (event_signals _ srcReset 0x0001 n).after (setRegN_signals x aRstCause n)
  generalize (x.setRegN aRstCause n).event srcReset 0x0001 n = y at hcause hsig hpending ⊢
  unfold OnlySignals at hsig
  rw [hsig] at hcause hpending ⊢
  exact ⟨⟨hmode, hrun, hcause, hthr, hpkts, hraces, hem, hdram, hlink, hlevel, hpending⟩, hup⟩

/-- A cold reset of a state that differs only in what the reset does not keep waiting. -/
theorem cold_of_pending {src : Nat} {t u : State} (h : Cold src t u) (hp : t.pending = s.pending) : Cold src s u := by
  obtain ⟨hmode, hrun, hcause, hthr, hpkts, hraces, hem, hdram, hlink, hlevel, hpending⟩ := h
  exact ⟨hmode, hrun, hcause, hthr, hpkts, hraces, hem, hdram, hlink, hlevel, hpending.trans hp⟩

end

/-! ### The supply (R494, R511, R583 to R586) -/

section

variable {s : State}

theorem vin12Rise_resets (hup : s.top.vinUp = false) (hlow : s.top.vinLow = true) (hm : s.top.mode ≠ .commit) :
    exec .vin12Rise s = .next ((s.setTop { s.top with vinUp := true, vinLow := false }).coldReset rstPor) := by
  have hdown : ¬s.top.vinUp = true := by rw [hup]; decide
  change execVin12Rise s = _
  unfold execVin12Rise State.coldSource
  rw [if_neg hdown]
  dsimp only
  rw [if_pos hlow, if_neg (show ¬(s.setTop { s.top with vinUp := true, vinLow := false }).top.mode = .commit from hm)]

theorem vin12Rise_returns (hup : s.top.vinUp = false) (hlow : s.top.vinLow = false) :
    exec .vin12Rise s = .next { s with top := { s.top with vinUp := true } } := by
  have hdown : ¬s.top.vinUp = true := by rw [hup]; decide
  have hhigh : ¬s.top.vinLow = true := by rw [hlow]; decide
  change execVin12Rise s = _
  unfold execVin12Rise
  rw [if_neg hdown]
  dsimp only
  rw [if_neg hhigh, ← hlow]
  rfl

theorem brownOut_rail_resets (rail : Byte) (hm : s.top.mode ≠ .commit) :
    exec (.brownOut (some rail)) s = .next ((s.event srcWindshaft 0x0110 rail.toNat).coldReset rstBor) := by
  change execBrownOut (some rail) s = _
  unfold execBrownOut
  rw [if_neg hm]

theorem brownOut_supply_resets (hm : s.top.mode ≠ .commit) (hup : s.top.vinUp = true) :
    exec (.brownOut none) s = .next ((s.setTop { s.top with vinUp := false, vinLow := true }).coldReset rstBor) := by
  change execBrownOut none s = _
  unfold execBrownOut
  rw [if_neg hm]
  exact if_pos hup

theorem powerFailWarning_commits (hc : s.top.mode ≠ .cold) (hm : s.top.mode ≠ .commit) :
    exec .powerFailWarning s = .next s.commitStart := by
  change execPowerFailWarning s = _
  unfold execPowerFailWarning
  split
  · contradiction
  · contradiction
  · rfl

/-- COMMIT ends in a cold reset, with its record in the ring and the records that wait marked. -/
theorem commitEnd_resets (hm : s.top.mode = .commit) : ∃ t : State, t.pending = s.pending ∧ exec .commitEnd s = .next (t.coldReset rstBor) := by
  have hpending : (s.ringAppend s.commitRecord).pending = s.pending := (Keeps.refl s).ringAppend.1
  change ∃ t : State, t.pending = s.pending ∧ execCommitEnd s = .next (t.coldReset rstBor)
  unfold execCommitEnd
  rw [if_pos hm]
  generalize s.ringAppend s.commitRecord = t at hpending ⊢
  refine ⟨_, ?_, rfl⟩
  exact hpending

end

/-! ### The pin RST_N (R495, R496) -/

section

variable {s : State} {ns : Nat}

/-- The held pin keeps the block as the cold reset left it. -/
theorem cold_held {src : Nat} {t : State} (h : Cold src s t) :
    Cold src s (t.setTop { t.top with rstHeld := true }) ∧ (t.setTop { t.top with rstHeld := true }).top.rstHeld = true :=
  ⟨h, rfl⟩

theorem rstNLow100ms_resets (hm : s.top.mode ≠ .commit) (hh : s.top.rstHeld = false) :
    exec .rstNLow100ms s = .next ((s.coldReset rstPinCold).setTop { (s.coldReset rstPinCold).top with rstHeld := true }) := by
  have hnot : ¬(s.top.mode = .commit ∨ s.top.rstHeld = true) := by simp [hm, hh]
  change execRstNLow100ms s = _
  unfold execRstNLow100ms
  rw [if_neg hnot]

theorem rstNRelease_held (hh : s.top.rstHeld = true) :
    exec (.rstNRelease ns) s = .next { s with top := { s.top with rstHeld := false } } := by
  change execRstNRelease ns s = _
  unfold execRstNRelease
  rw [if_pos hh]
  rfl

/-- A low time below 2 µs does nothing, one below 10 µs does what the block settles, and a longer one resets. -/
theorem rstNRelease_pulse (hh : s.top.rstHeld = false) :
    (ns < 2000 → exec (.rstNRelease ns) s = .next s) ∧
    (2000 ≤ ns → ns < 10000 → exec (.rstNRelease ns) s = .next
      (if Config.shortPulseResets s.clk.free then s.useFree.warmReset rstPinWarm none false else s.useFree)) ∧
    (10000 ≤ ns → ns < 100000000 → exec (.rstNRelease ns) s = .next (s.warmReset rstPinWarm none false)) := by
  have hfree : ¬s.top.rstHeld = true := by rw [hh]; decide
  change (_ → execRstNRelease ns s = _) ∧ (_ → _ → execRstNRelease ns s = _) ∧ (_ → _ → execRstNRelease ns s = _)
  unfold execRstNRelease
  rw [if_neg hfree]
  refine ⟨fun h => if_pos (.inl h), fun h1 h2 => ?_, fun h1 h2 => ?_⟩
  · have hpulse : ¬(ns < 2000 ∨ 100000000 ≤ ns) := by omega
    rw [if_neg hpulse, if_pos h2]
    split <;> rfl
  · have hpulse : ¬(ns < 2000 ∨ 100000000 ≤ ns) := by omega
    rw [if_neg hpulse, if_neg (Nat.not_lt.2 h1)]

end

/-- Settles O42. That a pulse of 2 to 10 µs resets or not, as it comes, is the model's choice (log 8), and so is what the pin
does while it is held and at its release (log 73). -/
theorem powerAndPinsResetTheBlock : Obligations.PowerAndPinsResetTheBlock := by
  intro rail ns s
  refine ⟨fun hup hlow hm => ⟨_, vin12Rise_resets hup hlow hm, ?_⟩, vin12Rise_returns, fun hm =>
    ⟨⟨_, brownOut_rail_resets rail hm, ?_⟩, fun hup => ⟨_, brownOut_supply_resets hm hup, ?_⟩, fun hh =>
      ⟨_, rstNLow100ms_resets hm hh, ?_⟩⟩, powerFailWarning_commits, fun hm => ?_, fun hm => ?_, rstNRelease_held,
    fun hh => (rstNRelease_pulse hh).2.2, fun hh => (rstNRelease_pulse hh).2.1, fun hh => (rstNRelease_pulse hh).1⟩
  · obtain ⟨h, hvin⟩ := coldReset_cold (s.setTop { s.top with vinUp := true, vinLow := false }) (src := rstPor) (by decide)
    exact ⟨cold_of_pending h rfl, hvin⟩
  · exact cold_of_pending (coldReset_cold _ (by decide)).1 (Keeps.refl s).event.1
  · obtain ⟨h, hvin⟩ := coldReset_cold (s.setTop { s.top with vinUp := false, vinLow := true }) (src := rstBor) (by decide)
    exact ⟨cold_of_pending h rfl, hvin⟩
  · exact cold_held (coldReset_cold s (by decide)).1
  · change execPowerFailWarning s = _
    unfold execPowerFailWarning
    rw [hm]
    rfl
  · obtain ⟨t, hp, hend⟩ := commitEnd_resets hm
    exact ⟨_, hend, cold_of_pending (coldReset_cold t (by decide)).1 hp⟩

end Sys2Proof.Proofs

/-! PROOF. Starts: from RESTART and COLD through TRIM and BOOT. -/

namespace Sys2Proof.Proofs

open Sys2Proof Sys2Proof.Machine Sys2Proof.Laws

/-! ### What a mode change leaves (R511) -/

section

variable {s t : State}

/-- From `s` to `t` nothing has changed but the mode with its times, the free values used and what signals change. -/
def OnlyMode (s t : State) : Prop :=
  t = { s with top := t.top, clk := { s.clk with free := t.clk.free }, evr := t.evr, cnt := t.cnt, regs := t.regs,
               msix := t.msix, smb := t.smb }

theorem setMode_only (s : State) (m : Mode) : OnlyMode s (s.setMode m) := by
  unfold OnlyMode
  by_cases h : s.top.mode = m
  · rw [show s.setMode m = s from if_pos h]
  · rw [setMode_signals h]
    rfl

theorem trimFails_setMode (s : State) (m : Mode) : (s.setMode m).top.trimFails = s.top.trimFails := by
  by_cases h : s.top.mode = m
  · rw [show s.setMode m = s from if_pos h]
  · rw [top_of_onlySignals (setMode_signals h)]
    rfl

theorem pcyc_event (s : State) (src code detail : Nat) : (s.event src code detail).evr.pcyc = s.evr.pcyc := by
  unfold State.event
  dsimp only
  split
  · rfl
  · split
    · rw [evr_bump]
    · rfl

theorem evr_irqAll (s : State) (src : Nat) : (s.irqAll src).evr = s.evr := by
  unfold State.irqAll
  rw [evr_irq, evr_irq, evr_irq, evr_irq]

theorem evr_setRegN (s : State) (a v : Nat) : (s.setRegN a v).evr = s.evr := rfl

theorem pcyc_coverage (s : State) (cause : Nat) : (s.coverage cause).evr.pcyc = s.evr.pcyc := by
  unfold State.coverage
  dsimp only
  split
  · rw [evr_setRegN]
  · rw [pcyc_event, evr_setRegN]

theorem pcyc_debugCover (s : State) : s.debugCover.evr.pcyc = s.evr.pcyc := by
  unfold State.debugCover State.coverageEnd
  split
  · split
    · rw [evr_setRegN]
    · exact pcyc_coverage s 0
  · rw [evr_setRegN]

/-- A mode change leaves the count of power cycles as it is. -/
theorem pcyc_setMode (s : State) (m : Mode) : (s.setMode m).evr.pcyc = s.evr.pcyc := by
  by_cases h : s.top.mode = m
  · rw [show s.setMode m = s from if_pos h]
  · have htold (u : State) : (((u.eventAny srcReset 0x0002).irqAll 136).debugCover).evr.pcyc = u.evr.pcyc := by
      rw [pcyc_debugCover, evr_irqAll]
      exact pcyc_event _ _ _ _
    unfold State.setMode
    rw [if_neg h]
    dsimp only
    split
    · exact htold _
    · exact htold _

theorem regN_debugCover_ne {a : Nat} (ho : NotOvf a) (ha : a ≠ aSafStatus) : s.debugCover.regN a = s.regN a := by
  unfold State.debugCover
  split
  · split
    · exact regN_setRegN_ne _ _ ha
    · exact regN_coverage_ne _ ho ha
  · exact regN_setRegN_ne _ _ ha

/-- A mode change reaches the registers of coverage and interrupts only. -/
theorem regN_setMode_ne {a : Nat} (m : Mode) (ho : NotOvf a) (ha : a ≠ aSafStatus) (hi : ∀ p, a ≠ aHstIpend p (136 / 32)) :
    (s.setMode m).regN a = s.regN a := by
  by_cases h : s.top.mode = m
  · rw [show s.setMode m = s from if_pos h]
  · have htold (u : State) : (((u.eventAny srcReset 0x0002).irqAll 136).debugCover).regN a = u.regN a := by
      rw [regN_debugCover_ne ho ha, regN_irqAll_ne hi]
      exact regN_event _ _ _ _ ho
    unfold State.setMode
    rw [if_neg h]
    dsimp only
    split
    · exact htold _
    · exact htold _

end

/-! ### RESTART ends in TRIM (R500) -/

section

variable {s : State}

theorem setRegN_sameTime (s : State) (a v : Nat) : SameTime s (s.setRegN a v) := sameTime_of_onlySignals (setRegN_signals s a v)

theorem setThreads_sameTime (s : State) (l : SMap Thread) : SameTime s { s with threads := l } := ⟨rfl, rfl⟩

theorem setClu_sameTime (s : State) (k : Nat) (x : Cluster) : SameTime s (s.setClu k x) := ⟨rfl, rfl⟩

theorem setSlice_sameTime (s : State) (i : Nat) (x : Slice) : SameTime s (s.setSlice i x) := ⟨rfl, rfl⟩

theorem stestOver_sameTime (s : State) (k state seg : Nat) : SameTime s (s.stestOver k state seg) := by
  unfold State.stestOver
  extract_lets t u
  have hu : SameTime s u := (setRegN_sameTime t _ _).after (setThreads_sameTime s _)
  split
  · exact (sameTime_of_onlySignals (safety_signals _ _ _ _ _)).after
      ((setRegN_sameTime _ _ _).after ((setClu_sameTime u k _).after hu))
  · exact hu

theorem setJnl_sameTime (s : State) (j : Journal) : SameTime s (s.setJnl j) := ⟨rfl, rfl⟩

theorem ckptDrop_sameTime (s : State) : SameTime s s.ckptDrop := by
  unfold State.ckptDrop
  extract_lets keep t
  have ht : SameTime s t := sameTime_foldl (fun u i => setSlice_sameTime u i _) _ s
  exact (setJnl_sameTime t _).after ht

theorem mntBreak_sameTime (s : State) (c : Nat) : SameTime s (s.mntBreak c) := by
  unfold State.mntBreak
  split
  · exact sameTime_of_onlySignals (coverage_signals _ _)
  · exact sameTime_of_onlySignals (coverage_signals _ _)
  · exact sameTime_refl _
  · exact sameTime_foldl (fun t k => stestOver_sameTime t k _ _) _ s
  · exact ckptDrop_sameTime s
  · exact sameTime_refl _

theorem mntOver_sameTime (s : State) (c status : Nat) : SameTime s (s.mntOver c status) := by
  unfold State.mntOver State.setFld
  split
  · exact (sameTime_of_onlySignals (event_signals _ _ _ _)).after ((setRegN_sameTime _ _ _).after (setRegN_sameTime s _ _))
  · exact sameTime_refl s

/-- Giving the block's work up leaves its time. -/
theorem abandon_sameTime (s : State) : SameTime s s.abandon := by
  unfold State.abandon
  extract_lets t
  have ht : SameTime s t := sameTime_foldl (fun u c => (mntOver_sameTime _ c _).after (mntBreak_sameTime u c)) _ s
  exact ⟨ht.1, ht.2⟩

theorem bump_sameTime (s : State) (a n : Nat) : SameTime s (s.bump a n) := sameTime_of_onlySignals (bump_signals s a n)

theorem ringStep_sameTime (s : State) : SameTime s s.ringStep := by
  unfold State.ringStep
  dsimp only
  split
  · exact sameTime_refl _
  · split
    · exact (bump_sameTime _ _ _).after (setJnl_sameTime s _)
    · exact setJnl_sameTime s _

theorem presetBegin_sameTime (s : State) (p : Nat) (perst : Bool) : SameTime s (s.presetBegin p perst) := by
  have h := presetBegin_only s p perst
  unfold OnlyStreamsWalks at h
  rw [h]
  exact sameTime_refl s

/-- What a reset of warm reach leaves: no thread, packet, emergency entry or session, races with their relocation alone, and the
time that runs on. -/
theorem warmReach_leaves (s : State) :
    let u := s.warmReach
    u.threads = [] ∧ u.pkts = [] ∧ (∀ e, e ∈ u.races → e.2 = { relocV := e.2.relocV }) ∧ u.em = [] ∧ u.clk.gtc = s.clk.gtc ∧
      u.dbg.level = 0 := by
  have htime : SameTime s s.abandon.drainTail.sessionReset :=
    (sameTime_of_onlySignals (sessionReset_signals _)).after
      ((sameTime_foldl (fun t _ => ringStep_sameTime t) _ _).after (abandon_sameTime s))
  unfold State.warmReach
  extract_lets a live b _ _ _ _ _ t u
  have hu : u = t.gatesRestart.newNonce := rfl
  have hb : SameTime s b := (sameTime_foldl (fun t p => presetBegin_sameTime t p false) live a).after htime
  have hraces : ∀ e, e ∈ t.races → e.2 = { relocV := e.2.relocV } := fun e he => by
    obtain ⟨x, -, hx⟩ := List.mem_map.1 (List.mem_filter.1 he).1
    rw [← hx]
  obtain ⟨hthr, hpkts, hem, hgtc, hlevel⟩ : t.threads = [] ∧ t.pkts = [] ∧ t.em = [] ∧ t.clk.gtc = s.clk.gtc ∧
      t.dbg.level = 0 := ⟨rfl, rfl, rfl, hb.2, rfl⟩
  have hgates := gatesRestart_egress t
  clear_value t
  unfold OnlyEgress at hgates
  rw [hu, hgates]
  exact ⟨hthr, hpkts, hraces, hem, hgtc, hlevel⟩

theorem restartQuiesced_trims (hm : s.top.mode = .restart) (he : ∀ e, e ∈ s.eg.ports → e.2.tx = none ∧ e.2.susp = none) :
    exec .restartQuiesced s = .next (s.warmReach.setMode .trim) := by
  have hall : s.eg.ports.all (fun e => e.2.tx.isNone && e.2.susp.isNone) = true := List.all_eq_true.2 fun e h => by
    rw [(he e h).1, (he e h).2]
    rfl
  change execRestartQuiesced s = _
  unfold execRestartQuiesced
  rw [if_pos ⟨hm, hall⟩]

end

/-! ### Valid clocks and TRIM (R500, R501, R505) -/

section

variable {s : State}

/-- The block whose clocks have become valid: they run, and a start after a loss of power counts as a power cycle. -/
def clocksRun (s : State) : State :=
  let power := bitOf (s.regN aRstCause) rstPor || bitOf (s.regN aRstCause) rstBor
  { s with clk := { s.clk with run := true }
           evr := { s.evr with pcyc := if power then (s.evr.pcyc + 1) % 2 ^ 24 else s.evr.pcyc } }

theorem clocksValid_trims (hm : s.top.mode = .cold) (hh : s.top.rstHeld = false) (hup : s.top.vinUp = true) :
    exec .clocksValid s = .next ((clocksRun s).setMode .trim) := by
  have hgo : s.top.mode = .cold ∧ (!s.top.rstHeld) = true ∧ s.top.vinUp = true := ⟨hm, by rw [hh]; rfl, hup⟩
  change execClocksValid s = _
  unfold execClocksValid
  rw [if_pos hgo]
  rfl

theorem bitOf_eq_one_iff (v k : Nat) : bitOf v k = true ↔ v / 2 ^ k % 2 = 1 := decide_eq_true_iff

/-- A loss of power shows as bit 0 or bit 1 of RST_CAUSE. -/
theorem powerCause_iff (v : Nat) : (bitOf v rstPor || bitOf v rstBor) = true ↔ v % 4 ≠ 0 := by
  rw [Bool.or_eq_true, bitOf_eq_one_iff, bitOf_eq_one_iff]
  unfold rstPor rstBor
  omega

theorem pcyc_clocksRun (s : State) : (clocksRun s).evr.pcyc =
    if s.regN aRstCause % 4 = 0 then s.evr.pcyc else (s.evr.pcyc + 1) % 2 ^ 24 := by
  change (if (bitOf (s.regN aRstCause) rstPor || bitOf (s.regN aRstCause) rstBor) = true then _ else _) = _
  rw [← ite_not (s.regN aRstCause % 4 = 0)]
  exact if_congr (powerCause_iff _) rfl rfl

theorem trimApplied_boots (fails : BitVec 32) (hm : s.top.mode = .trim) :
    exec (.trimApplied fails) s = .next ((s.trimLoads fails.toNat 4 0).setMode .boot) := by
  change execTrimApplied fails s = _
  unfold execTrimApplied
  rw [if_pos hm]

/-- A field keeps its value when one below it is written. -/
theorem fld_setFld_apart (s : State) (a : Nat) {lo w l n : Nat} (x : Nat) (hl : l + n ≤ lo) (hw : lo + w ≤ 32) :
    (s.setFld a l n x).fld a lo w = s.fld a lo w := by
  unfold State.fld State.setFld
  rw [regN_setRegN, if_pos rfl]
  refine Nat.eq_of_testBit_eq fun i => ?_
  rw [testBit_bitsOf, testBit_bitsOf, Nat.testBit_mod_two_pow, testBit_putBits]
  by_cases hi : i < w
  · have hin : lo + i < 32 := by omega
    have hout : ¬(l ≤ lo + i ∧ lo + i < l + n) := by omega
    simp [hi, hin, hout]
  · simp [hi]

/-- Trim values that load leave no failure, and the registers say that the factory's own are in use. -/
theorem trimApply_good (s : State) : (s.trimApply 0).fld aTopStatus 22 2 = 0 ∧ (s.trimApply 0).top.trimFails = 0 := by
  unfold State.trimApply
  extract_lets u v w
  have hw : w.top.trimFails = 0 := rfl
  clear_value w
  refine ⟨?_, hw⟩
  rw [fld_setFld_apart _ _ _ (by decide) (by decide), fld_setFld_self _ _ _ (by decide), Nat.zero_mod]

theorem trimLoads_good {fails : Nat} (hf : fails % 2 = 0) (n : Nat) : s.trimLoads fails (n + 1) 0 = s.trimApply 0 := by
  have hgood : (!bitOf fails 0) = true := by
    rw [Bool.not_eq_true', ← Bool.not_eq_true, bitOf_eq_one_iff]
    omega
  unfold State.trimLoads
  rw [if_pos hgood]

end

/-! ### BOOT (R508) -/

section

variable {s : State} {a b : Bool}

theorem bootComplete_recovers (hm : s.top.mode = .boot) (hx : (s.pickSlot fun i => if i = 0 then a else b).1 = none) :
    exec (.bootComplete a b) s =
      .next ((s.pickSlot fun i => if i = 0 then a else b).2.enterMode .recovery).warmOver := by
  change execBootComplete a b s = _
  unfold execBootComplete
  rw [if_pos hm]
  generalize s.pickSlot (fun i => if i = 0 then a else b) = x at hx ⊢
  obtain ⟨i, t⟩ := x
  change i = none at hx
  rw [hx]

theorem bootComplete_boots {i : Nat} (hm : s.top.mode = .boot) (hx : (s.pickSlot fun i => if i = 0 then a else b).1 = some i) :
    let u := (s.pickSlot fun i => if i = 0 then a else b).2
    let t := (u.setTop { u.top with fwm := { u.top.fwm with run := i } }).setFld aTopStatus 19 1 i
    exec (.bootComplete a b) s = .next (if t.top.coldStart then t.memInit else t).ucsConfig.patchStart.bootEnd.warmOver := by
  change execBootComplete a b s = _
  unfold execBootComplete
  rw [if_pos hm]
  generalize s.pickSlot (fun i => if i = 0 then a else b) = x at hx ⊢
  obtain ⟨j, t⟩ := x
  change j = some i at hx
  rw [hx]

end

section

variable {s : State}

/-- After a mode change the block still has the time, threads and sessions that it had. -/
theorem setMode_leaves {g : Nat} (m : Mode) (h : s.threads = [] ∧ s.pkts = [] ∧
      (∀ e, e ∈ s.races → e.2 = { relocV := e.2.relocV }) ∧ s.em = [] ∧ s.clk.gtc = g ∧ s.dbg.level = 0) :
    let u := s.setMode m
    u.threads = [] ∧ u.pkts = [] ∧ (∀ e, e ∈ u.races → e.2 = { relocV := e.2.relocV }) ∧ u.em = [] ∧ u.clk.gtc = g ∧
      u.dbg.level = 0 := by
  have honly := setMode_only s m
  generalize s.setMode m = u at honly ⊢
  unfold OnlyMode at honly
  rw [honly]
  exact h

theorem clk_setMode (s : State) (m : Mode) : (s.setMode m).clk.run = s.clk.run ∧ (s.setMode m).clk.gtc = s.clk.gtc := by
  have honly := setMode_only s m
  generalize s.setMode m = u at honly ⊢
  unfold OnlyMode at honly
  rw [honly]
  exact ⟨rfl, rfl⟩

/-- TRIM ends with the trim values loaded when the first load is good. -/
theorem trimLoads_boot {fails : Nat} (hf : fails % 2 = 0) :
    ((s.trimLoads fails 4 0).setMode .boot).fld aTopStatus 22 2 = 0 ∧
      ((s.trimLoads fails 4 0).setMode .boot).top.trimFails = 0 := by
  have hgood := trimApply_good s
  have hovf : NotOvf aTopStatus := fun u hu => by
    unfold aTopStatus aCntOvf
    omega
  rw [trimLoads_good hf 3]
  generalize s.trimApply 0 = t at hgood ⊢
  obtain ⟨hfld, hfails⟩ := hgood
  have hreg : (t.setMode .boot).regN aTopStatus = t.regN aTopStatus :=
    regN_setMode_ne .boot hovf (by decide) (fun p => by unfold aTopStatus aHstIpend; omega)
  unfold State.fld at hfld ⊢
  rw [hreg]
  exact ⟨hfld, (trimFails_setMode t .boot).trans hfails⟩

end

/-- Settles O43. -/
theorem startsGoThroughTrimAndBoot : Obligations.StartsGoThroughTrimAndBoot := by
  intro fails a b s ok x
  have hclk := clk_setMode (clocksRun s) .trim
  exact ⟨fun hm he => ⟨_, restartQuiesced_trims hm he, (setMode_frame _ _).1, setMode_leaves .trim (warmReach_leaves s)⟩,
    fun hm hh hup => ⟨_, clocksValid_trims hm hh hup, (setMode_frame _ _).1, hclk.1, hclk.2,
      (pcyc_setMode (clocksRun s) .trim).trans (pcyc_clocksRun s)⟩, trimApplied_boots fails, fun hm hf =>
    ⟨_, trimApplied_boots fails hm, (setMode_frame _ _).1, trimLoads_boot hf⟩, bootComplete_recovers, fun i => bootComplete_boots⟩

end Sys2Proof.Proofs

/-! PROOF. The counter collector: snapshots, dump streams and their dumps. -/

namespace Sys2Proof.Proofs

open Sys2Proof Sys2Proof.Machine Sys2Proof.Laws

/-! ### SNAPSHOT and its instant (R535 to R537) -/

section

variable {h : HostCmd} {s : State} {n : Snap}

theorem coll_of_onlySignals {t : State} (h : OnlySignals s t) : t.coll = s.coll := by rw [h]

theorem stream_of_coll {t : State} (h : t.coll = s.coll) (p k : Nat) : t.stream p k = s.stream p k := by
  unfold State.stream
  rw [h]

/-- The snapshot that waits once a SNAPSHOT is accepted at the time `g`. -/
def snapAccepted (h : HostCmd) (g : Nat) (c : CmdRef) : Snap :=
  { mode := h.op 0 1, at_ := if h.op 8 8 = 0 then nextMultiple 4096 (g + 8000) else h.op 8 8, dest := h.op 16 8, ref := c }

theorem snapshot_accepts (hb : Begins h .background s) (hm : modeB s.top.mode = true) (h1 : h.op 1 7 = 0) (h28 : h.op 28 4 = 0)
    (hfree : s.coll.snap = none) (hat : h.op 8 8 = 0 ∨ (s.clk.gtc + 8000 ≤ h.op 8 8 ∧ h.op 8 8 ≤ s.clk.gtc + 10 * second))
    (hmode : (h.op 0 1 = 0 ∧ (s.stream h.part.val 0).en = true ∧
        bufBytes (s.stream h.part.val 0).cfg.pages.length ≤ h.op 24 4) ∨
      (h.part.val = 0 ∧ h.op 0 1 = 1 ∧ s.clk.frozen = false) ∨ (h.part.val = 0 ∧ h.op 0 1 = 2 ∧ s.clk.frozen = true)) :
    ∃ u, exec (.snapshot h) s = .next u ∧ u.coll.snap = some (snapAccepted h s.clk.gtc (startRef h 0x40 s)) ∧
      u.host.bg = s.host.bg ++ [startRef h 0x40 s] ∧ u.mems = s.mems := by
  change ∃ u, execSnapshot h s = .next u ∧ _
  have hclk := started_clk h s
  have hcoll := coll_of_onlySignals (started_signals h s)
  have hstream : (started h s).stream h.part.val 0 = s.stream h.part.val 0 := stream_of_coll hcoll _ _
  rw [execSnapshot, startCmd_begins hb rfl hm]
  rw [← started_host h s, ← started_mems h s]
  rw [← hclk] at hat hmode ⊢
  rw [← hcoll] at hfree
  rw [← hstream] at hmode
  have hpart : (startRef h 0x40 s).part = h.part.val := rfl
  generalize started h s = t at hat hmode hfree ⊢
  generalize startRef h 0x40 s = c at hpart ⊢
  have hmine : ¬((h.op 0 1 = 1 ∨ h.op 0 1 = 2) ∧ c.part ≠ 0) := by omega
  have hshape : ¬(2 < h.op 0 1 ∨ h.op 1 7 ≠ 0 ∨ h.op 28 4 ≠ 0 ∨
      (h.op 0 1 = 0 ∧ ((!(t.stream c.part 0).en) = true ∨ h.op 24 4 < bufBytes (t.stream c.part 0).cfg.pages.length)) ∨
      (h.op 0 1 = 1 ∧ t.clk.frozen = true) ∨ (h.op 0 1 = 2 ∧ (!t.clk.frozen) = true) ∨
      (h.op 8 8 ≠ 0 ∧ (h.op 8 8 < t.clk.gtc + 8000 ∨ t.clk.gtc + 10 * second < h.op 8 8))) := by
    rw [hpart]
    obtain ⟨h0, hen, hlen⟩ | ⟨-, h0, hfr⟩ | ⟨-, h0, hfr⟩ := hmode
    · simp only [hen, h0, h1, h28]
      simp
      omega
    · simp only [hfr, h0, h1, h28]
      simp
      omega
    · simp only [hfr, h0, h1, h28]
      simp
      omega
  have hidle : ¬t.coll.snap.isSome = true := by rw [hfree]; decide
  dsimp only
  rw [if_neg hmine, if_neg hshape, if_neg hidle]
  exact ⟨_, rfl, rfl, rfl, rfl⟩

theorem snapshotDue_freezes (hd : s.snapDue 1 = some n) :
    exec .counterFreeze s = .next ({ s with clk := { s.clk with frozen := true } }.snapDone n) := by
  change execCounterFreeze s = _
  unfold execCounterFreeze
  rw [hd]

theorem snapshotDue_unfreezes (hd : s.snapDue 2 = some n) :
    exec .counterUnfreeze s = .next ({ s with clk := { s.clk with frozen := false } }.snapDone n) := by
  change execCounterUnfreeze s = _
  unfold execCounterUnfreeze
  rw [hd]

theorem snapshotLatch_writes (hd : s.snapDue 0 = some n) (he : n.ref.epoch = s.epoch n.ref.part) :
    let y := s.stream n.ref.part 0
    let w := s.hostWrite n.ref.part n.dest (dumpHeader n.ref.part 0 s.clk.frozen true 0 n.at_ n.at_ y.cfg.period
      y.cfg.pages.length y.skipped ++ s.dumpBody (Fin.ofNat 4 n.ref.part) y.cfg.pages)
    exec .snapshotLatch s = .next (((w.bump (aCntCollCnt 2) 1).bump (aCntCollCnt 3) y.cfg.pages.length).snapDone n) := by
  change execSnapshotLatch s = _
  unfold execSnapshotLatch
  rw [hd]
  dsimp only
  rw [if_pos he]

theorem snapshotLatch_drops (hd : s.snapDue 0 = some n) (he : n.ref.epoch ≠ s.epoch n.ref.part) :
    exec .snapshotLatch s = .next (((s.bump (aCntCollCnt 2) 1).bump (aCntCollCnt 3)
      (s.stream n.ref.part 0).cfg.pages.length).snapDone n) := by
  change execSnapshotLatch s = _
  unfold execSnapshotLatch
  rw [hd]
  dsimp only
  rw [if_neg he]

end

/-! ### DUMP_CFG (R530 to R532) -/

section

variable {s t : State}

/-- What a partition may read is settled by committed words and tables. -/
theorem pageReadable_of_onlyCounters (h : OnlyCounters s t) (p : Part) (id : Nat) : t.pageReadable p id = s.pageReadable p id := by
  have hqueue : t.ownsQueue p.val = s.ownsQueue p.val := by rw [h.1]; rfl
  have hpart : t.partReads p.val = s.partReads p.val := by rw [h.1]; rfl
  unfold State.pageReadable
  rw [hqueue, hpart]

theorem userMay_of_onlyCounters (h : OnlyCounters s t) {p : Nat} (hp : p < 4) (pages : List Nat) :
    t.userMay p pages = s.userMay p pages := by
  have hovf : NotOvf (aCntUserRead p) := fun u hu => by
    unfold aCntUserRead aCntOvf
    omega
  unfold State.userMay State.regN
  rw [h.2 _ hovf]

theorem inSub_of_onlyCounters (h : OnlyCounters s t) {p : Nat} (hp : p < 4) (base size : Nat) :
    t.inSub p 0 base size = s.inSub p 0 base size := by
  have hovf : NotOvf (aHstDsub p + 4 * 0) := fun u hu => by
    unfold aHstDsub aCntOvf
    omega
  unfold State.inSub State.subRegion State.regN
  rw [h.2 _ hovf]

theorem otherRates_of_onlyCounters (h : OnlyCounters s t) (p k : Nat) : t.otherRates p k = s.otherRates p k := by
  unfold State.otherRates
  rw [h.1]

end

section

variable {h : HostCmd} {s : State}

theorem dumpCfg_stops (hb : Begins h .foreground s) (hm : modeB s.top.mode = true) (hk : h.op 0 1 ≤ 1)
    (hen : bitOf (h.op 1 1) 0 = false) :
    let t := started h s
    let p := h.part.val
    exec (.dumpCfg h) s = .next (((t.dmaRead 0).setStream p (h.op 0 1) { t.stream p (h.op 0 1) with en := false }).cmdDone
      (startRef h 0x41 s) stOk (bufBytes (h.op 20 2))) := by
  intro t p
  have hoff : (!bitOf (h.op 1 1) 0) = true := by rw [hen]; rfl
  have hno : ¬bitOf (h.op 1 1) 0 = true := by rw [hen]; decide
  have hcoll : (t.dmaRead 0).coll = t.coll := coll_of_onlySignals (onlySignals_of_onlyCounters (dmaRead_only t 0))
  change execDumpCfg h s = _
  rw [execDumpCfg, cmdB_begins hb hm]
  dsimp only
  rw [if_neg hno, if_pos hoff, if_neg (Nat.not_lt.2 hk), stream_of_coll hcoll]
  rfl

/-- The configuration that a DUMP_CFG gives with its list of pages. -/
def dumpCfgOf (h : HostCmd) (pages : List Nat) : DumpCfg :=
  { loc := bitOf (h.op 1 1) 1, irq := bitOf (h.op 1 1) 2, period := h.op 4 4, base := h.op 8 8, pages := pages }

/-- Both buffers of a stream are marked as not yet written. -/
def buffersCleared (t : State) (p : Nat) (cfg : DumpCfg) (b : Nat) : State :=
  [0, b].foldl (fun u o => (u.streamWrite p cfg (o + 8) (leBytes 8 0)).streamWrite p cfg (o + 0x38) (leBytes 8 0)) t

theorem coll_streamWrite (t : State) (p : Nat) (c : DumpCfg) (off : Nat) (l : List Byte) :
    (t.streamWrite p c off l).coll = t.coll ∧ (t.streamWrite p c off l).clk = t.clk := by
  have hhost := hostWrite_only t p (c.base + off) l
  unfold State.streamWrite
  split
  · rw [hhost.1]
    exact ⟨rfl, rfl⟩
  · exact ⟨rfl, rfl⟩

theorem coll_buffersCleared (t : State) (p : Nat) (cfg : DumpCfg) (b : Nat) :
    (buffersCleared t p cfg b).coll = t.coll ∧ (buffersCleared t p cfg b).clk = t.clk := by
  unfold buffersCleared
  simp only [List.foldl_cons, List.foldl_nil, (coll_streamWrite _ _ _ _ _).1, (coll_streamWrite _ _ _ _ _).2, and_self]

/-- The stream that a DUMP_CFG accepted at the time `g` leaves; a dump that is being written goes on. -/
def streamStarted (cfg : DumpCfg) (g : Nat) (run : Option (Nat × DumpCfg × Nat)) : Stream :=
  { en := true, cfg := cfg, first := nextMultiple (cfg.period * 4000) (g + 40000), next := 1, seq := 0, skipped := 0, run := run }

theorem coll_cmdDone (t : State) (c : CmdRef) (status detail : Nat) : (t.cmdDone c status detail).coll = t.coll := by
  have hwrite (u : State) (p a : Nat) (l : List Byte) : (u.hostWrite p a l).coll = u.coll := by rw [(hostWrite_only u p a l).1]
  have hring (u : State) (p i : Nat) (r : CmdRing) : (u.setCmdRing p i r).coll = u.coll := rfl
  have hforget (u : State) : (u.cmdForget c).coll = u.coll := rfl
  simp only [State.cmdDone, apply_ite State.coll, coll_of_onlySignals (irq_signals _ _ _),
    coll_of_onlySignals (deny_signals _ _ _ _), coll_of_onlySignals (bump_signals _ _ _), hwrite, hring, hforget, ite_self]

/-- The checks of DUMP_CFG on what a partition may read pass for a list of readable pages. -/
theorem dumpCfg_mayRead {u t : State} (honly : OnlyCounters t u) {part : Part} {k : Nat} {pages : List Nat}
    (hread : (pages.all fun id => pageValid id && t.pageReadable part id) = true)
    (huser : k = 1 → t.userMay part.val pages = true) :
    ¬((k = 1 ∧ (!u.userMay part.val pages) = true) ∨ (pages.any fun id => pageValid id && !u.pageReadable part id) = true) := by
  rw [userMay_of_onlyCounters honly part.isLt]
  rintro (⟨hk, hno⟩ | hany)
  · rw [huser hk] at hno
    cases hno
  · obtain ⟨id, hid, hq⟩ := List.any_eq_true.1 hany
    rw [pageReadable_of_onlyCounters honly, (Bool.and_eq_true_iff.1 (List.all_eq_true.1 hread id hid)).2, Bool.not_true,
      Bool.and_false] at hq
    cases hq

/-- A buffer in the host's memory, or inside the partition's part of DRAM, is where it may be. -/
theorem dumpCfg_mayWrite {u t : State} (honly : OnlyCounters t u) {part : Part} {loc : Bool} {base size : Nat}
    (hsub : loc = true ∨ t.inSub part.val 0 base size = true) :
    ¬((!loc) = true ∧ (!u.inSub part.val 0 base size) = true) := by
  rw [inSub_of_onlyCounters honly part.isLt]
  rintro ⟨hl, hi⟩
  obtain hs | hs := hsub
  · rw [hs] at hl
    cases hl
  · rw [hs] at hi
    cases hi

theorem dumpCfg_starts (hb : Begins h .foreground s) (hm : modeB s.top.mode = true) (hk : h.op 0 1 ≤ 1)
    (hen : bitOf (h.op 1 1) 0 = true) (h8 : h.op 1 1 < 8) (h2 : h.op 2 2 = 0) (hlo : 1000 ≤ h.op 4 4) (hhi : h.op 4 4 ≤ 1000000)
    (hn : 1 ≤ h.op 20 2) (hmax : h.op 20 2 ≤ 16384) (h22 : h.op 22 2 = 0) (halign : h.op 8 8 % 4096 = 0)
    (hsize : 2 * bufBytes (h.op 20 2) ≤ h.op 16 4) {pages : List Nat}
    (hlist : (upTo (h.op 20 2)).map (fun i => (started h s).hostLe h.part.val (h.op 24 8 + 4 * i) 4) = pages)
    (hread : (pages.all fun id => pageValid id && (started h s).pageReadable h.part id) = true)
    (hsorted : ascending pages = true) (huser : h.op 0 1 = 1 → (started h s).userMay h.part.val pages = true)
    (hsub : bitOf (h.op 1 1) 1 = true ∨ (started h s).inSub h.part.val 0 (h.op 8 8) (h.op 16 4) = true)
    (hrate : (started h s).otherRates h.part.val (h.op 0 1) + streamRate (bufBytes (h.op 20 2)) (h.op 4 4) ≤ 16000000000) :
    ∃ (v : State) (run : Option (Nat × DumpCfg × Nat)), v.coll = s.coll ∧
      exec (.dumpCfg h) s = .next ((v.setStream h.part.val (h.op 0 1) (streamStarted (dumpCfgOf h pages) s.clk.gtc run)).cmdDone
        (startRef h 0x41 s) stOk (bufBytes (h.op 20 2))) := by
  have hon : ¬(!bitOf (h.op 1 1) 0) = true := by rw [hen]; decide
  have htime := started_clk h s
  have hstreams : (started h s).coll = s.coll := coll_of_onlySignals (started_signals h s)
  have hp : (startRef h 0x41 s).part = h.part.val := rfl
  have hvalid : pages.all pageValid = true := List.all_eq_true.2 fun id hid =>
    (Bool.and_eq_true_iff.1 (List.all_eq_true.1 hread id hid)).1
  change ∃ (v : State) (run : Option (Nat × DumpCfg × Nat)), v.coll = s.coll ∧ execDumpCfg h s = _
  rw [execDumpCfg, cmdB_begins hb hm]
  dsimp only
  rw [← htime, ← hstreams]
  generalize startRef h 0x41 s = c at hp ⊢
  generalize started h s = t at hlist hread huser hsub hrate ⊢
  rw [if_pos hmax, hp, hlist]
  have honly := dmaRead_only t (if bitOf (h.op 1 1) 0 = true then 4 * pages.length else 0)
  generalize t.dmaRead _ = u at honly ⊢
  have hmay := dumpCfg_mayRead honly hread huser
  have hplace := dumpCfg_mayWrite honly hsub
  have hshape : ¬(1 < h.op 0 1 ∨ 8 ≤ h.op 1 1 ∨ h.op 2 2 ≠ 0 ∨ h.op 4 4 < 1000 ∨ 1000000 < h.op 4 4 ∨ h.op 20 2 = 0 ∨
      16384 < h.op 20 2 ∨ h.op 22 2 ≠ 0 ∨ (!ascending pages) = true ∨ (!pages.all pageValid) = true ∨
      h.op 8 8 % 4096 ≠ 0 ∨ h.op 16 4 < 2 * bufBytes (h.op 20 2) ∨
      ((!bitOf (h.op 1 1) 1) = true ∧ (!u.inSub h.part.val 0 (h.op 8 8) (h.op 16 4)) = true)) := by
    simp only [hsorted, hvalid, hplace, Bool.not_true, Bool.false_eq_true, false_or, or_false]
    omega
  have hfull : ¬u.otherRates h.part.val (h.op 0 1) + streamRate (bufBytes (h.op 20 2)) (h.op 4 4) > 16000000000 := by
    rw [otherRates_of_onlyCounters honly]
    exact not_lt.2 hrate
  rw [if_neg hon, if_neg hmay, if_neg hshape, if_neg hfull]
  have hsig := onlySignals_of_onlyCounters honly
  obtain ⟨hvcoll, hvclk⟩ := coll_buffersCleared u h.part.val (dumpCfgOf h pages) (bufBytes (h.op 20 2))
  rw [← coll_of_onlySignals hsig, ← clk_of_onlySignals hsig, ← hvclk]
  exact ⟨_, _, hvcoll, rfl⟩

end

/-! ### Dump streams (R533, R534) -/

section

variable {part : Part} {stream : Fin 2} {s : State} {num since : Nat} {c : DumpCfg}

/-- The next dump of the stream is due. -/
def DumpIsDue (s : State) (x : Stream) : Prop :=
  (s.collects && x.en && decide (x.first + (x.next - 1) * (x.cfg.period * 4000) ≤ s.clk.gtc)) = true

theorem dumpIsDue_of_time {x : Stream} (hc : s.collects = true) (hen : x.en = true)
    (hat : x.first + (x.next - 1) * (x.cfg.period * 4000) ≤ s.clk.gtc) : DumpIsDue s x := by
  unfold DumpIsDue
  rw [hc, hen, Bool.true_and, Bool.true_and]
  exact decide_eq_true hat

theorem dumpDue_starts (hdue : DumpIsDue s (s.stream part.val stream.val))
    (hrun : (s.stream part.val stream.val).run = none) :
    let x := s.stream part.val stream.val
    exec (.dumpDue part stream) s = .next ((s.setStream part.val stream.val
      { x with next := x.next + 1, run := some (x.next, x.cfg, s.clk.gtc) }).streamWrite part.val x.cfg (x.cfg.buf x.next + 8)
        (leBytes 8 x.next)) := by
  change execDumpDue part stream s = _
  unfold DumpIsDue at hdue
  unfold execDumpDue
  dsimp only
  rw [if_pos hdue, hrun]

theorem dumpDue_skips (hdue : DumpIsDue s (s.stream part.val stream.val))
    (hrun : (s.stream part.val stream.val).run ≠ none) :
    let x := s.stream part.val stream.val
    exec (.dumpDue part stream) s = .next ((s.setStream part.val stream.val
      { x with next := x.next + 1, skipped := x.skipped + 1 }).bump (aCntCollCnt 1) 1) := by
  obtain ⟨r, hr⟩ := Option.ne_none_iff_exists'.1 hrun
  change execDumpDue part stream s = _
  unfold DumpIsDue at hdue
  unfold execDumpDue
  dsimp only
  rw [if_pos hdue, hr]

theorem dumpComplete_ends {k : Nat} {x : Stream} (hk : stream.val = k) (hx : s.stream part.val k = x) (hc : s.collects = true)
    (hrun : x.run = some (num, c, since)) :
    let w := s.streamWrite part.val c (c.buf num) (dumpHeader part.val k s.clk.frozen false num s.clk.gtc s.clk.gtc
      c.period c.pages.length x.skipped ++ s.dumpBody part c.pages)
    let v := ((w.setStream part.val k { x with run := none, seq := num }).bump (aCntCollCnt 0) 1).bump
      (aCntCollCnt 3) c.pages.length
    let z := if k = 0 then v.restartDelays part.val c.pages else v
    exec (.dumpComplete part stream) s = .next (if c.irq then z.irq part.val 139 else z) := by
  subst hk hx
  change execDumpComplete part stream s = _
  unfold execDumpComplete
  dsimp only
  rw [hrun]
  dsimp only
  rw [if_pos hc]

end

/-- What a DUMP_CFG that starts a stream leaves. -/
theorem streamStarted_done {s v : State} (hv : v.coll = s.coll) (p k g : Nat) (cfg : DumpCfg)
    (run : Option (Nat × DumpCfg × Nat)) (c : CmdRef) (status detail : Nat) :
    let u := (v.setStream p k (streamStarted cfg g run)).cmdDone c status detail
    u.coll.snap = s.coll.snap ∧ (u.stream p k).en = true ∧ (u.stream p k).cfg = cfg ∧
      (u.stream p k).first = nextMultiple (cfg.period * 4000) (g + 40000) ∧ (u.stream p k).next = 1 := by
  have hcoll := coll_cmdDone (v.setStream p k (streamStarted cfg g run)) c status detail
  dsimp only
  rw [stream_of_coll hcoll, stream_setStream_self, hcoll, ← hv]
  exact ⟨rfl, rfl, rfl, rfl, rfl⟩

/-- Settles O35. That a snapshot of a partition reset since is not written is the model's choice (log 98), and so is the buffer
size that DUMP_CFG with EN = 0 answers (log 61). -/
theorem snapshotsAndDumpsRun : Obligations.SnapshotsAndDumpsRun := by
  intro h part stream n num since c s p t x
  refine ⟨fun hb hm h1 h28 hfree hat hmode => snapshot_accepts hb hm h1 h28 hfree hat hmode,
    fun hb hm hp h0 h1 h28 hfr hat hfree => ?_, snapshotDue_freezes, snapshotDue_unfreezes, snapshotLatch_drops,
    snapshotLatch_writes, dumpCfg_stops, ?_, fun hc hen hat =>
      ⟨dumpDue_starts (dumpIsDue_of_time hc hen hat), dumpDue_skips (dumpIsDue_of_time hc hen hat)⟩,
    dumpComplete_ends rfl rfl, fun hc hrun h1 hirq => ?_⟩
  · obtain ⟨u, hu, hsnap, hbg, hmems⟩ := snapshot_accepts hb hm h1 h28 hfree (.inl hat) (.inr (.inl ⟨hp, h0, hfr⟩))
    have hwhen : (snapAccepted h s.clk.gtc (startRef h 0x40 s)).at_ = nextMultiple 4096 (s.clk.gtc + 8000) := if_pos hat
    refine ⟨u, _, hu, hsnap, h0, rfl, ?_, ?_, hbg, hmems⟩
    · rw [hwhen]
      unfold nextMultiple
      omega
    · rw [hwhen]
      exact Nat.mul_mod_left _ _
  · intro k m b cfg w hb hm hk hen h8 h2 hlo hhi hn hmax h22 hw halign hsize huser hsub hrate
    obtain ⟨hread, hsorted⟩ := Bool.and_eq_true_iff.1 hw
    have hsame : cfg = dumpCfgOf h cfg.pages := rfl
    obtain ⟨v, run, hv, hstart⟩ := dumpCfg_starts (pages := cfg.pages) hb hm hk hen h8 h2 hlo hhi hn hmax h22 halign hsize rfl
      hread hsorted huser hsub hrate
    rw [← hsame] at hstart
    exact ⟨_, hstart, streamStarted_done hv h.part.val (h.op 0 1) s.clk.gtc cfg run (startRef h 0x41 s) stOk
      (bufBytes (h.op 20 2))⟩
  · have hend := dumpComplete_ends h1 (show s.stream part.val 1 = x from h1 ▸ rfl) hc hrun
    dsimp only at hend ⊢
    rw [hirq, if_neg Bool.false_ne_true, if_neg Nat.one_ne_zero] at hend
    exact hend

end Sys2Proof.Proofs

/-! PROOF. Maintenance activities and self-tests. -/

namespace Sys2Proof.Proofs

open Sys2Proof Sys2Proof.Machine Sys2Proof.Laws

/-! ### Commands on activities (R571 to R573) -/

section

variable {h : HostCmd} {s : State} {x : Nat}

/-- A MAINT_START with an activity that exists and its argument in range, while no firmware is activated, begins the activity,
or is refused with the one in its way. -/
theorem maintStart_answers (hb : Begins h .foreground s) (hp : h.part.val = 0) (hm : modeA s.top.mode = true)
    (h0 : h.op 0 1 ≠ 0) (h10 : h.op 0 1 ≠ 10) (h12 : h.op 0 1 ≤ 12) (h1 : h.op 1 7 = 0)
    (harg : mntArgOk (h.op 0 1) (h.op 8 8) = true)
    (hswap : h.op 0 1 = 6 → ((started h s).spareOf (h.op 8 8 % 256)).isSome = true ∧
      (started h s).engActive (h.op 8 8 % 256) (h.op 8 8 / 256) = true)
    (hfw : ∀ f, s.top.fw = some f → f.op ≠ 3) :
    let t := started h s
    let c := startRef h 0x60 s
    exec (.maintStart h) s = .next (match t.mntConflict (h.op 0 1) with
      | some x => ((t.bump (aMntCnt 2) 1).ckptRefused (h.op 0 1)).cmdDone c stConflict x
      | none => ((t.mntStart (h.op 0 1) 0).mntBegin (h.op 0 1) (h.op 8 8)).cmdDone c stOk t.clk.gtc) := by
  have hpart : decide (h.part.val = 0) = true := decide_eq_true hp
  have hmine : (startRef h 0x60 s).part = 0 := hp
  have htop := started_top h s
  rw [← htop] at hfw
  change execMaintStart h s = _
  rw [execMaintStart, startCmd_begins hb hpart hm]
  dsimp only
  generalize started h s = t at hswap hfw ⊢
  generalize startRef h 0x60 s = c at hmine ⊢
  have hshape : ¬(h.op 0 1 = 0 ∨ h.op 0 1 = 10 ∨ 12 < h.op 0 1 ∨ h.op 1 7 ≠ 0 ∨ (!mntArgOk (h.op 0 1) (h.op 8 8)) = true ∨
      (h.op 0 1 = 6 ∧ ((t.spareOf (h.op 8 8 % 256)).isNone = true ∨
        (!t.engActive (h.op 8 8 % 256) (h.op 8 8 / 256)) = true))) := by
    rintro (h | h | h | h | h | ⟨h6, hno | hno⟩)
    · exact h0 h
    · exact h10 h
    · exact absurd h (Nat.not_lt.2 h12)
    · exact h h1
    · rw [harg] at h
      cases h
    · rw [← Option.not_isSome, (hswap h6).1] at hno
      cases hno
    · rw [(hswap h6).2] at hno
      cases hno
  have hidle : ¬t.top.fw.any (fun f => f.op = 3) = true := by
    rw [no_activation_of_firmware hfw]
    decide
  rw [if_neg hshape, if_neg hidle]
  cases t.mntConflict (h.op 0 1) with
  | none => simp only [hmine]
  | some x => rfl

theorem maintStop_stops (hb : Begins h .foreground s) (hp : h.part.val = 0) (hm : modeB s.top.mode = true) :
    exec (.maintStop h) s = .next ((started h s).mntStopFor (startRef h 0x61 s) (h.op 0 1)) := by
  have hpart : decide (h.part.val = 0) = true := decide_eq_true hp
  change execMaintStop h s = _
  rw [execMaintStop, startCmd_begins hb hpart hm]

/-- MAINT_STATUS answers which activities run, or the four words of the one it names. -/
theorem maintStatus_answers (hb : Begins h .foreground s) (hm : modeB s.top.mode = true) :
    let t := started h s
    let a := h.op 0 1
    (a = 0 → exec (.maintStatus h) s = .next (t.cmdDone (startRef h 0x62 s) stOk
      (((upTo 13).map (fun j => natBool (t.mntOn j) * 2 ^ j)).sum))) ∧
    (1 ≤ a → a ≤ 12 → exec (.maintStatus h) s = .next (t.cmdDone (startRef h 0x62 s) stOk
      (((upTo 4).map (fun w => t.regN (aMnt a + 4 * w) * 2 ^ (32 * w))).sum))) := by
  intro t a
  change (_ → execMaintStatus h s = _) ∧ (_ → _ → execMaintStatus h s = _)
  rw [execMaintStatus, cmdB_begins hb hm]
  dsimp only
  refine ⟨fun h0 => ?_, fun hlo hhi => ?_⟩
  · rw [if_pos h0]
  · rw [if_neg (Nat.one_le_iff_ne_zero.1 hlo), if_neg (Nat.not_lt.2 hhi)]

end

/-! ### Activities that Windshaft starts, and their ends (R574 to R577) -/

section

variable {k : Fin 13} {s : State} {x : Nat}

/-- Windshaft may start an activity that is due in a mode that allows it, and again 1 ms after it was refused. -/
def MayAutoStart (s : State) (k : Nat) : Prop :=
  ¬((!modeA s.top.mode) = true ∨ s.mntOn k = true ∨ (!s.autoDue k) = true ∨
    (mget zeroN s.saf.autoAt k ≠ 0 ∧ s.clk.gtc < mget zeroN s.saf.autoAt k + 4000000))

theorem mayAutoStart_of_due (hm : modeA s.top.mode = true) (hoff : s.mntOn k.val = false) (hdue : s.autoDue k.val = true)
    (htried : mget zeroN s.saf.autoAt k.val = 0 ∨ mget zeroN s.saf.autoAt k.val + 4000000 ≤ s.clk.gtc) :
    MayAutoStart s k.val := by
  unfold MayAutoStart
  rw [hm, hoff, hdue]
  rintro (h | h | h | ⟨h1, h2⟩)
  · cases h
  · cases h
  · cases h
  · obtain h0 | hlate := htried
    · exact h1 h0
    · exact absurd h2 (Nat.not_lt.2 hlate)

theorem maintAutoStart_starts (hgo : MayAutoStart s k.val) (hfree : s.mntConflict k.val = none) :
    exec (.maintAutoStart k) s = .next (({ s with saf := { s.saf with
      swapDue := if k.val = 6 then s.saf.swapDue.erase (s.autoArg k.val % 256, s.autoArg k.val / 256) else s.saf.swapDue
      autoAt := mset zeroN s.saf.autoAt k.val 0 } }.mntStart k.val byWindshaft).mntBegin k.val (s.autoArg k.val)) := by
  change execMaintAutoStart k s = _
  unfold MayAutoStart at hgo
  unfold execMaintAutoStart
  dsimp only
  rw [if_neg hgo, hfree]

theorem maintAutoStart_refused (hgo : MayAutoStart s k.val) (hway : s.mntConflict k.val = some x) :
    exec (.maintAutoStart k) s = .next (({ s with saf := { s.saf with
      autoAt := mset zeroN s.saf.autoAt k.val s.clk.gtc } }.bump (aMntCnt 1) 1).ckptRefused k.val) := by
  change execMaintAutoStart k s = _
  unfold MayAutoStart at hgo
  unfold execMaintAutoStart
  dsimp only
  rw [if_neg hgo, hway]

/-- An activity that runs, other than a patch, is broken off or finished; a bulk flush ends once it finds nothing left. -/
theorem maintEnd_ends (hon : s.mntOn k.val = true) (h10 : k.val ≠ 10) :
    exec (.maintEnd k false) s = .next (s.mntAbort k.val) ∧
    (k.val ≠ 8 → s.mntMayEnd k.val = true → exec (.maintEnd k true) s = .next ((s.mntFinish k.val).mntOver k.val stOk)) ∧
    (k.val = 8 →
      let b := s.bulkFlush (s.mntArg 8)
      exec (.maintEnd k true) s = .next (if b.2 then b.1.mntOver 8 stOk else b.1)) := by
  have hgo : ¬((!s.mntOn k.val) = true ∨ k.val = 10) := by
    rw [hon]
    rintro (h | h)
    · cases h
    · exact h10 h
  change execMaintEnd k false s = _ ∧ (_ → _ → execMaintEnd k true s = _) ∧ (_ → execMaintEnd k true s = _)
  unfold execMaintEnd
  dsimp only
  rw [if_neg hgo, if_neg hgo]
  refine ⟨rfl, fun h8 hmay => ?_, fun h8 => ?_⟩
  · rw [Bool.not_true, if_neg Bool.false_ne_true, if_neg h8, if_pos hmay]
  · rw [Bool.not_true, if_neg Bool.false_ne_true, if_pos h8]

end

/-! ### Self-tests (R580 to R582) -/

section

variable {race : RaceId} {cluster : ClusterId} {s : State} {x : Nat}

theorem selftestStart_starts (hm : modeA s.top.mode = true) (hdue : s.stestDue (12 * race.val + cluster.val) = true) :
    let n := 12 * race.val + cluster.val
    exec (.selftestStart race cluster) s = .next (if s.mntOn 7 = true ∧ s.fld (aMnt 7) 16 8 = byWindshaft then s.stestRound n
      else match s.mntConflict 7 with
        | some _ => (s.tries 7 s.clk.gtc).bump (aMntCnt 1) 1
        | none => ((s.mntStart 7 byWindshaft).stestRound n).stestCheck) := by
  have hgo : ¬((!modeA s.top.mode) = true ∨ s.stestDue (12 * race.val + cluster.val) = false) := by
    rw [hm, hdue]
    decide
  change execSelftestStart race cluster s = _
  unfold execSelftestStart
  dsimp only
  rw [if_neg hgo]
  split
  · rfl
  · cases s.mntConflict 7 <;> rfl

theorem selftestDone_ends {seg : Byte} {pass : Option Bool} (hruns : s.stestRuns (12 * race.val + cluster.val) = true)
    (hseg : seg.toNat ≤ 192) :
    exec (.selftestDone race cluster seg pass) s = .next ((s.stestOver (12 * race.val + cluster.val)
      (match pass with | some true => 2 | some false => 3 | none => 4) seg.toNat).stestCheck) := by
  change execSelftestDone race cluster seg pass s = _
  unfold execSelftestDone
  exact if_pos ⟨hruns, hseg⟩

end

/-- Settles O38. That a bulk flush deletes at MAINT_END, and ends with the one that finds nothing left, is the model's choice
(log 65). -/
theorem maintenanceStartsAndEnds : Obligations.MaintenanceStartsAndEnds := by
  intro h k race cluster seg pass x s t n a arg tried
  refine ⟨fun hb hp hm h0 h10 h12 h1 harg hswap hfw => ?_, maintStop_stops, maintStatus_answers,
    fun hm hoff hdue htried => ?_, maintEnd_ends, fun hm hdue => ?_, selftestDone_ends⟩
  · have hstart := maintStart_answers hb hp hm h0 h10 h12 h1 harg hswap hfw
    refine ⟨fun hfree => hstart.trans ?_, fun hway => hstart.trans ?_⟩
    · rw [hfree]
    · rw [hway]
  · have hgo := mayAutoStart_of_due hm hoff hdue htried
    refine ⟨fun hfree h6 => (maintAutoStart_starts hgo hfree).trans ?_, fun hfree h6 => (maintAutoStart_starts hgo hfree).trans ?_,
      maintAutoStart_refused hgo⟩
    · rw [if_neg h6]
    · rw [h6, if_pos rfl]
  · have hstart := selftestStart_starts hm hdue
    refine ⟨fun hby => hstart.trans ?_, fun hby hfree => hstart.trans ?_, fun hby hway => hstart.trans ?_⟩
    · rw [if_pos hby]
    · rw [if_neg hby, hfree]
    · rw [if_neg hby, hway]

end Sys2Proof.Proofs

/-! PROOF. Windshaft's timed duties. -/

namespace Sys2Proof.Proofs

open Sys2Proof Sys2Proof.Machine Sys2Proof.Laws

/-! ### Alive count and operating seconds (R540, R559) -/

section

variable {s : State}

theorem safAliveTick_counts (hrun : s.clk.run = true) (hh : s.top.mode ≠ .halt) (hc : s.top.mode ≠ .commit)
    (hat : s.saf.aliveAt + 400000 ≤ s.clk.gtc) :
    exec .safAliveTick s =
      .next (State.bumpReg { s with saf := { s.saf with aliveAt := s.saf.aliveAt + 400000 } } aSafAlive) := by
  have hdue : s.clk.run = true ∧ s.top.mode ≠ .halt ∧ s.top.mode ≠ .commit ∧ s.saf.aliveAt + 400000 ≤ s.clk.gtc :=
    ⟨hrun, hh, hc, hat⟩
  change execSafAliveTick s = _
  unfold execSafAliveTick
  rw [if_pos hdue]

theorem reg_bumpReg (t : State) (a : Nat) : (t.bumpReg a).reg a = t.reg a + 1 := mget_mset_self regDefault t.regs a (t.reg a + 1)

theorem optimeTick_counts (hrun : s.clk.run = true) (hat : s.saf.optAt + second ≤ s.clk.gtc) :
    exec .optimeTick s = .next { s with
      saf := { s.saf with optAt := s.saf.optAt + second }, evr := { s.evr with optime := s.evr.optime + 1 } } := by
  have hdue : s.clk.run = true ∧ s.saf.optAt + second ≤ s.clk.gtc := ⟨hrun, hat⟩
  change execOptimeTick s = _
  unfold execOptimeTick
  rw [if_pos hdue]

end

/-! ### Power and temperature (R591, R617) -/

section

variable {vin iin pin tj : Half} {island : Fin 107} {s : State}

/-- From `s` to `t` only what the SMBus target shows has changed. -/
def OnlySmb (s t : State) : Prop := t = { s with smb := t.smb }

theorem vinAlert_only (s : State) (v : Nat) : OnlySmb s (s.vinAlert v) := by
  unfold State.vinAlert
  dsimp only
  split
  · rfl
  · split
    · rfl
    · split
      · rfl
      · rfl

/-- The block with a reading of the power monitor in its registers. -/
def powerRead (vin iin pin tj : Half) (island : Fin 107) (s : State) : State :=
  let t : State := { s with saf := { s.saf with powerAt := s.clk.gtc } }
  (((t.setRegN aTopPwr vin.toNat).setRegN (aTopPwr + 4) iin.toNat).setRegN (aTopPwr + 8)
    (tj.toNat + island.val * 65536)).setRegN (aTopPwr + 12) pin.toNat

theorem regN_powerRead (vin iin pin tj : Half) (island : Fin 107) (s : State) :
    let u := powerRead vin iin pin tj island s
    u.regN aTopPwr = vin.toNat ∧ u.regN (aTopPwr + 4) = iin.toNat ∧
      u.regN (aTopPwr + 8) = tj.toNat + island.val * 65536 ∧ u.regN (aTopPwr + 12) = pin.toNat ∧
      u.regN aTopTalert = s.regN aTopTalert := by
  have hvin := vin.isLt
  have hiin := iin.isLt
  have hpin := pin.isLt
  have htj := tj.isLt
  have hisl := island.isLt
  dsimp only
  unfold powerRead
  extract_lets _ t
  have htal : t.regN aTopTalert = s.regN aTopTalert := rfl
  clear_value t
  refine ⟨?_, ?_, ?_, ?_, ?_⟩
  · rw [regN_setRegN_ne _ _ (by decide), regN_setRegN_ne _ _ (by decide), regN_setRegN_ne _ _ (by decide), regN_setRegN,
      if_pos rfl, Nat.mod_eq_of_lt (by omega)]
  · rw [regN_setRegN_ne _ _ (by decide), regN_setRegN_ne _ _ (by decide), regN_setRegN, if_pos rfl, Nat.mod_eq_of_lt (by omega)]
  · rw [regN_setRegN_ne _ _ (by decide), regN_setRegN, if_pos rfl, Nat.mod_eq_of_lt (by omega)]
  · rw [regN_setRegN, if_pos rfl, Nat.mod_eq_of_lt (by omega)]
  · rw [regN_setRegN_ne _ _ (by decide), regN_setRegN_ne _ _ (by decide), regN_setRegN_ne _ _ (by decide),
      regN_setRegN_ne _ _ (by decide), htal]

/-- A reading settles the alert of the junction temperature. -/
def tempAlert (tj : Half) (s : State) : State :=
  let hot := decide ((BitVec.ofNat 16 (s.fld aTopTalert 0 16)).toInt < tj.toInt)
  let t : State := { s with smb := { s.smb with hot := hot } }
  if hot && !s.smb.hot then t.alertCause 0 else t

theorem tempAlert_only (tj : Half) (s : State) : OnlySmb s (tempAlert tj s) ∧
    (tempAlert tj s).smb.hot = decide ((BitVec.ofNat 16 (s.fld aTopTalert 0 16)).toInt < tj.toInt) := by
  unfold tempAlert
  dsimp only
  split
  · exact ⟨rfl, rfl⟩
  · exact ⟨rfl, rfl⟩

theorem powerMonitorUpdate_reads (hrun : s.clk.run = true) (hc : s.top.mode ≠ .commit)
    (hat : s.saf.powerAt + 4000000 ≤ s.clk.gtc) : exec (.powerMonitorUpdate vin iin pin tj island) s =
      .next (tempAlert tj ((powerRead vin iin pin tj island s).vinAlert vin.toNat)) := by
  have hdue : s.clk.run = true ∧ s.top.mode ≠ .commit ∧ s.saf.powerAt + 4000000 ≤ s.clk.gtc := ⟨hrun, hc, hat⟩
  change execPowerMonitorUpdate vin iin pin tj island s = _
  unfold execPowerMonitorUpdate
  rw [if_pos hdue]
  rfl

end

/-! ### The round of ageing measurements (R569 to R575) -/

/-- From `s` to `t` nothing has changed but what signals change and the safety monitor's record, without its swaps due. -/
def OnlySafety (s t : State) : Prop :=
  t = { s with saf := t.saf, evr := t.evr, cnt := t.cnt, regs := t.regs, msix := t.msix, smb := t.smb } ∧
    t.saf.swapDue = s.saf.swapDue

theorem OnlySafety.after {s t u : State} (h2 : OnlySafety t u) (h1 : OnlySafety s t) : OnlySafety s u := by
  obtain ⟨ht, hswap⟩ := h1
  obtain ⟨hu, hswap'⟩ := h2
  refine ⟨?_, hswap'.trans hswap⟩
  rw [hu, ht]

theorem onlySafety_of_onlySignals {s t : State} (h : OnlySignals s t) : OnlySafety s t := by
  unfold OnlySignals at h
  unfold OnlySafety
  rw [h]
  exact ⟨rfl, rfl⟩

section

variable (s : State)

theorem dueC_safety (code block i : Nat) : OnlySafety s (s.dueC code block i) := ⟨rfl, rfl⟩

theorem dueD_safety (code : Nat) : OnlySafety s (s.dueD code) := ⟨rfl, rfl⟩

theorem islandAged_safety (i margin guard years : Nat) : OnlySafety s (s.islandAged i margin guard years) := by
  unfold State.islandAged
  extract_lets a before t u v
  have ht : OnlySafety s t := onlySafety_of_onlySignals (setRegN_signals s _ _)
  have hu : OnlySafety s u := by
    change OnlySafety s (if years < 20 ∧ 20 ≤ before then _ else t)
    split
    · exact (onlySafety_of_onlySignals ((alertCause_signals _ 4).after
        ((event_signals _ _ _ _).after (setRegN_signals t aAgeSummary _)))).after ht
    · exact ht
  split
  · have hv : OnlySafety s v := (onlySafety_of_onlySignals (safety_signals u _ _ _ _)).after hu
    split
    · exact (dueC_safety v _ _ _).after hv
    · split
      · exact (dueC_safety v _ _ _).after hv
      · split
        · exact (dueC_safety v _ _ _).after hv
        · exact (dueD_safety v _).after hv
  · exact hu

theorem ageSummary_safety : OnlySafety s s.ageSummary := by
  have hset (t : State) (lo w v : Nat) : OnlySafety t (t.setFld aAgeSummary lo w v) :=
    onlySafety_of_onlySignals (setRegN_signals t _ _)
  exact (hset _ _ _ _).after (hset s _ _ _)

/-- The islands' readings, as the round of measurements takes them up. -/
def islandsAged (isl : List (Nat × Nat × Nat × Nat)) : State :=
  (isl.foldl (fun s e => if e.1 < 107 then s.islandAged e.1 e.2.1 e.2.2.1 e.2.2.2 else s) s).ageSummary

theorem islandsAged_safety (isl : List (Nat × Nat × Nat × Nat)) : OnlySafety s (islandsAged s isl) := by
  have hstep (t : State) (e : Nat × Nat × Nat × Nat) :
      OnlySafety t (if e.1 < 107 then t.islandAged e.1 e.2.1 e.2.2.1 e.2.2.2 else t) := by
    split
    · exact islandAged_safety t _ _ _ _
    · exact ⟨rfl, rfl⟩
  refine (ageSummary_safety _).after ?_
  exact List.foldlRecOn (motive := OnlySafety s) isl _ ⟨rfl, rfl⟩ fun t ht e _ => (hstep t e).after ht

/-- A round of measurements notes its time and adds swaps to those due. -/
theorem ageingMeasure_measures (isl : List (Nat × Nat × Nat × Nat)) (can : List (Nat × Nat)) (hm : modeB s.top.mode = true)
    (hat : s.saf.ageAt = 0 ∨ s.saf.ageAt + 600 * second ≤ s.clk.gtc + 1) :
    ∃ swaps, exec (.ageingMeasure isl can) s = .next { islandsAged s isl with
      saf := { (islandsAged s isl).saf with
        ageAt := (islandsAged s isl).clk.gtc + 1, swapDue := (islandsAged s isl).saf.swapDue ++ swaps } } := by
  have hdue : modeB s.top.mode = true ∧ (s.saf.ageAt = 0 ∨ s.saf.ageAt + 600 * second ≤ s.clk.gtc + 1) := ⟨hm, hat⟩
  change ∃ swaps, execAgeingMeasure isl can s = _
  unfold execAgeingMeasure
  rw [if_pos hdue]
  exact ⟨_, rfl⟩

end

/-- Settles O55. -/
theorem windshaftKeepsItsTimes : Obligations.WindshaftKeepsItsTimes := by
  intro vin iin pin tj island isl can s
  refine ⟨fun hrun hh hc hat => ⟨_, safAliveTick_counts hrun hh hc hat, ?_⟩, optimeTick_counts, fun hrun hc hat =>
    ⟨_, powerMonitorUpdate_reads hrun hc hat, ?_⟩, fun hm hat => ?_⟩
  · exact ⟨reg_bumpReg _ _, rfl, rfl⟩
  · obtain ⟨hvin, hiin, htj, hpin, htal⟩ := regN_powerRead vin iin pin tj island s
    have hat : (powerRead vin iin pin tj island s).saf.powerAt = s.clk.gtc := rfl
    have htop : (powerRead vin iin pin tj island s).top = s.top := rfl
    generalize powerRead vin iin pin tj island s = t at hvin hiin htj hpin htal hat htop ⊢
    have hfld : (t.vinAlert vin.toNat).fld aTopTalert 0 16 = s.fld aTopTalert 0 16 := by
      rw [vinAlert_only t vin.toNat]
      exact congrArg (bitsOf · 0 16) htal
    obtain ⟨ht, hhot⟩ := tempAlert_only tj (t.vinAlert vin.toNat)
    have honly : OnlySmb t (tempAlert tj (t.vinAlert vin.toNat)) := by
      unfold OnlySmb
      rw [ht, vinAlert_only t vin.toNat]
    rw [hfld] at hhot
    generalize tempAlert tj (t.vinAlert vin.toNat) = u at honly hhot ⊢
    refine ⟨?_, ?_, ?_, ?_, ?_, hhot, ?_⟩
    all_goals rw [honly]
    · exact hvin
    · exact hiin
    · exact htj
    · exact hpin
    · exact hat
    · exact htop
  · obtain ⟨swaps, hage⟩ := ageingMeasure_measures s isl can hm hat
    obtain ⟨honly, hswap⟩ := islandsAged_safety s isl
    refine ⟨_, hage, ?_⟩
    generalize islandsAged s isl = t at honly hswap ⊢
    rw [honly]
    exact ⟨rfl, fun e he => List.mem_append_left _ (hswap ▸ he), rfl, rfl⟩

end Sys2Proof.Proofs

/-! PROOF. The SMBus target. -/

namespace Sys2Proof.Proofs

open Sys2Proof Sys2Proof.Machine Sys2Proof.Laws

/-! ### Bits cleared by a write of ones -/

/-- Subtracting the bits that are set in both clears them. -/
theorem testBit_sub_and (m n k : Nat) : (m - (m &&& n)).testBit k = (m.testBit k && !n.testBit k) := by
  induction k generalizing m n with
  | zero =>
    have hand := Nat.and_mod_two_eq_one (a := m) (b := n)
    have hle := Nat.and_le_left (n := m) (m := n)
    rw [Nat.testBit_zero, Nat.testBit_zero, Nat.testBit_zero, ← decide_not, ← Bool.decide_and]
    exact decide_eq_decide.2 (by omega)
  | succ k ih =>
    have hhalf : (m - (m &&& n)) / 2 = m / 2 - (m / 2 &&& n / 2) := by
      have hand := Nat.and_mod_two_eq_one (a := m) (b := n)
      have hle := Nat.and_le_left (n := m) (m := n)
      rw [← Nat.and_div_two]
      omega
    rw [Nat.testBit_add_one, Nat.testBit_add_one, Nat.testBit_add_one, hhalf, ih]

/-! ### The SMBus target (R615, R616) -/

section

variable {s : State}

theorem smbOn_of_power (hm : s.top.mode ≠ .commit) (hup : s.top.vinUp = true) : s.smbOn = true := by
  unfold State.smbOn
  rw [hup, Bool.and_true]
  exact bne_iff_ne.2 hm

/-- The target that is on answers with the value asked for. -/
theorem smbReply_shows (hon : s.smbOn = true) (n : Nat) : s.smbReply n = { s with smb := { s.smb with out := n } } := if_pos hon

theorem smbusLatch_clears (hon : s.smbOn = true) (v : Half) : exec (.smbusLatch true v) s =
    .next (s.setSmb (Smb.settle { s.smb with latch := s.smb.latch - (s.smb.latch &&& v.toNat) })) := by
  change execSmbusLatch true v s = _
  unfold execSmbusLatch
  rw [Bool.not_true, if_neg Bool.false_ne_true, if_pos hon]

/-- Some bit of a new mask lets a latched cause through that the mask before held back. -/
def unmasks (x : Smb) (m : Nat) : Bool := (upTo 8).any fun b => bitOf m b && !bitOf x.mask b && bitOf x.latch b

theorem smbusMask_sets (hon : s.smbOn = true) (v : Half) : exec (.smbusMask true v) s =
    .next (s.setSmb (Smb.settle
      { s.smb with mask := v.toNat % 256, alert := s.smb.alert || unmasks s.smb (v.toNat % 256) })) := by
  change execSmbusMask true v s = _
  unfold execSmbusMask
  dsimp only
  rw [Bool.not_true, if_neg Bool.false_ne_true, if_pos hon]
  rfl

/-- Settling a target changes its alert only: it is kept while a bit is set in both LATCH and MASK. -/
theorem settle_alert (x : Smb) : x.settle = { x with alert := x.alert && x.latch &&& x.mask != 0 } := by
  unfold Smb.settle
  split
  · next h => rw [h]; simp
  · next h => rw [bne_iff_ne.2 h, Bool.and_true]

theorem smbusTalert_sets (hon : s.smbOn = true) (v : Half) :
    exec (.smbusTalert true v) s = .next (s.setFld aTopTalert 0 16 v.toNat) := by
  change execSmbusTalert true v s = _
  unfold execSmbusTalert
  rw [Bool.not_true, if_neg Bool.false_ne_true, if_pos hon]

theorem smbusAlertResponse_answers (hon : s.smbOn = true) :
    (s.smb.alert = true → exec .smbusAlertResponse s = .next { s with smb := { s.smb with out := 0x5C, alert := false } }) ∧
    (s.smb.alert = false → exec .smbusAlertResponse s = .next s) := by
  change (_ → execSmbusAlertResponse s = _) ∧ (_ → execSmbusAlertResponse s = _)
  unfold execSmbusAlertResponse
  rw [hon, Bool.true_and]
  refine ⟨fun ha => if_pos ha, fun ha => ?_⟩
  rw [ha, if_neg Bool.false_ne_true]

end

/-- A write of LATCH clears the bits written as ones. -/
theorem latch_cleared (latch k : Nat) (v : Half) :
    bitOf (latch - (latch &&& v.toNat)) k = (bitOf latch k && !v.getLsbD k) := by
  rw [bitOf_eq_testBit, bitOf_eq_testBit, testBit_sub_and, BitVec.testBit_toNat]

/-- A bit that the new mask lets through raises the alert. -/
theorem unmasks_of_bit {x : Smb} {w : Half} {k : Nat} (hk : k < 8) (hw : w.getLsbD k = true) (hm : bitOf x.mask k = false)
    (hl : bitOf x.latch k = true) : unmasks x (w.toNat % 256) = true ∧ (x.latch &&& w.toNat % 256) ≠ 0 := by
  have hnew : (w.toNat % 256).testBit k = true := by
    rw [show (256 : Nat) = 2 ^ 8 from rfl, Nat.testBit_mod_two_pow, BitVec.testBit_toNat, hw, Bool.and_true]
    exact decide_eq_true hk
  refine ⟨List.any_eq_true.2 ⟨k, List.mem_range.2 hk, ?_⟩, fun hzero => ?_⟩
  · rw [bitOf_eq_testBit (w.toNat % 256), hnew, hm, hl]
    rfl
  · have hbit := Nat.testBit_and x.latch (w.toNat % 256) k
    rw [hzero, Nat.zero_testBit, hnew, ← bitOf_eq_testBit, hl] at hbit
    cases hbit

/-- A word's low half is the field that the target shows. -/
theorem fld_low_half (s : State) (a : Nat) : s.fld a 0 16 = s.regN a % 65536 := by
  unfold State.fld bitsOf
  rw [Nat.pow_zero, Nat.div_one, show (2 : Nat) ^ 16 = 65536 from rfl]

/-- Settles O56. -/
theorem smbusAnswersAndAlerts : Obligations.SmbusAnswersAndAlerts := by
  intro v w s shows hm hup
  have hon := smbOn_of_power hm hup
  have hshow (n : Nat) : Host.Outcome.next (s.smbReply n) = shows n := congrArg Host.Outcome.next (smbReply_shows hon n)
  obtain ⟨halert, hquiet⟩ := smbusAlertResponse_answers hon
  have hfld (a : Nat) : Host.Outcome.next (s.smbReply (s.fld a 0 16)) = shows (s.regN a % 65536) := by
    rw [fld_low_half, hshow]
  refine ⟨hshow _, hshow _, hshow _, hfld _, hfld _, hfld _, hfld _, hfld _, hshow _, hshow _, hshow _,
    ⟨_, smbusTalert_sets hon v, ?_, rfl⟩, ⟨_, smbusLatch_clears hon v, ?_⟩, ⟨_, smbusMask_sets hon w, ?_⟩, halert, hquiet⟩
  · rw [fld_setFld_self _ _ _ (by decide)]
    exact Nat.mod_eq_of_lt v.isLt
  · rw [settle_alert]
    exact ⟨rfl, rfl, fun k _ => latch_cleared _ _ _, rfl⟩
  · rw [settle_alert]
    refine ⟨rfl, rfl, rfl, fun hzero => ?_, fun hex => ?_⟩
    · change ((_ : Bool) && s.smb.latch &&& w.toNat % 256 != 0) = false
      rw [show s.smb.latch &&& w.toNat % 256 = 0 from hzero, bne_self_eq_false, Bool.and_false]
    · obtain ⟨k, hk, hw, hmask, hlatch⟩ := hex
      obtain ⟨hun, hne⟩ := unmasks_of_bit hk hw hmask hlatch
      change ((s.smb.alert || unmasks s.smb (w.toNat % 256)) && s.smb.latch &&& w.toNat % 256 != 0) = true
      rw [hun, Bool.or_true, Bool.true_and]
      exact bne_iff_ne.2 hne

end Sys2Proof.Proofs
